-- ==== Sys2Proof/Word.lean ====
section
/-!
DEFINITION. The machine's words (R3): bytes, instruction words, 64-bit words, 128-bit vectors, and a
global address, which is a 64-bit word.
-/
namespace Sys2Proof

/-- A byte (R3). -/
abbrev Byte := BitVec 8

/-- An instruction word (R3, R31). -/
abbrev IWord := BitVec 32

/-- A word of memory, a scalar register, a global address (R3, R13, R22). -/
abbrev Word := BitVec 64

/-- A vector register (R14). -/
abbrev Vec := BitVec 128

end Sys2Proof
end

