-- ==== Sys2Proof/Config.lean ====
section
/-!
DEFINITION. What is fixed for the device: the figures of R2, the latencies of R44 and R334 in cycles, and the values that
the manual leaves open, which have no body here, so that nothing can be proved of them.
-/
namespace Sys2Proof.Config

/-! The figures of R2. -/

/-- Columns of the device mesh. -/
def meshW : Nat := 48

/-- Rows of the device mesh. -/
def meshH : Nat := 64

/-- Cores of the device. -/
def cores : Nat := 3072

/-- Clusters of the device. -/
def clusters : Nat := 384

/-- Bytes of HBM (R321). -/
def hbmBytes : Nat := 0x6C00000000

/-- Bytes of a core pool. -/
def poolBytes : Nat := 0x100000

/-- Bytes of a cluster store. -/
def storeBytes : Nat := 0x200000

/-- The latencies of R44, in cycles. -/
def latMul : Nat := 4
def latDiv : Nat := 24
def latVec : Nat := 4
def latRed : Nat := 8
def latFun : Nat := 12
def latLocal : Nat := 5

/-! Free values: what the manual leaves open. -/

/-- The key that MXCAP uses after device reset: "random at device reset" (R133, log entry 5). -/
opaque capKey : Word

/-- A byte of memory whose contents the manual leaves open, by the model's running count (log entry 7). -/
opaque freeByte : Nat → Byte

/-- The channel of the monitor core that a message of the hardware to the monitor goes to, by cause code: the manual gives
none for HANDLER_FETCH and POOL_EXHAUSTED (R128, R190, log entry 8). -/
opaque monitorChan : Nat → BitVec 6

/-- How another part answers an access of an engine, by the model's running count: 0 serves it, 1 PAGE, 2 PROTECT, 3
ENDPOINT_DOWN, each modulo 4 (log entry 9). -/
opaque peerAnswer : Nat → Nat

/-- A word whose value the manual does not state, by the model's running count (log entry 10). -/
opaque openWord : Nat → Word

/-- The part's stepping, whose remainder by 3 is its code: 0 A0, 1 A1, 2 B0 (R1, R365), and its serial number. -/
opaque stepping : Nat
opaque serial : Word

/-- The counters and histograms that the life-record image lists, as ID and UNIT in one number, and RETCAP (R365: "part"). -/
opaque counterKeys : List Nat
opaque histKeys : List Nat
opaque retCap : Nat

/-- The bytes of the seed from which the part's signing key was made at manufacture (R368, log entry 12). -/
opaque keySeed : Nat → Byte

/-- The bytes of randomness of a signature, by the model's running count (R368, log entry 12). -/
opaque signRandom : Nat → Nat → Byte

/-- The island's boot code and the firmware that the part was made with (R368). -/
opaque bootCode : List Byte
opaque islandFirmware : List Byte

/-- Whether an FWLOAD, by its ARG and body, carries island firmware, and not monitor firmware: the manual gives no field for it
(R348). -/
opaque isIslandFirmware : Word → List Byte → Bool

/-- The core whose coordinates stand as SENDER in the ring entry of a re-creation that an HBM stack or a cluster store sends, by the
home's number: the manual gives such a home no coordinates (R184, log entry 102). -/
opaque homeSender : Nat → Nat

/-- PTP time in ns at CYCLE 0 after device reset (R353). -/
opaque ptpStart : Nat

/-- The endpoint that the body of a host's CHECKPOINT names, whose layout the manual does not give (R348, log entry 74). -/
opaque checkpointEndpoint : List Byte → Word

/-- Where the monitor looks for free memory for a launch, by the model's running count (R378). -/
opaque launchPlace : Nat → Nat

end Sys2Proof.Config
end

