-- ==== Sys2Proof/Operand.lean ====
section
/-!
DEFINITION. The operands of the instructions, one structure for each set of fields that the opcode
table gives a row (R34-R40), and the named values of the fields that select among alternatives: the
ordering of R37, the access size of R37, the element type of R38, the fence scope of R51 and the
loop-nest operation of R50. The arguments of the steps that no instruction word encodes (the events of the
opcode table) stand here too: which context, core, cluster, operation or message the step acts on.
-/
namespace Sys2Proof

/-- The ordering field ORD (R37). -/
inductive MOrd where
  | plain | acquire | release | seqcst
deriving DecidableEq, Repr

/-- The code of an ordering (R37). -/
def MOrd.code : MOrd → BitVec 2
  | .plain => 0 | .acquire => 1 | .release => 2 | .seqcst => 3

/-- The ordering of a code (R37). -/
def MOrd.ofCode (c : BitVec 2) : MOrd :=
  match c.toNat with
  | 0 => .plain | 1 => .acquire | 2 => .release | _ => .seqcst

/-- The access sizes that LD and ST permit (R37, R148). -/
inductive Size where
  | b1 | b2 | b4 | b8
deriving DecidableEq, Repr

/-- The SZ code of an access size (R37). -/
def Size.code : Size → BitVec 3
  | .b1 => 0 | .b2 => 1 | .b4 => 2 | .b8 => 3

/-- The access size of an SZ code that LD and ST permit. -/
def Size.ofCode (c : BitVec 3) : Option Size :=
  match c.toNat with
  | 0 => some .b1 | 1 => some .b2 | 2 => some .b4 | 3 => some .b8 | _ => none

/-- The bytes of an access size (R37). -/
def Size.bytes : Size → Nat
  | .b1 => 1 | .b2 => 2 | .b4 => 4 | .b8 => 8

/-- The element types of R38. -/
inductive ETy where
  | s8 | s16 | s32 | s64 | n8 | n16 | n32 | n64 | f16 | bf16 | f32
deriving DecidableEq, Repr

/-- The TY code of an element type (R38). -/
def ETy.code : ETy → BitVec 4
  | .s8 => 0 | .s16 => 1 | .s32 => 2 | .s64 => 3 | .n8 => 4 | .n16 => 5 | .n32 => 6 | .n64 => 7
  | .f16 => 8 | .bf16 => 9 | .f32 => 10

/-- The element type of a number (R38); 11 and above are reserved. -/
def ETy.byNum : Nat → Option ETy
  | 0 => some .s8 | 1 => some .s16 | 2 => some .s32 | 3 => some .s64
  | 4 => some .n8 | 5 => some .n16 | 6 => some .n32 | 7 => some .n64
  | 8 => some .f16 | 9 => some .bf16 | 10 => some .f32 | _ => none

/-- The element type of a TY code (R38). -/
def ETy.ofCode (c : BitVec 4) : Option ETy := ETy.byNum c.toNat

/-- The bytes of an element (R38). -/
def ETy.bytes : ETy → Nat
  | .s8 | .n8 => 1
  | .s16 | .n16 | .f16 | .bf16 => 2
  | .s32 | .n32 | .f32 => 4
  | .s64 | .n64 => 8

/-- The bits of an element. -/
def ETy.bits (t : ETy) : Nat := 8 * t.bytes

/-- The lanes of a vector (R38). -/
def ETy.lanes : ETy → Nat
  | .s8 | .n8 => 16
  | .s16 | .n16 | .f16 | .bf16 => 8
  | .s32 | .n32 | .f32 => 4
  | .s64 | .n64 => 2

/-- A signed integer type (R38). -/
def ETy.isSigned : ETy → Bool
  | .s8 | .s16 | .s32 | .s64 => true
  | _ => false

/-- A floating-point type (R38). -/
def ETy.isFloat : ETy → Bool
  | .f16 | .bf16 | .f32 => true
  | _ => false

/-- An 8-bit or 16-bit integer type (the types of VDOT, VPLANE and VUNPLANE, R97). -/
def ETy.isNarrowInt : ETy → Bool
  | .s8 | .s16 | .n8 | .n16 => true
  | _ => false

/-- The scope of an ordered operation (R153); FENCE's D field codes it as R51 states. -/
inductive FScope where
  | dev | core | dom
deriving DecidableEq, Repr

/-- The code of a fence scope (R51). -/
def FScope.code : FScope → BitVec 6
  | .dev => 0 | .core => 1 | .dom => 2

/-- The fence scope of a code (R51); above 2 is unassigned. -/
def FScope.ofCode (c : BitVec 6) : Option FScope :=
  match c.toNat with
  | 0 => some .dev | 1 => some .core | 2 => some .dom | _ => none

/-- The operations of LNEST (R50, R113). -/
inductive NestOp where
  | mov | add | sub | mul | fma | min | max | rsum | rdot | rmax | rmin
deriving DecidableEq, Repr

/-- The OP code of a nest operation (R50). -/
def NestOp.code : NestOp → BitVec 6
  | .mov => 1 | .add => 2 | .sub => 3 | .mul => 4 | .fma => 5 | .min => 6 | .max => 7
  | .rsum => 8 | .rdot => 9 | .rmax => 10 | .rmin => 11

/-- The nest operation of an OP code (R50). -/
def NestOp.ofCode (c : BitVec 6) : Option NestOp :=
  match c.toNat with
  | 1 => some .mov | 2 => some .add | 3 => some .sub | 4 => some .mul | 5 => some .fma
  | 6 => some .min | 7 => some .max | 8 => some .rsum | 9 => some .rdot | 10 => some .rmax
  | 11 => some .rmin | _ => none

/-- The operations that use operand B (R113). -/
def NestOp.usesB : NestOp → Bool
  | .mov | .rsum | .rmax | .rmin => false
  | _ => true

/-! The operand structures. A field's name is the opcode table's; `s` is the switch marker (R32). -/

/-- Three scalar registers in format RR. -/
structure R3 where
  s : Bool
  d : BitVec 6
  a : BitVec 6
  b : BitVec 6
deriving DecidableEq, Repr

/-- Destination and one source in format RR. -/
structure R2 where
  s : Bool
  d : BitVec 6
  a : BitVec 6
deriving DecidableEq, Repr

/-- Format RI with its 13-bit immediate. -/
structure RI where
  s : Bool
  d : BitVec 6
  a : BitVec 6
  i : BitVec 13
deriving DecidableEq, Repr

/-- Format RI with a 6-bit shift amount. -/
structure RS where
  s : Bool
  d : BitVec 6
  a : BitVec 6
  i : BitVec 6
deriving DecidableEq, Repr

/-- Format J. -/
structure JF where
  s : Bool
  o : BitVec 25
deriving DecidableEq, Repr

/-- Format C. -/
structure CF where
  s : Bool
  a : BitVec 6
  o : BitVec 19
deriving DecidableEq, Repr

/-- Format BM. -/
structure BF where
  s : Bool
  m : BitVec 3
  o : BitVec 19
deriving DecidableEq, Repr

/-- Format K with no register. -/
structure K0 where
  s : Bool
deriving DecidableEq, Repr

/-- Format K with A. -/
structure KA where
  s : Bool
  a : BitVec 6
deriving DecidableEq, Repr

/-- Format K with A and B. -/
structure KAB where
  s : Bool
  a : BitVec 6
  b : BitVec 6
deriving DecidableEq, Repr

/-- Format K with A and D. -/
structure KAD where
  s : Bool
  a : BitVec 6
  d : BitVec 6
deriving DecidableEq, Repr

/-- Format K with A, B and D. -/
structure KABD where
  s : Bool
  a : BitVec 6
  b : BitVec 6
  d : BitVec 6
deriving DecidableEq, Repr

/-- Major 0x20 with A, D and an ordering (R51). -/
structure KADO where
  s : Bool
  a : BitVec 6
  d : BitVec 6
  o : MOrd
deriving DecidableEq, Repr

/-- Major 0x20 with A, B, D and an ordering (R51). -/
structure KABDO where
  s : Bool
  a : BitVec 6
  b : BitVec 6
  d : BitVec 6
  o : MOrd
deriving DecidableEq, Repr

/-- FENCE: a scope and an ordering (R51). -/
structure KFence where
  s : Bool
  c : FScope
  o : MOrd
deriving DecidableEq, Repr

/-- Mask operation with three masks. -/
structure M3 where
  s : Bool
  a : BitVec 3
  b : BitVec 3
  d : BitVec 3
deriving DecidableEq, Repr

/-- Mask operation with two masks. -/
structure M2 where
  s : Bool
  a : BitVec 3
  d : BitVec 3
deriving DecidableEq, Repr

/-- MSET: scalar source, mask destination. -/
structure MSetF where
  s : Bool
  a : BitVec 6
  d : BitVec 3
deriving DecidableEq, Repr

/-- MGET, MPOPC, MFIRST: mask source, scalar destination. -/
structure MGetF where
  s : Bool
  a : BitVec 3
  d : BitVec 6
deriving DecidableEq, Repr

/-- LD and ST: format M with a size. -/
structure MemF where
  s : Bool
  d : BitVec 6
  a : BitVec 6
  o : MOrd
  z : Size
  p : BitVec 8
deriving DecidableEq, Repr

/-- LDV and STV: format M with a vector register. -/
structure MemV where
  s : Bool
  d : BitVec 5
  a : BitVec 6
  o : MOrd
  p : BitVec 8
deriving DecidableEq, Repr

/-- LDF, LDT, STF, STW: format M with SZ 3. -/
structure MemW where
  s : Bool
  d : BitVec 6
  a : BitVec 6
  o : MOrd
  p : BitVec 8
deriving DecidableEq, Repr

/-- Format V with three vector registers. -/
structure V3 where
  s : Bool
  d : BitVec 5
  a : BitVec 5
  b : BitVec 5
  m : BitVec 3
  t : ETy
deriving DecidableEq, Repr

/-- Format V with two vector registers. -/
structure V2 where
  s : Bool
  d : BitVec 5
  a : BitVec 5
  m : BitVec 3
  t : ETy
deriving DecidableEq, Repr

/-- Format V with a mask destination. -/
structure VC where
  s : Bool
  d : BitVec 3
  a : BitVec 5
  b : BitVec 5
  m : BitVec 3
  t : ETy
deriving DecidableEq, Repr

/-- VPLANE and VUNPLANE: format V with a 4-bit count in B (R108). -/
structure VP where
  s : Bool
  d : BitVec 5
  a : BitVec 5
  n : BitVec 4
  m : BitVec 3
  t : ETy
deriving DecidableEq, Repr

/-- Format VG without a lane. -/
structure VG where
  s : Bool
  d : BitVec 5
  g : BitVec 6
  m : BitVec 3
  t : ETy
deriving DecidableEq, Repr

/-- Format VG with a lane and no mask (VEXT, VINS). -/
structure VL where
  s : Bool
  d : BitVec 5
  g : BitVec 6
  l : BitVec 4
  t : ETy
deriving DecidableEq, Repr

/-- WLPUSH: D is a literal of one bit (R285). -/
structure KPush where
  s : Bool
  a : BitVec 6
  b : BitVec 6
  w : BitVec 1
deriving DecidableEq, Repr

/-- MXSKIP: D names a stream register. -/
structure KSkip where
  s : Bool
  a : BitVec 6
  b : BitVec 6
  d : BitVec 2
deriving DecidableEq, Repr

/-- MXRUN: D names a stream register. -/
structure KRun where
  s : Bool
  a : BitVec 6
  d : BitVec 2
deriving DecidableEq, Repr

/-- TRAP: a register and a 6-bit code (R130). -/
structure KTrap where
  s : Bool
  a : BitVec 6
  c : BitVec 6
deriving DecidableEq, Repr

/-- BRK: a 6-bit code (R130). -/
structure KBrk where
  s : Bool
  c : BitVec 6
deriving DecidableEq, Repr

/-- CSR access: a CSR number and a scalar register (R52). -/
structure KCsr where
  s : Bool
  c : BitVec 12
  d : BitVec 6
deriving DecidableEq, Repr

/-- LI and LA: format L with D and IMM32. -/
structure LD1 where
  s : Bool
  d : BitVec 6
  i : BitVec 32
deriving DecidableEq, Repr

/-- LIH: format L with D, A and IMM32. -/
structure LDA where
  s : Bool
  d : BitVec 6
  a : BitVec 6
  i : BitVec 32
deriving DecidableEq, Repr

/-- XY: format L with D, A and a coordinate field (R39, R41). -/
structure LXY where
  s : Bool
  d : BitVec 6
  a : BitVec 6
  f : BitVec 15
deriving DecidableEq, Repr

/-- BL and CALLL: format L with a 32-bit word offset. -/
structure LOff where
  s : Bool
  i : BitVec 32
deriving DecidableEq, Repr

/-- One level of a nest (R40): the extent minus 1 and the three strides. -/
structure Level where
  ext : BitVec 11
  sta : BitVec 10
  stb : BitVec 10
  std : BitVec 10
deriving DecidableEq, Repr

/-- LNEST (R40): LV is the number of levels listed, level 0 first. -/
structure Nest where
  s : Bool
  op : NestOp
  t : ETy
  m : BitVec 3
  rm : BitVec 3
  sca : BitVec 2
  scb : BitVec 2
  scd : BitVec 2
  bd : BitVec 6
  ba : BitVec 6
  bb : BitVec 6
  levels : List Level
deriving DecidableEq, Repr

/-! The arguments of the events. -/

/-- A context of the device: the index `48 y + x` of its core and its number (R8). -/
structure CtxId where
  core : Nat
  k : Nat
deriving DecidableEq, Repr

/-- What a message does where it is accepted (R184): it starts a thread (KIND 0), re-creates the
continuation of a record (KIND 1), or wakes a wait-table entry (KIND 2). -/
inductive MsgBody where
  | start (chan nw : Nat) (payload : List Word)
  | recreate (record : Word)
  | wake (index : Nat) (value : Word)
deriving DecidableEq, Repr

/-- A message on the message plane: its stamp, the core it names as its sender, its target core, its body, the operation of
the sending thread that it carries out, when there is one, and the source of the path it comes on. -/
structure Msg where
  job : Nat
  gen : Nat
  src : Nat
  target : Nat
  body : MsgBody
  op : Option Nat
  via : Nat
deriving DecidableEq, Repr

/-- A protocol message of a net (R213, R224): the stamp, the home it is sent from, and the ports it names. -/
structure NetMsg where
  job : Nat
  gen : Nat
  src : Nat
  a : Word
  b : Word
  c : Word
deriving DecidableEq, Repr

/-- What a write of a CSR carries: the context that writes, the CSR number and the value. -/
structure CsrSet where
  ctx : CtxId
  num : BitVec 12
  value : Word
deriving DecidableEq, Repr

/-- A command or other send of a host to the device's system endpoint (R347): the host's address and the
bytes of the send, header first. -/
structure HostReq where
  host : Word
  bytes : List Byte
deriving DecidableEq, Repr

/-- A host's RMA request (R346): the window, the offset, the length, and the bytes of a write. -/
structure RmaReq where
  host : Word
  window : Nat
  offset : Nat
  len : Nat
  data : List Byte
deriving DecidableEq, Repr

/-- What a request of another part asks of this part (R345). -/
inductive PeerBody where
  | load (va : Word) (size : Nat) (plain : Bool)
  | store (va : Word) (size : Nat) (data : Vec) (plain : Bool)
  | amo (va : Word) (fn : Nat) (b e : Word)
  | fullEmpty (va : Word) (fn : Nat) (data : Word)
  | resume (va value : Word)
  | member (va : Word) (leave : Bool)
  /-- The park request of a full/empty operation (R165, R195), with whether its thread stands in a pool entry there. -/
  | fePark (va : Word) (fn : Nat) (data : Word) (pooled : Bool)
  /-- The record that PARK stores (R191). -/
  | park (va : Word) (words : List Word)
  /-- The arrival of GBAR, or of GMAX with its contribution (R200). -/
  | arrival (va : Word) (gmax : Option (BitVec 32))
  /-- The wake of a continuation of this part, whose record stands here, by the home of what it waited for. -/
  | wake (va value : Word)
  /-- A release clears the marks of the context here (R26, R154). -/
  | clearMarks
deriving DecidableEq, Repr

/-- A request at the island (R345): one of this part's own operations on its way to another part; a request of another part with its tag, its
device, core and context, and its job stamp here; another part's answer that it has cleared the marks of a context; a transit packet for a part
that enters (R338), and one that the island holds going on. -/
inductive PeerReq where
  | outgoing (id : Nat)
  | incoming (tag dev core k job gen : Nat) (body : PeerBody)
  /-- A request of another part that waits at its home here, ahead of the later ones of its core for that home. -/
  | held (tag dev core k job gen : Nat) (body : PeerBody)
  | cleared (dev core k : Nat)
  | transit (dest : Nat) (bytes : List Byte)
  | forward (n : Nat)
deriving DecidableEq, Repr

/-- A sample row of a packet (R351): its line, the first pgroup of the line that it holds, and its bytes. -/
structure SampleRow where
  line : Nat
  offset : Nat
  data : List Byte
deriving DecidableEq, Repr

/-- A packet of an ST 2110 stream (R351-R354): the destination address, as the index of its entry of the attach record, and the UDP port, which
match it to a stream; the RTP fields; and the sample rows that it carries. -/
structure Packet where
  dest : Nat
  port : Nat
  /-- The arrival time of R353, once the unit has stamped the packet and keeps it. -/
  stamp : Option Nat
  rtpSeq : Nat
  rtpTime : Nat
  marker : Bool
  rows : List SampleRow
deriving DecidableEq, Repr

end Sys2Proof
end

