-- ==== Sys2Proof/Syntax.lean ====
section
/-!
DEFINITION. The instructions and steps of the Skelmin: one constructor for each row of the opcode table. The rows
with an encoding carry their fields; the rows without one (formats L and N apart) are the steps that the
machine performs between instructions or that come from outside; what such a step acts on stands in the state's event
operand (`State.arg`), which the machine loads before the step.
-/
namespace Sys2Proof

/-- One constructor per row of the opcode table; each docstring gives the row's mnemonic and rule. -/
inductive Instr where
  /-- ADD (R57). -/
  | add (o : R3)
  /-- SUB (R57). -/
  | sub (o : R3)
  /-- AND (R57). -/
  | andR (o : R3)
  /-- OR (R57). -/
  | orR (o : R3)
  /-- XOR (R57). -/
  | xorR (o : R3)
  /-- ANDN (R57). -/
  | andn (o : R3)
  /-- SHL (R57). -/
  | shl (o : R3)
  /-- SHR (R57). -/
  | shr (o : R3)
  /-- SRA (R57). -/
  | sra (o : R3)
  /-- ROL (R57). -/
  | rol (o : R3)
  /-- MUL (R58). -/
  | mul (o : R3)
  /-- MULH_S (R58). -/
  | mulhS (o : R3)
  /-- MULH_N (R58). -/
  | mulhN (o : R3)
  /-- DIV_S (R58). -/
  | divS (o : R3)
  /-- DIV_N (R58). -/
  | divN (o : R3)
  /-- REM_S (R58). -/
  | remS (o : R3)
  /-- REM_N (R58). -/
  | remN (o : R3)
  /-- MIN_S (R57). -/
  | minS (o : R3)
  /-- MIN_N (R57). -/
  | minN (o : R3)
  /-- MAX_S (R57). -/
  | maxS (o : R3)
  /-- MAX_N (R57). -/
  | maxN (o : R3)
  /-- CLZ (R59). -/
  | clz (o : R2)
  /-- CTZ (R59). -/
  | ctz (o : R2)
  /-- POPC (R59). -/
  | popc (o : R2)
  /-- BSWAP (R59). -/
  | bswap (o : R2)
  /-- SEL (R59). -/
  | sel (o : R3)
  /-- CMP_EQ (R60). -/
  | cmpEq (o : R3)
  /-- CMP_NE (R60). -/
  | cmpNe (o : R3)
  /-- CMP_LT (R60). -/
  | cmpLt (o : R3)
  /-- CMP_GE (R60). -/
  | cmpGe (o : R3)
  /-- CMP_LTN (R60). -/
  | cmpLtn (o : R3)
  /-- CMP_GEN (R60). -/
  | cmpGen (o : R3)
  /-- SEXT (R59). -/
  | sext (o : R3)
  /-- ZEXT (R59). -/
  | zext (o : R3)
  /-- BFX (R59). -/
  | bfx (o : R3)
  /-- BFI (R59). -/
  | bfi (o : R3)
  /-- XYADD (R64). -/
  | xyadd (o : R3)
  /-- ADDI (R61). -/
  | addi (o : RI)
  /-- ANDI (R61). -/
  | andi (o : RI)
  /-- ORI (R61). -/
  | ori (o : RI)
  /-- XORI (R61). -/
  | xori (o : RI)
  /-- SHLI (R61). -/
  | shli (o : RS)
  /-- SHRI (R61). -/
  | shri (o : RS)
  /-- SRAI (R61). -/
  | srai (o : RS)
  /-- CMPI_LT (R61). -/
  | cmpiLt (o : RI)
  /-- CMPI_EQ (R61). -/
  | cmpiEq (o : RI)
  /-- MULI (R61). -/
  | muli (o : RI)
  /-- LI (R62). -/
  | li (o : LD1)
  /-- LIH (R62). -/
  | lih (o : LDA)
  /-- LA (R62). -/
  | la (o : LD1)
  /-- XY (R63). -/
  | xy (o : LXY)
  /-- B (R65). -/
  | branch (o : JF)
  /-- CALL (R65). -/
  | call (o : JF)
  /-- BZ (R65). -/
  | bz (o : CF)
  /-- BNZ (R65). -/
  | bnz (o : CF)
  /-- BL (R65). -/
  | bl (o : LOff)
  /-- CALLL (R65). -/
  | calll (o : LOff)
  /-- BR (R66). -/
  | br (o : KA)
  /-- CALLR (R66). -/
  | callr (o : KA)
  /-- RET (R66). -/
  | ret (o : K0)
  /-- LOOP (R70). -/
  | loop (o : KAB)
  /-- NOP (R66). -/
  | nop (o : K0)
  /-- BM_ANY (R67). -/
  | bmAny (o : BF)
  /-- BM_ALL (R67). -/
  | bmAll (o : BF)
  /-- BM_NONE (R67). -/
  | bmNone (o : BF)
  /-- MAND (R69). -/
  | mand (o : M3)
  /-- MOR (R69). -/
  | mor (o : M3)
  /-- MXOR (R69). -/
  | mxor (o : M3)
  /-- MANDN (R69). -/
  | mandn (o : M3)
  /-- MNOT (R69). -/
  | mnot (o : M2)
  /-- MMOV (R69). -/
  | mmov (o : M2)
  /-- MSET (R69). -/
  | mset (o : MSetF)
  /-- MGET (R69). -/
  | mget (o : MGetF)
  /-- MPOPC (R69). -/
  | mpopc (o : MGetF)
  /-- MFIRST (R69). -/
  | mfirst (o : MGetF)
  /-- LD (R148). -/
  | ld (o : MemF)
  /-- ST (R148). -/
  | st (o : MemF)
  /-- LDV (R148). -/
  | ldv (o : MemV)
  /-- STV (R148). -/
  | stv (o : MemV)
  /-- LDF (R163). -/
  | ldf (o : MemW)
  /-- LDT (R163). -/
  | ldt (o : MemW)
  /-- STF (R163). -/
  | stf (o : MemW)
  /-- STW (R163). -/
  | stw (o : MemW)
  /-- FEE (R163). -/
  | fee (o : KADO)
  /-- FEQ (R163). -/
  | feq (o : KADO)
  /-- AMO_ADD (R168). -/
  | amoAdd (o : KABDO)
  /-- AMO_AND (R168). -/
  | amoAnd (o : KABDO)
  /-- AMO_OR (R168). -/
  | amoOr (o : KABDO)
  /-- AMO_XOR (R168). -/
  | amoXor (o : KABDO)
  /-- AMO_MIN_S (R168). -/
  | amoMinS (o : KABDO)
  /-- AMO_MIN_N (R168). -/
  | amoMinN (o : KABDO)
  /-- AMO_MAX_S (R168). -/
  | amoMaxS (o : KABDO)
  /-- AMO_MAX_N (R168). -/
  | amoMaxN (o : KABDO)
  /-- AMO_SWAP (R168). -/
  | amoSwap (o : KABDO)
  /-- AMO_FADD (R168). -/
  | amoFadd (o : KABDO)
  /-- CAS (R169). -/
  | cas (o : KABDO)
  /-- FENCE (R170). -/
  | fence (o : KFence)
  /-- PREF (R171). -/
  | pref (o : KA)
  /-- STC (R173). -/
  | stc (o : KABDO)
  /-- LDX (R174). -/
  | ldx (o : KABDO)
  /-- VADD (R98). -/
  | vadd (o : V3)
  /-- VSUB (R98). -/
  | vsub (o : V3)
  /-- VADDS (R98). -/
  | vadds (o : V3)
  /-- VSUBS (R98). -/
  | vsubs (o : V3)
  /-- VMUL (R98). -/
  | vmul (o : V3)
  /-- VMULH (R98). -/
  | vmulh (o : V3)
  /-- VMIN (R98). -/
  | vmin (o : V3)
  /-- VMAX (R98). -/
  | vmax (o : V3)
  /-- VABS (R98). -/
  | vabs (o : V2)
  /-- VNEG (R98). -/
  | vneg (o : V2)
  /-- VAND (R99). -/
  | vand (o : V3)
  /-- VOR (R99). -/
  | vor (o : V3)
  /-- VXOR (R99). -/
  | vxor (o : V3)
  /-- VANDN (R99). -/
  | vandn (o : V3)
  /-- VSHL (R99). -/
  | vshl (o : V3)
  /-- VSHR (R99). -/
  | vshr (o : V3)
  /-- VSRA (R99). -/
  | vsra (o : V3)
  /-- VSEL (R99). -/
  | vsel (o : V3)
  /-- VCMP_EQ (R101). -/
  | vcmpEq (o : VC)
  /-- VCMP_NE (R101). -/
  | vcmpNe (o : VC)
  /-- VCMP_LT (R101). -/
  | vcmpLt (o : VC)
  /-- VCMP_LE (R101). -/
  | vcmpLe (o : VC)
  /-- VAVG (R98). -/
  | vavg (o : V3)
  /-- VDOT (R100). -/
  | vdot (o : V3)
  /-- VFADD (R102). -/
  | vfadd (o : V3)
  /-- VFSUB (R102). -/
  | vfsub (o : V3)
  /-- VFMUL (R102). -/
  | vfmul (o : V3)
  /-- VFMA (R102). -/
  | vfma (o : V3)
  /-- VFMS (R102). -/
  | vfms (o : V3)
  /-- VFMIN (R103). -/
  | vfmin (o : V3)
  /-- VFMAX (R103). -/
  | vfmax (o : V3)
  /-- VFABS (R103). -/
  | vfabs (o : V2)
  /-- VFNEG (R103). -/
  | vfneg (o : V2)
  /-- VFCMP_EQ (R104). -/
  | vfcmpEq (o : VC)
  /-- VFCMP_LT (R104). -/
  | vfcmpLt (o : VC)
  /-- VFCMP_LE (R104). -/
  | vfcmpLe (o : VC)
  /-- VFCMP_UN (R104). -/
  | vfcmpUn (o : VC)
  /-- VRCP (R105). -/
  | vrcp (o : V2)
  /-- VRSQ (R105). -/
  | vrsq (o : V2)
  /-- VSQRT (R105). -/
  | vsqrt (o : V2)
  /-- VEXP2 (R105). -/
  | vexp2 (o : V2)
  /-- VLOG2 (R105). -/
  | vlog2 (o : V2)
  /-- VCVT (R106). -/
  | vcvt (o : V3)
  /-- VQNT (R107). -/
  | vqnt (o : V3)
  /-- VPLANE (R108). -/
  | vplane (o : VP)
  /-- VUNPLANE (R108). -/
  | vunplane (o : VP)
  /-- VMOV (R109). -/
  | vmov (o : V2)
  /-- VPERM (R109). -/
  | vperm (o : V3)
  /-- VCOMPRESS (R109). -/
  | vcompress (o : V2)
  /-- VEXPAND (R109). -/
  | vexpand (o : V2)
  /-- VZIP (R109). -/
  | vzip (o : V3)
  /-- VUNZIP (R109). -/
  | vunzip (o : V3)
  /-- VSLIDE (R109). -/
  | vslide (o : V3)
  /-- VREDADD (R110). -/
  | vredadd (o : V2)
  /-- VREDMIN (R110). -/
  | vredmin (o : V2)
  /-- VREDMAX (R110). -/
  | vredmax (o : V2)
  /-- VBCAST (R112). -/
  | vbcast (o : VG)
  /-- VEXT (R112). -/
  | vext (o : VL)
  /-- VINS (R112). -/
  | vins (o : VL)
  /-- VFREDADD (R111). -/
  | vfredadd (o : VG)
  /-- VFREDMAX (R111). -/
  | vfredmax (o : VG)
  /-- VFREDMIN (R111). -/
  | vfredmin (o : VG)
  /-- LNEST (R114). -/
  | lnest (o : Nest)
  /-- SEND (R180). -/
  | send (o : KAB)
  /-- SENDK (R180). -/
  | sendk (o : KABD)
  /-- PARK (R191). -/
  | park (o : KABD)
  /-- RESUME (R192). -/
  | resume (o : KAB)
  /-- TEND (R188). -/
  | tend (o : K0)
  /-- TASKSET (R177). -/
  | taskset (o : KABD)
  /-- TASKRD (R178). -/
  | taskrd (o : KAD)
  /-- JOIN (R199). -/
  | join (o : KAD)
  /-- LEAVE (R199). -/
  | leave (o : KAD)
  /-- GBAR (R200). -/
  | gbar (o : KAD)
  /-- GMAX (R200). -/
  | gmax (o : KABD)
  /-- NALLOC (R217). -/
  | nalloc (o : KAD)
  /-- NKILL (R219). -/
  | nkill (o : KA)
  /-- LINK (R220). -/
  | link (o : KAB)
  /-- RELINK (R221). -/
  | relink (o : KAB)
  /-- NSEAL (R218). -/
  | nseal (o : KA)
  /-- NTYPE (R222). -/
  | ntype (o : KAD)
  /-- TREF (R223). -/
  | tref (o : KAD)
  /-- TDROP (R223). -/
  | tdrop (o : KAD)
  /-- WLINIT (R283). -/
  | wlinit (o : KA)
  /-- WLPUSH (R283). -/
  | wlpush (o : KPush)
  /-- WLINSU (R283). -/
  | wlinsu (o : KABD)
  /-- WLPOPB (R283). -/
  | wlpopb (o : KABD)
  /-- WLCOUNT (R289). -/
  | wlcount (o : KAD)
  /-- WLDRAIN (R283). -/
  | wldrain (o : KA)
  /-- COPY (R237). -/
  | copy (o : KABD)
  /-- COPYR (R239). -/
  | copyr (o : KAD)
  /-- WAITANY (R233). -/
  | waitany (o : KAD)
  /-- WAITALL (R233). -/
  | waitall (o : KAD)
  /-- TAGFF (R235). -/
  | tagff (o : KAD)
  /-- TAGCLR (R235). -/
  | tagclr (o : KA)
  /-- SUBSCRIBE (R242). -/
  | subscribe (o : KABD)
  /-- UNSUB (R247). -/
  | unsub (o : KA)
  /-- RINGPOP (R245). -/
  | ringpop (o : KAD)
  /-- RINGREL (R246). -/
  | ringrel (o : KA)
  /-- GATHER (R249). -/
  | gather (o : KABD)
  /-- SCATTER (R249). -/
  | scatter (o : KABD)
  /-- MXMAP (R259). -/
  | mxmap (o : KAB)
  /-- MXA (R261). -/
  | mxa (o : KAB)
  /-- MXB (R260). -/
  | mxb (o : KA)
  /-- MXSKIP (R262). -/
  | mxskip (o : KSkip)
  /-- MXRUN (R263). -/
  | mxrun (o : KRun)
  /-- MXSCALE (R270). -/
  | mxscale (o : KA)
  /-- MXSEND (R274). -/
  | mxsend (o : KAB)
  /-- MXSTAT (R272). -/
  | mxstat (o : KAD)
  /-- MXCAP (R273). -/
  | mxcap (o : KAD)
  /-- DXENC (R295). -/
  | dxenc (o : KABD)
  /-- DXDEC (R296). -/
  | dxdec (o : KABD)
  /-- DXADD (R297). -/
  | dxadd (o : KABD)
  /-- DXSUB (R297). -/
  | dxsub (o : KABD)
  /-- DXIN (R298). -/
  | dxin (o : KABD)
  /-- DXNEXT (R299). -/
  | dxnext (o : KABD)
  /-- DXSPLIT (R300). -/
  | dxsplit (o : KABD)
  /-- DXLEV (R301). -/
  | dxlev (o : KABD)
  /-- DXCELL (R301). -/
  | dxcell (o : KABD)
  /-- DXCMP (R301). -/
  | dxcmp (o : KABD)
  /-- TRAP (R130). -/
  | trap (o : KTrap)
  /-- TRET (R127). -/
  | tret (o : K0)
  /-- CSRR (R131). -/
  | csrr (o : KCsr)
  /-- CSRW (R131). -/
  | csrw (o : KCsr)
  /-- CSRX (R131). -/
  | csrx (o : KCsr)
  /-- CSRS (R131). -/
  | csrs (o : KCsr)
  /-- CSRC (R131). -/
  | csrc (o : KCsr)
  /-- BRK (R130). -/
  | brk (o : KBrk)
  /-- JRNL (R135). -/
  | jrnl (o : KAD)
  /-- ICINV (R136). -/
  | icinv (o : KAB)
  /-- TLBINV (R137). -/
  | tlbinv (o : KAB)
  /-- REPART (R138). -/
  | repart (o : KA)
  /-- KILLJ (R139). -/
  | killj (o : KA)
  /-- CANCELJ (R140). -/
  | cancelj (o : KA)
  /-- STC_SCAN_STEP (R173). -/
  | stcScanStep
  /-- LNEST_STEP (R116). -/
  | lnestStep
  /-- PARK_AT_HOME (R191). -/
  | parkAtHome
  /-- RESUME_AT_HOME (R192). -/
  | resumeAtHome
  /-- TASKSET_AT_TARGET (R177). -/
  | tasksetAtTarget
  /-- GROUP_ARRIVAL (R200). -/
  | groupArrival
  /-- NKILL_AT_HOME (R219). -/
  | nkillAtHome
  /-- RELINK_AT_HOME (R221). -/
  | relinkAtHome
  /-- NSEAL_AT_HOME (R218). -/
  | nsealAtHome
  /-- READY (R213). -/
  | netReady
  /-- PAIR_ENQUEUE_RETRY (R282). -/
  | pairEnqueueRetry
  /-- LIGATURE_TAKE_PAIR (R214). -/
  | ligatureTakePair
  /-- PROTOCOL_JOIN (R224). -/
  | netJoin
  /-- BIND (R224). -/
  | netBind
  /-- REDIRECT (R224). -/
  | netRedirect
  /-- SETTLE (R224). -/
  | netSettle
  /-- WLINIT_AT_HOME (R284). -/
  | wlinitAtHome
  /-- WLPUSH_AT_HOME (R285). -/
  | wlpushAtHome
  /-- WLINSU_AT_HOME (R286). -/
  | wlinsuAtHome
  /-- WLPOPB_AT_HOME (R287). -/
  | wlpopbAtHome
  /-- WL_POP_RETRY (R288). -/
  | wlPopRetry
  /-- WL_PARK_REQUEST (R288). -/
  | wlParkRequest
  /-- WLDRAIN_AT_HOME (R290). -/
  | wldrainAtHome
  /-- WL_SPILL_MOVE (R281). -/
  | wlSpillMove
  /-- TAG_WAIT_RETEST (R234). -/
  | tagWaitRetest
  /-- ENGINE_COMMAND_LEAVE (R230). -/
  | engineCommandLeave
  /-- COPY_CHUNK (R237). -/
  | copyChunk
  /-- SUBSCRIPTION_START (R242). -/
  | subscriptionStart
  /-- FEED_TILE_PLACE (R244). -/
  | feedTilePlace
  /-- FEED_RELEASE (R246). -/
  | feedRelease
  /-- UNSUB_ARRIVE (R247). -/
  | unsubArrive
  /-- GATHER_WINDOW (R250). -/
  | gatherWindow
  /-- GATHER_SYSTEM_SWITCH (R251). -/
  | gatherSystemSwitch
  /-- MXMAP_TABLE_STEP (R259). -/
  | mxmapTableStep
  /-- MXSCALE_STEP (R270). -/
  | mxscaleStep
  /-- MXMAP_PERFORM (R259). -/
  | mxmapPerform
  /-- MXB_PERFORM (R260). -/
  | mxbPerform
  /-- MXA_PERFORM (R261). -/
  | mxaPerform
  /-- MXRUN_PERFORM (R264). -/
  | mxrunPerform
  /-- MX_COMMAND_WINDOW (R274). -/
  | mxCommandWindow
  /-- MX_ENGINE_FAIL (R268). -/
  | mxEngineFail
  /-- REPART_APPLY (R138). -/
  | repartApply
  /-- KILLJ_COMPLETE (R139). -/
  | killjComplete
  /-- CANCEL_ARRIVE (R140). -/
  | cancelArrive
  /-- CANCELJ_COMPLETE (R141). -/
  | canceljComplete
  /-- INVALIDATE_COMPLETE (R142). -/
  | invalidateComplete
  /-- LONG_RESULT_RETURN (R43). -/
  | longResultReturn
  /-- FALLIBLE_OP_FAULT (R123). -/
  | fallibleOpFault
  /-- MARKER_WAIT_END (R46). -/
  | markerWaitEnd
  /-- JOURNAL_LEAVE (R151). -/
  | journalLeave
  /-- JOURNAL_ACCEPT (R151). -/
  | journalAccept
  /-- JOURNAL_REFUSE (R124). -/
  | journalRefuse
  /-- HOME_ACCESS (R143). -/
  | homeAccess
  /-- MARK_CLEAR (R154). -/
  | markClear
  /-- IMPLICIT_RELEASE_REQUEST (R160). -/
  | implicitReleaseRequest
  /-- FE_RETRY (R164). -/
  | feRetry
  /-- FE_PARK_REQUEST (R164). -/
  | feParkRequest
  /-- FE_NO_ROOM (R195). -/
  | feNoRoom
  /-- FE_WAKE (R197). -/
  | feWake
  /-- POOL_RETRY (R190). -/
  | poolRetry
  /-- MESSAGE_ARRIVE (R183). -/
  | messageArrive
  /-- MESSAGE_RETRY (R183). -/
  | messageRetry
  /-- DISPATCH_MESSAGE (R187). -/
  | dispatchMessage
  /-- DISPATCH_RECREATION (R193). -/
  | dispatchRecreation
  /-- DISPATCH_WAKE (R197). -/
  | dispatchWake
  /-- WATCHDOG (R308). -/
  | watchdog
  /-- PREEMPT (R307). -/
  | preempt
  /-- CONTINUATION_RESULT_FILL (R401). -/
  | continuationResultFill
  /-- ICACHE_FILL (R335). -/
  | icacheFill
  /-- CODE_PAGE_VERIFY (R379). -/
  | codePageVerify
  /-- PAGE_WALK (R326). -/
  | pageWalk
  /-- WALKER_GRANT (R329). -/
  | walkerGrant
  /-- CSR_WRITE (R17). -/
  | csrWrite
  /-- FCSR_WRITE (R20). -/
  | fcsrWrite
  /-- RNDSEED_WRITE (R20). -/
  | rndseedWrite
  /-- LOOP_CSR_WRITE (R20). -/
  | loopCsrWrite
  /-- TAGS_WRITE (R236). -/
  | tagsWrite
  /-- PTROOT_WRITE (R133). -/
  | ptrootWrite
  /-- JOBGEN_GEN (R134). -/
  | jobgenGen
  /-- JOBGEN_FREE (R134). -/
  | jobgenFree
  /-- CAPKEY_WRITE (R273). -/
  | capkeyWrite
  /-- THAW (R133). -/
  | thaw
  /-- QUIESCE (R313). -/
  | quiesce
  /-- SWITCH_OUT (R314). -/
  | switchOut
  /-- SWITCH_IN (R316). -/
  | switchIn
  /-- RELEASE (R312). -/
  | releaseJob
  /-- ABORT (R314). -/
  | abortSwitch
  /-- HOLD_ARRIVE (R313). -/
  | holdArrive
  /-- QUIESCED (R313). -/
  | quiesced
  /-- SWITCH_OUT_SAVE_DONE (R314). -/
  | switchOutSaveDone
  /-- INBOX_DELIVER (R316). -/
  | inboxDeliver
  /-- ATTACH (R349). -/
  | attachRing
  /-- REPLY (R349). -/
  | hostReply
  /-- OPEN (R349). -/
  | openStream
  /-- CLOSE (R349). -/
  | closeStream
  /-- CKPT (R356). -/
  | ckpt
  /-- FREE (R350). -/
  | freeEntry
  /-- STATUS (R348). -/
  | hostStatus
  /-- POWER (R348). -/
  | hostPower
  /-- CRESET (R348). -/
  | creset
  /-- QUOTE (R368). -/
  | hostQuote
  /-- FWLOAD (R348). -/
  | fwload
  /-- LAUNCH (R378). -/
  | hostLaunch
  /-- CANCEL (R348). -/
  | hostCancel
  /-- KILL (R348). -/
  | hostKill
  /-- CHECKPOINT (R348). -/
  | hostCheckpoint
  /-- LIFEREAD (R365). -/
  | liferead
  /-- ISLRESET (R348). -/
  | islreset
  /-- DOMAIN (R348). -/
  | hostDomain
  /-- RMA_WRITE (R346). -/
  | rmaWrite
  /-- RMA_READ (R346). -/
  | rmaRead
  /-- PEER_REQUEST (R345). -/
  | peerRequest
  /-- ISLAND_POWER_GOOD (R340). -/
  | islandPowerGood
  /-- ISLAND_BOOT_DONE (R340). -/
  | islandBootDone
  /-- DRAIN_END (R340). -/
  | drainEnd
  /-- ISLAND_RAIL_LOSS (R340). -/
  | islandRailLoss
  /-- HEARTBEAT_TIMEOUT (R339). -/
  | heartbeatTimeout
  /-- LINK_RESEND (R357). -/
  | linkResend
  /-- SPARE_LANE_SWITCH (R360). -/
  | spareLaneSwitch
  /-- INGEST_PACKET (R353). -/
  | ingestPacket
  /-- FRAME_DEADLINE (R354). -/
  | frameDeadline
  /-- EMPTY_FRAME (R355). -/
  | emptyFrame
  /-- CHECKPOINT_DONE (R356). -/
  | checkpointDone
  /-- CONTEXT_LOST_RECORD (R364). -/
  | contextLostRecord
  /-- PATROL_SCRUB (R359). -/
  | patrolScrub
  /-- LATE_EDGE_WINDOW (R361). -/
  | lateEdgeWindow
  /-- THERMAL_TRIP (R369). -/
  | thermalTrip
  /-- LIFE_FLUSH (R367). -/
  | lifeFlush
  /-- UNASSIGNED_ENCODING (R53). -/
  | unassignedEncoding
  /-- LINK_UP (R340). -/
  | linkUp
  /-- LINK_DOWN (R342). -/
  | linkDown
  /-- COMPUTE_RAIL_FAULT (R369). -/
  | computeRailFault
  /-- UNSUPPORTED_OPERATION (R346). -/
  | unsupportedOperation
  /-- LIFE_MINUTE (R366). -/
  | lifeMinute
deriving DecidableEq, Repr

end Sys2Proof
end

