-- ==== Sys2Proof/WellFormed.lean ====
section
/-!
DEFINITION. Which instructions are well formed: the checks of R53 on the values of fields (an element type,
a size or an ordering that the instruction permits, a lane or plane count in range, the rules for VCVT of R106
and for LNEST of R40 and R113).
-/
namespace Sys2Proof

/-- VCVT's B field (R106): a destination type other than the source type, a width ratio of at most 2, and no half
where the widths agree. -/
def vcvtOk (o : V3) : Bool :=
  match ETy.ofCode (o.b.extractLsb' 0 4) with
  | none => false
  | some t =>
    t != o.t && decide (t.bytes ≤ 2 * o.t.bytes) && decide (o.t.bytes ≤ 2 * t.bytes)
      && (t.bytes != o.t.bytes || o.b.getLsbD 4 == false)

/-- A level whose B stride is 0. -/
def Level.noB (l : Level) : Bool := l.stb == 0

/-- LNEST's fields (R40, R53, R113): one to five levels, a rounding field that is assigned and 0 for integer types,
and nothing in the fields of B where the operation does not use B. -/
def nestOk (o : Nest) : Bool :=
  decide (1 ≤ o.levels.length) && decide (o.levels.length ≤ 5)
    && o.rm != 5 && o.rm != 6 && (o.t.isFloat || o.rm == 0)
    && (o.op.usesB || (o.bb == 0 && o.scb == 0 && o.levels.all Level.noB))

-- BEGIN WF
/-- The checks on field values that R53 lists; reserved bits are checked by the decoder against the encoder. -/
def wellFormed : Instr → Bool
  | .add _ => true
  | .sub _ => true
  | .andR _ => true
  | .orR _ => true
  | .xorR _ => true
  | .andn _ => true
  | .shl _ => true
  | .shr _ => true
  | .sra _ => true
  | .rol _ => true
  | .mul _ => true
  | .mulhS _ => true
  | .mulhN _ => true
  | .divS _ => true
  | .divN _ => true
  | .remS _ => true
  | .remN _ => true
  | .minS _ => true
  | .minN _ => true
  | .maxS _ => true
  | .maxN _ => true
  | .clz _ => true
  | .ctz _ => true
  | .popc _ => true
  | .bswap _ => true
  | .sel _ => true
  | .cmpEq _ => true
  | .cmpNe _ => true
  | .cmpLt _ => true
  | .cmpGe _ => true
  | .cmpLtn _ => true
  | .cmpGen _ => true
  | .sext _ => true
  | .zext _ => true
  | .bfx _ => true
  | .bfi _ => true
  | .xyadd _ => true
  | .addi _ => true
  | .andi _ => true
  | .ori _ => true
  | .xori _ => true
  | .shli _ => true
  | .shri _ => true
  | .srai _ => true
  | .cmpiLt _ => true
  | .cmpiEq _ => true
  | .muli _ => true
  | .li _ => true
  | .lih _ => true
  | .la _ => true
  | .xy _ => true
  | .branch _ => true
  | .call _ => true
  | .bz _ => true
  | .bnz _ => true
  | .bl _ => true
  | .calll _ => true
  | .br _ => true
  | .callr _ => true
  | .ret _ => true
  | .loop _ => true
  | .nop _ => true
  | .bmAny _ => true
  | .bmAll _ => true
  | .bmNone _ => true
  | .mand _ => true
  | .mor _ => true
  | .mxor _ => true
  | .mandn _ => true
  | .mnot _ => true
  | .mmov _ => true
  | .mset _ => true
  | .mget _ => true
  | .mpopc _ => true
  | .mfirst _ => true
  | .ld o => o.o != .release
  | .st o => o.o != .acquire
  | .ldv o => o.o == .plain || o.o == .acquire
  | .stv o => o.o == .plain || o.o == .release
  | .ldf o => o.o == .acquire || o.o == .seqcst
  | .ldt o => o.o == .acquire || o.o == .seqcst
  | .stf o => o.o == .release || o.o == .seqcst
  | .stw o => o.o == .release || o.o == .seqcst
  | .fee _ => true
  | .feq o => o.o != .release
  | .amoAdd _ => true
  | .amoAnd _ => true
  | .amoOr _ => true
  | .amoXor _ => true
  | .amoMinS _ => true
  | .amoMinN _ => true
  | .amoMaxS _ => true
  | .amoMaxN _ => true
  | .amoSwap _ => true
  | .amoFadd _ => true
  | .cas _ => true
  | .fence o => o.o != .plain
  | .pref _ => true
  | .stc o => o.o == .plain || o.o == .release
  | .ldx o => o.o == .plain || o.o == .acquire
  | .vadd o => !o.t.isFloat
  | .vsub o => !o.t.isFloat
  | .vadds o => !o.t.isFloat
  | .vsubs o => !o.t.isFloat
  | .vmul o => !o.t.isFloat
  | .vmulh o => !o.t.isFloat
  | .vmin o => !o.t.isFloat
  | .vmax o => !o.t.isFloat
  | .vabs o => !o.t.isFloat
  | .vneg o => !o.t.isFloat
  | .vand _ => true
  | .vor _ => true
  | .vxor _ => true
  | .vandn _ => true
  | .vshl o => !o.t.isFloat
  | .vshr o => !o.t.isFloat
  | .vsra o => o.t.isSigned
  | .vsel _ => true
  | .vcmpEq o => !o.t.isFloat
  | .vcmpNe o => !o.t.isFloat
  | .vcmpLt o => !o.t.isFloat
  | .vcmpLe o => !o.t.isFloat
  | .vavg o => !o.t.isFloat
  | .vdot o => o.t.isNarrowInt
  | .vfadd o => o.t.isFloat
  | .vfsub o => o.t.isFloat
  | .vfmul o => o.t.isFloat
  | .vfma o => o.t.isFloat
  | .vfms o => o.t.isFloat
  | .vfmin o => o.t.isFloat
  | .vfmax o => o.t.isFloat
  | .vfabs o => o.t.isFloat
  | .vfneg o => o.t.isFloat
  | .vfcmpEq o => o.t.isFloat
  | .vfcmpLt o => o.t.isFloat
  | .vfcmpLe o => o.t.isFloat
  | .vfcmpUn o => o.t.isFloat
  | .vrcp o => o.t.isFloat
  | .vrsq o => o.t.isFloat
  | .vsqrt o => o.t.isFloat
  | .vexp2 o => o.t.isFloat
  | .vlog2 o => o.t.isFloat
  | .vcvt o => vcvtOk o
  | .vqnt o => o.t.isFloat
  | .vplane o => o.t.isNarrowInt && decide (o.n.toNat < o.t.bits)
  | .vunplane o => o.t.isNarrowInt && decide (o.n.toNat < o.t.bits)
  | .vmov _ => true
  | .vperm _ => true
  | .vcompress _ => true
  | .vexpand _ => true
  | .vzip _ => true
  | .vunzip _ => true
  | .vslide _ => true
  | .vredadd o => !o.t.isFloat
  | .vredmin o => !o.t.isFloat
  | .vredmax o => !o.t.isFloat
  | .vbcast _ => true
  | .vext o => decide (o.l.toNat < o.t.lanes)
  | .vins o => decide (o.l.toNat < o.t.lanes)
  | .vfredadd o => o.t.isFloat
  | .vfredmax o => o.t.isFloat
  | .vfredmin o => o.t.isFloat
  | .lnest o => nestOk o
  | .send _ => true
  | .sendk _ => true
  | .park _ => true
  | .resume _ => true
  | .tend _ => true
  | .taskset _ => true
  | .taskrd _ => true
  | .join _ => true
  | .leave _ => true
  | .gbar _ => true
  | .gmax _ => true
  | .nalloc _ => true
  | .nkill _ => true
  | .link _ => true
  | .relink _ => true
  | .nseal _ => true
  | .ntype _ => true
  | .tref _ => true
  | .tdrop _ => true
  | .wlinit _ => true
  | .wlpush _ => true
  | .wlinsu _ => true
  | .wlpopb _ => true
  | .wlcount _ => true
  | .wldrain _ => true
  | .copy _ => true
  | .copyr _ => true
  | .waitany _ => true
  | .waitall _ => true
  | .tagff _ => true
  | .tagclr _ => true
  | .subscribe _ => true
  | .unsub _ => true
  | .ringpop _ => true
  | .ringrel _ => true
  | .gather _ => true
  | .scatter _ => true
  | .mxmap _ => true
  | .mxa _ => true
  | .mxb _ => true
  | .mxskip _ => true
  | .mxrun _ => true
  | .mxscale _ => true
  | .mxsend _ => true
  | .mxstat _ => true
  | .mxcap _ => true
  | .dxenc _ => true
  | .dxdec _ => true
  | .dxadd _ => true
  | .dxsub _ => true
  | .dxin _ => true
  | .dxnext _ => true
  | .dxsplit _ => true
  | .dxlev _ => true
  | .dxcell _ => true
  | .dxcmp _ => true
  | .trap _ => true
  | .tret _ => true
  | .csrr _ => true
  | .csrw _ => true
  | .csrx _ => true
  | .csrs _ => true
  | .csrc _ => true
  | .brk _ => true
  | .jrnl _ => true
  | .icinv _ => true
  | .tlbinv _ => true
  | .repart _ => true
  | .killj _ => true
  | .cancelj _ => true
  | .stcScanStep => true
  | .lnestStep => true
  | .parkAtHome => true
  | .resumeAtHome => true
  | .tasksetAtTarget => true
  | .groupArrival => true
  | .nkillAtHome => true
  | .relinkAtHome => true
  | .nsealAtHome => true
  | .netReady => true
  | .pairEnqueueRetry => true
  | .ligatureTakePair => true
  | .netJoin => true
  | .netBind => true
  | .netRedirect => true
  | .netSettle => true
  | .wlinitAtHome => true
  | .wlpushAtHome => true
  | .wlinsuAtHome => true
  | .wlpopbAtHome => true
  | .wlPopRetry => true
  | .wlParkRequest => true
  | .wldrainAtHome => true
  | .wlSpillMove => true
  | .tagWaitRetest => true
  | .engineCommandLeave => true
  | .copyChunk => true
  | .subscriptionStart => true
  | .feedTilePlace => true
  | .feedRelease => true
  | .unsubArrive => true
  | .gatherWindow => true
  | .gatherSystemSwitch => true
  | .mxmapTableStep => true
  | .mxscaleStep => true
  | .mxmapPerform => true
  | .mxbPerform => true
  | .mxaPerform => true
  | .mxrunPerform => true
  | .mxCommandWindow => true
  | .mxEngineFail => true
  | .repartApply => true
  | .killjComplete => true
  | .cancelArrive => true
  | .canceljComplete => true
  | .invalidateComplete => true
  | .longResultReturn => true
  | .fallibleOpFault => true
  | .markerWaitEnd => true
  | .journalLeave => true
  | .journalAccept => true
  | .journalRefuse => true
  | .homeAccess => true
  | .markClear => true
  | .implicitReleaseRequest => true
  | .feRetry => true
  | .feParkRequest => true
  | .feNoRoom => true
  | .feWake => true
  | .poolRetry => true
  | .messageArrive => true
  | .messageRetry => true
  | .dispatchMessage => true
  | .dispatchRecreation => true
  | .dispatchWake => true
  | .watchdog => true
  | .preempt => true
  | .continuationResultFill => true
  | .icacheFill => true
  | .codePageVerify => true
  | .pageWalk => true
  | .walkerGrant => true
  | .csrWrite => true
  | .fcsrWrite => true
  | .rndseedWrite => true
  | .loopCsrWrite => true
  | .tagsWrite => true
  | .ptrootWrite => true
  | .jobgenGen => true
  | .jobgenFree => true
  | .capkeyWrite => true
  | .thaw => true
  | .quiesce => true
  | .switchOut => true
  | .switchIn => true
  | .releaseJob => true
  | .abortSwitch => true
  | .holdArrive => true
  | .quiesced => true
  | .switchOutSaveDone => true
  | .inboxDeliver => true
  | .attachRing => true
  | .hostReply => true
  | .openStream => true
  | .closeStream => true
  | .ckpt => true
  | .freeEntry => true
  | .hostStatus => true
  | .hostPower => true
  | .creset => true
  | .hostQuote => true
  | .fwload => true
  | .hostLaunch => true
  | .hostCancel => true
  | .hostKill => true
  | .hostCheckpoint => true
  | .liferead => true
  | .islreset => true
  | .hostDomain => true
  | .rmaWrite => true
  | .rmaRead => true
  | .peerRequest => true
  | .islandPowerGood => true
  | .islandBootDone => true
  | .drainEnd => true
  | .islandRailLoss => true
  | .heartbeatTimeout => true
  | .linkResend => true
  | .spareLaneSwitch => true
  | .ingestPacket => true
  | .frameDeadline => true
  | .emptyFrame => true
  | .checkpointDone => true
  | .contextLostRecord => true
  | .patrolScrub => true
  | .lateEdgeWindow => true
  | .thermalTrip => true
  | .lifeFlush => true
  | .unassignedEncoding => true
  | .linkUp => true
  | .linkDown => true
  | .computeRailFault => true
  | .unsupportedOperation => true
  | .lifeMinute => true
-- END WF

end Sys2Proof
end

