-- ==== Sys2Proof/Decode.lean ====
section
/-!
DEFINITION. The encodings of R31-R53: the formats as words, the fields of a word, the decoder and the encoder.
The decoder reads the fields, and refuses what R53 calls unassigned: a value that the instruction does not permit
(`wellFormed`), and any bit that the encoding of what it has read does not have (a reserved bit, or a field that the
instruction does not use). A refusal names the index of the first offending word.
-/
namespace Sys2Proof

/-! The formats of R34, from the highest bit down. -/

/-- Format RR, and the first word of format L (R34, R39). -/
def wRR (s : Bool) (maj d a b : BitVec 6) (fn : BitVec 7) : IWord :=
  BitVec.ofBool s ++ maj ++ d ++ a ++ b ++ fn

/-- Format RI (R34). -/
def wRI (s : Bool) (maj d a : BitVec 6) (i : BitVec 13) : IWord := BitVec.ofBool s ++ maj ++ d ++ a ++ i

/-- Format J (R34). -/
def wJ (s : Bool) (maj : BitVec 6) (o : BitVec 25) : IWord := BitVec.ofBool s ++ maj ++ o

/-- Format C (R34). -/
def wC (s : Bool) (maj a : BitVec 6) (o : BitVec 19) : IWord := BitVec.ofBool s ++ maj ++ a ++ o

/-- Format BM (R34). -/
def wBM (s : Bool) (maj : BitVec 6) (cond m : BitVec 3) (o : BitVec 19) : IWord :=
  BitVec.ofBool s ++ maj ++ cond ++ m ++ o

/-- Format K (R34): A, B, D from the top. -/
def wK (s : Bool) (maj a b d : BitVec 6) (fn : BitVec 7) : IWord :=
  BitVec.ofBool s ++ maj ++ a ++ b ++ d ++ fn

/-- Format M (R34). -/
def wM (s : Bool) (maj d a : BitVec 6) (o : BitVec 2) (z : BitVec 3) (p : BitVec 8) : IWord :=
  BitVec.ofBool s ++ maj ++ d ++ a ++ o ++ z ++ p

/-- Format V (R34). -/
def wV (s : Bool) (maj : BitVec 6) (d a b : BitVec 5) (m : BitVec 3) (t : BitVec 4) (fn : BitVec 3) : IWord :=
  BitVec.ofBool s ++ maj ++ d ++ a ++ b ++ m ++ t ++ fn

/-- Format VG (R34). -/
def wVG (s : Bool) (maj : BitVec 6) (d : BitVec 5) (g : BitVec 6) (l : BitVec 4) (m : BitVec 3) (t : BitVec 4)
    (fn : BitVec 3) : IWord :=
  BitVec.ofBool s ++ maj ++ d ++ g ++ l ++ m ++ t ++ fn

/-! Format N (R40). -/

/-- The 41 bits of one level of a nest (R40). -/
def Level.bits (l : Level) : BitVec 41 := l.ext ++ l.sta ++ l.stb ++ l.std

/-- Level `j` of a nest as bits; a level at or above LV is reserved and 0. -/
def Nest.levelBits (n : Nest) (j : Nat) : BitVec 41 :=
  match n.levels[j]? with
  | some l => l.bits
  | none => 0

/-- The first word of LNEST (R40). -/
def Nest.word0 (n : Nest) : IWord :=
  BitVec.ofBool n.s ++ 0x3F#6 ++ n.op.code ++ n.t.code ++ BitVec.ofNat 3 n.levels.length ++ n.m ++ n.rm
    ++ n.sca ++ n.scb ++ n.scd

/-- The 256 bits of LNEST (R40). -/
def Nest.bits (n : Nest) : BitVec 256 :=
  n.bd ++ n.ba ++ n.bb ++ 0#1 ++ n.levelBits 4 ++ n.levelBits 3 ++ n.levelBits 2 ++ n.levelBits 1
    ++ n.levelBits 0 ++ n.word0

/-- The eight words of LNEST: word `k` holds bits `32 k + 31 : 32 k` (R31). -/
def Nest.words (n : Nest) : List IWord :=
  [0, 1, 2, 3, 4, 5, 6, 7].map fun k => n.bits.extractLsb' (32 * k) 32

/-! The fields of a word. -/

/-- Bits `lo + n - 1 : lo` of an instruction word. -/
def fld (w : IWord) (lo n : Nat) : BitVec n := w.extractLsb' lo n

/-- The switch marker (R32). -/
def sBit (w : IWord) : Bool := w.getLsbD 31

def R3.ofWord (w : IWord) : R3 := ⟨sBit w, fld w 19 6, fld w 13 6, fld w 7 6⟩
def R2.ofWord (w : IWord) : R2 := ⟨sBit w, fld w 19 6, fld w 13 6⟩
def RI.ofWord (w : IWord) : RI := ⟨sBit w, fld w 19 6, fld w 13 6, fld w 0 13⟩
def RS.ofWord (w : IWord) : RS := ⟨sBit w, fld w 19 6, fld w 13 6, fld w 0 6⟩
def JF.ofWord (w : IWord) : JF := ⟨sBit w, fld w 0 25⟩
def CF.ofWord (w : IWord) : CF := ⟨sBit w, fld w 19 6, fld w 0 19⟩
def BF.ofWord (w : IWord) : BF := ⟨sBit w, fld w 19 3, fld w 0 19⟩
def K0.ofWord (w : IWord) : K0 := ⟨sBit w⟩
def KA.ofWord (w : IWord) : KA := ⟨sBit w, fld w 19 6⟩
def KAB.ofWord (w : IWord) : KAB := ⟨sBit w, fld w 19 6, fld w 13 6⟩
def KAD.ofWord (w : IWord) : KAD := ⟨sBit w, fld w 19 6, fld w 7 6⟩
def KABD.ofWord (w : IWord) : KABD := ⟨sBit w, fld w 19 6, fld w 13 6, fld w 7 6⟩
def KADO.ofWord (w : IWord) : KADO := ⟨sBit w, fld w 19 6, fld w 7 6, MOrd.ofCode (fld w 5 2)⟩
def KABDO.ofWord (w : IWord) : KABDO :=
  ⟨sBit w, fld w 19 6, fld w 13 6, fld w 7 6, MOrd.ofCode (fld w 5 2)⟩
def M3.ofWord (w : IWord) : M3 := ⟨sBit w, fld w 19 3, fld w 13 3, fld w 7 3⟩
def M2.ofWord (w : IWord) : M2 := ⟨sBit w, fld w 19 3, fld w 7 3⟩
def MSetF.ofWord (w : IWord) : MSetF := ⟨sBit w, fld w 19 6, fld w 7 3⟩
def MGetF.ofWord (w : IWord) : MGetF := ⟨sBit w, fld w 19 3, fld w 7 6⟩
def MemV.ofWord (w : IWord) : MemV := ⟨sBit w, fld w 19 5, fld w 13 6, MOrd.ofCode (fld w 11 2), fld w 0 8⟩
def MemW.ofWord (w : IWord) : MemW := ⟨sBit w, fld w 19 6, fld w 13 6, MOrd.ofCode (fld w 11 2), fld w 0 8⟩
def KPush.ofWord (w : IWord) : KPush := ⟨sBit w, fld w 19 6, fld w 13 6, fld w 7 1⟩
def KSkip.ofWord (w : IWord) : KSkip := ⟨sBit w, fld w 19 6, fld w 13 6, fld w 7 2⟩
def KRun.ofWord (w : IWord) : KRun := ⟨sBit w, fld w 19 6, fld w 7 2⟩
def KTrap.ofWord (w : IWord) : KTrap := ⟨sBit w, fld w 19 6, fld w 7 6⟩
def KBrk.ofWord (w : IWord) : KBrk := ⟨sBit w, fld w 7 6⟩
def KCsr.ofWord (w : IWord) : KCsr := ⟨sBit w, fld w 13 12, fld w 7 6⟩

/-- LD and ST; the sizes they do not permit are unassigned (R148). -/
def MemF.ofWord (w : IWord) : Option MemF :=
  (Size.ofCode (fld w 8 3)).map fun z =>
    ⟨sBit w, fld w 19 6, fld w 13 6, MOrd.ofCode (fld w 11 2), z, fld w 0 8⟩

/-- FENCE; a scope above 2 is unassigned (R51). -/
def KFence.ofWord (w : IWord) : Option KFence :=
  (FScope.ofCode (fld w 7 6)).map fun c => ⟨sBit w, c, MOrd.ofCode (fld w 5 2)⟩

def V3.ofWord (w : IWord) : Option V3 :=
  (ETy.ofCode (fld w 3 4)).map fun t => ⟨sBit w, fld w 20 5, fld w 15 5, fld w 10 5, fld w 7 3, t⟩
def V2.ofWord (w : IWord) : Option V2 :=
  (ETy.ofCode (fld w 3 4)).map fun t => ⟨sBit w, fld w 20 5, fld w 15 5, fld w 7 3, t⟩
def VC.ofWord (w : IWord) : Option VC :=
  (ETy.ofCode (fld w 3 4)).map fun t => ⟨sBit w, fld w 20 3, fld w 15 5, fld w 10 5, fld w 7 3, t⟩
def VP.ofWord (w : IWord) : Option VP :=
  (ETy.ofCode (fld w 3 4)).map fun t => ⟨sBit w, fld w 20 5, fld w 15 5, fld w 10 4, fld w 7 3, t⟩
def VG.ofWord (w : IWord) : Option VG :=
  (ETy.ofCode (fld w 3 4)).map fun t => ⟨sBit w, fld w 20 5, fld w 14 6, fld w 7 3, t⟩
def VL.ofWord (w : IWord) : Option VL :=
  (ETy.ofCode (fld w 3 4)).map fun t => ⟨sBit w, fld w 20 5, fld w 14 6, fld w 10 4, t⟩

/-- The 256 bits of eight words, the first lowest (R31). -/
def joinWords : List IWord → BitVec 256
  | [] => 0
  | w :: ws => (joinWords ws <<< 32) ||| w.zeroExtend 256

/-- Level `j` of the 256 bits of a nest (R40). -/
def Level.ofBits (b : BitVec 256) (j : Nat) : Level :=
  ⟨b.extractLsb' (32 + 41 * j + 30) 11, b.extractLsb' (32 + 41 * j + 20) 10,
   b.extractLsb' (32 + 41 * j + 10) 10, b.extractLsb' (32 + 41 * j) 10⟩

/-- The fields of LNEST (R40); an operation or element type that is not assigned gives none. -/
def Nest.ofBits (b : BitVec 256) : Option Nest :=
  match NestOp.ofCode (b.extractLsb' 19 6), ETy.ofCode (b.extractLsb' 15 4) with
  | some op, some t =>
    some { s := b.getLsbD 31, op := op, t := t, m := b.extractLsb' 9 3, rm := b.extractLsb' 6 3,
           sca := b.extractLsb' 4 2, scb := b.extractLsb' 2 2, scd := b.extractLsb' 0 2,
           bd := b.extractLsb' 250 6, ba := b.extractLsb' 244 6, bb := b.extractLsb' 238 6,
           levels := (List.range (b.extractLsb' 12 3).toNat).map (Level.ofBits b) }
  | _, _ => none

/-- A nest with nothing in the fields of B, for an operation that does not use B (R113). -/
def Nest.dropB (n : Nest) : Nest :=
  if n.op.usesB then n
  else { n with bb := 0, scb := 0, levels := n.levels.map fun l => { l with stb := 0 } }

/-! The encoder. -/

-- BEGIN ENCODE
/-- The instruction words of an instruction (R31-R40, R50), `[]` for a step that no word encodes. -/
def encode : Instr → List IWord
  | .add o => [wRR o.s 0#6 o.d o.a o.b 1#7]
  | .sub o => [wRR o.s 0#6 o.d o.a o.b 2#7]
  | .andR o => [wRR o.s 0#6 o.d o.a o.b 3#7]
  | .orR o => [wRR o.s 0#6 o.d o.a o.b 4#7]
  | .xorR o => [wRR o.s 0#6 o.d o.a o.b 5#7]
  | .andn o => [wRR o.s 0#6 o.d o.a o.b 6#7]
  | .shl o => [wRR o.s 0#6 o.d o.a o.b 7#7]
  | .shr o => [wRR o.s 0#6 o.d o.a o.b 8#7]
  | .sra o => [wRR o.s 0#6 o.d o.a o.b 9#7]
  | .rol o => [wRR o.s 0#6 o.d o.a o.b 10#7]
  | .mul o => [wRR o.s 0#6 o.d o.a o.b 11#7]
  | .mulhS o => [wRR o.s 0#6 o.d o.a o.b 12#7]
  | .mulhN o => [wRR o.s 0#6 o.d o.a o.b 13#7]
  | .divS o => [wRR o.s 0#6 o.d o.a o.b 14#7]
  | .divN o => [wRR o.s 0#6 o.d o.a o.b 15#7]
  | .remS o => [wRR o.s 0#6 o.d o.a o.b 16#7]
  | .remN o => [wRR o.s 0#6 o.d o.a o.b 17#7]
  | .minS o => [wRR o.s 0#6 o.d o.a o.b 18#7]
  | .minN o => [wRR o.s 0#6 o.d o.a o.b 19#7]
  | .maxS o => [wRR o.s 0#6 o.d o.a o.b 20#7]
  | .maxN o => [wRR o.s 0#6 o.d o.a o.b 21#7]
  | .clz o => [wRR o.s 0#6 o.d o.a 0 22#7]
  | .ctz o => [wRR o.s 0#6 o.d o.a 0 23#7]
  | .popc o => [wRR o.s 0#6 o.d o.a 0 24#7]
  | .bswap o => [wRR o.s 0#6 o.d o.a 0 25#7]
  | .sel o => [wRR o.s 0#6 o.d o.a o.b 26#7]
  | .cmpEq o => [wRR o.s 0#6 o.d o.a o.b 27#7]
  | .cmpNe o => [wRR o.s 0#6 o.d o.a o.b 28#7]
  | .cmpLt o => [wRR o.s 0#6 o.d o.a o.b 29#7]
  | .cmpGe o => [wRR o.s 0#6 o.d o.a o.b 30#7]
  | .cmpLtn o => [wRR o.s 0#6 o.d o.a o.b 31#7]
  | .cmpGen o => [wRR o.s 0#6 o.d o.a o.b 32#7]
  | .sext o => [wRR o.s 0#6 o.d o.a o.b 33#7]
  | .zext o => [wRR o.s 0#6 o.d o.a o.b 34#7]
  | .bfx o => [wRR o.s 0#6 o.d o.a o.b 35#7]
  | .bfi o => [wRR o.s 0#6 o.d o.a o.b 36#7]
  | .xyadd o => [wRR o.s 0#6 o.d o.a o.b 37#7]
  | .addi o => [wRI o.s 1#6 o.d o.a o.i]
  | .andi o => [wRI o.s 2#6 o.d o.a o.i]
  | .ori o => [wRI o.s 3#6 o.d o.a o.i]
  | .xori o => [wRI o.s 4#6 o.d o.a o.i]
  | .shli o => [wRI o.s 5#6 o.d o.a (0#7 ++ o.i)]
  | .shri o => [wRI o.s 6#6 o.d o.a (0#7 ++ o.i)]
  | .srai o => [wRI o.s 7#6 o.d o.a (0#7 ++ o.i)]
  | .cmpiLt o => [wRI o.s 8#6 o.d o.a o.i]
  | .cmpiEq o => [wRI o.s 9#6 o.d o.a o.i]
  | .muli o => [wRI o.s 10#6 o.d o.a o.i]
  | .li o => [wRR o.s 0x3E#6 o.d 0 0 1#7, o.i]
  | .lih o => [wRR o.s 0x3E#6 o.d o.a 0 2#7, o.i]
  | .la o => [wRR o.s 0x3E#6 o.d 0 0 3#7, o.i]
  | .xy o => [wRR o.s 0x3E#6 o.d o.a 0 4#7, 0#17 ++ o.f]
  | .branch o => [wJ o.s 16#6 o.o]
  | .call o => [wJ o.s 17#6 o.o]
  | .bz o => [wC o.s 18#6 o.a o.o]
  | .bnz o => [wC o.s 19#6 o.a o.o]
  | .bl o => [wRR o.s 0x3E#6 0 0 0 5#7, o.i]
  | .calll o => [wRR o.s 0x3E#6 0 0 0 6#7, o.i]
  | .br o => [wK o.s 21#6 o.a 0 0 1#7]
  | .callr o => [wK o.s 21#6 o.a 0 0 2#7]
  | .ret o => [wK o.s 21#6 0 0 0 3#7]
  | .loop o => [wK o.s 21#6 o.a o.b 0 4#7]
  | .nop o => [wK o.s 21#6 0 0 0 5#7]
  | .bmAny o => [wBM o.s 20#6 0#3 o.m o.o]
  | .bmAll o => [wBM o.s 20#6 1#3 o.m o.o]
  | .bmNone o => [wBM o.s 20#6 2#3 o.m o.o]
  | .mand o => [wK o.s 22#6 (0#3 ++ o.a) (0#3 ++ o.b) (0#3 ++ o.d) 1#7]
  | .mor o => [wK o.s 22#6 (0#3 ++ o.a) (0#3 ++ o.b) (0#3 ++ o.d) 2#7]
  | .mxor o => [wK o.s 22#6 (0#3 ++ o.a) (0#3 ++ o.b) (0#3 ++ o.d) 3#7]
  | .mandn o => [wK o.s 22#6 (0#3 ++ o.a) (0#3 ++ o.b) (0#3 ++ o.d) 4#7]
  | .mnot o => [wK o.s 22#6 (0#3 ++ o.a) 0 (0#3 ++ o.d) 5#7]
  | .mmov o => [wK o.s 22#6 (0#3 ++ o.a) 0 (0#3 ++ o.d) 6#7]
  | .mset o => [wK o.s 22#6 o.a 0 (0#3 ++ o.d) 7#7]
  | .mget o => [wK o.s 22#6 (0#3 ++ o.a) 0 o.d 8#7]
  | .mpopc o => [wK o.s 22#6 (0#3 ++ o.a) 0 o.d 9#7]
  | .mfirst o => [wK o.s 22#6 (0#3 ++ o.a) 0 o.d 10#7]
  | .ld o => [wM o.s 24#6 o.d o.a o.o.code o.z.code o.p]
  | .st o => [wM o.s 25#6 o.d o.a o.o.code o.z.code o.p]
  | .ldv o => [wM o.s 26#6 (0#1 ++ o.d) o.a o.o.code 4#3 o.p]
  | .stv o => [wM o.s 27#6 (0#1 ++ o.d) o.a o.o.code 4#3 o.p]
  | .ldf o => [wM o.s 28#6 o.d o.a o.o.code 3#3 o.p]
  | .ldt o => [wM o.s 29#6 o.d o.a o.o.code 3#3 o.p]
  | .stf o => [wM o.s 30#6 o.d o.a o.o.code 3#3 o.p]
  | .stw o => [wM o.s 31#6 o.d o.a o.o.code 3#3 o.p]
  | .fee o => [wK o.s 32#6 o.a 0 o.d (o.o.code ++ 1#5)]
  | .feq o => [wK o.s 32#6 o.a 0 o.d (o.o.code ++ 2#5)]
  | .amoAdd o => [wK o.s 32#6 o.a o.b o.d (o.o.code ++ 3#5)]
  | .amoAnd o => [wK o.s 32#6 o.a o.b o.d (o.o.code ++ 4#5)]
  | .amoOr o => [wK o.s 32#6 o.a o.b o.d (o.o.code ++ 5#5)]
  | .amoXor o => [wK o.s 32#6 o.a o.b o.d (o.o.code ++ 6#5)]
  | .amoMinS o => [wK o.s 32#6 o.a o.b o.d (o.o.code ++ 7#5)]
  | .amoMinN o => [wK o.s 32#6 o.a o.b o.d (o.o.code ++ 8#5)]
  | .amoMaxS o => [wK o.s 32#6 o.a o.b o.d (o.o.code ++ 9#5)]
  | .amoMaxN o => [wK o.s 32#6 o.a o.b o.d (o.o.code ++ 10#5)]
  | .amoSwap o => [wK o.s 32#6 o.a o.b o.d (o.o.code ++ 11#5)]
  | .amoFadd o => [wK o.s 32#6 o.a o.b o.d (o.o.code ++ 12#5)]
  | .cas o => [wK o.s 32#6 o.a o.b o.d (o.o.code ++ 13#5)]
  | .fence o => [wK o.s 32#6 0 0 o.c.code (o.o.code ++ 14#5)]
  | .pref o => [wK o.s 32#6 o.a 0 0 15#7]
  | .stc o => [wK o.s 32#6 o.a o.b o.d (o.o.code ++ 16#5)]
  | .ldx o => [wK o.s 32#6 o.a o.b o.d (o.o.code ++ 17#5)]
  | .vadd o => [wV o.s 34#6 o.d o.a o.b o.m o.t.code 0#3]
  | .vsub o => [wV o.s 34#6 o.d o.a o.b o.m o.t.code 1#3]
  | .vadds o => [wV o.s 34#6 o.d o.a o.b o.m o.t.code 2#3]
  | .vsubs o => [wV o.s 34#6 o.d o.a o.b o.m o.t.code 3#3]
  | .vmul o => [wV o.s 34#6 o.d o.a o.b o.m o.t.code 4#3]
  | .vmulh o => [wV o.s 34#6 o.d o.a o.b o.m o.t.code 5#3]
  | .vmin o => [wV o.s 34#6 o.d o.a o.b o.m o.t.code 6#3]
  | .vmax o => [wV o.s 34#6 o.d o.a o.b o.m o.t.code 7#3]
  | .vabs o => [wV o.s 35#6 o.d o.a 0 o.m o.t.code 0#3]
  | .vneg o => [wV o.s 35#6 o.d o.a 0 o.m o.t.code 1#3]
  | .vand o => [wV o.s 35#6 o.d o.a o.b o.m o.t.code 2#3]
  | .vor o => [wV o.s 35#6 o.d o.a o.b o.m o.t.code 3#3]
  | .vxor o => [wV o.s 35#6 o.d o.a o.b o.m o.t.code 4#3]
  | .vandn o => [wV o.s 35#6 o.d o.a o.b o.m o.t.code 5#3]
  | .vshl o => [wV o.s 35#6 o.d o.a o.b o.m o.t.code 6#3]
  | .vshr o => [wV o.s 35#6 o.d o.a o.b o.m o.t.code 7#3]
  | .vsra o => [wV o.s 36#6 o.d o.a o.b o.m o.t.code 0#3]
  | .vsel o => [wV o.s 36#6 o.d o.a o.b o.m o.t.code 1#3]
  | .vcmpEq o => [wV o.s 36#6 (0#2 ++ o.d) o.a o.b o.m o.t.code 2#3]
  | .vcmpNe o => [wV o.s 36#6 (0#2 ++ o.d) o.a o.b o.m o.t.code 3#3]
  | .vcmpLt o => [wV o.s 36#6 (0#2 ++ o.d) o.a o.b o.m o.t.code 4#3]
  | .vcmpLe o => [wV o.s 36#6 (0#2 ++ o.d) o.a o.b o.m o.t.code 5#3]
  | .vavg o => [wV o.s 36#6 o.d o.a o.b o.m o.t.code 6#3]
  | .vdot o => [wV o.s 36#6 o.d o.a o.b o.m o.t.code 7#3]
  | .vfadd o => [wV o.s 37#6 o.d o.a o.b o.m o.t.code 0#3]
  | .vfsub o => [wV o.s 37#6 o.d o.a o.b o.m o.t.code 1#3]
  | .vfmul o => [wV o.s 37#6 o.d o.a o.b o.m o.t.code 2#3]
  | .vfma o => [wV o.s 37#6 o.d o.a o.b o.m o.t.code 3#3]
  | .vfms o => [wV o.s 37#6 o.d o.a o.b o.m o.t.code 4#3]
  | .vfmin o => [wV o.s 37#6 o.d o.a o.b o.m o.t.code 5#3]
  | .vfmax o => [wV o.s 37#6 o.d o.a o.b o.m o.t.code 6#3]
  | .vfabs o => [wV o.s 37#6 o.d o.a 0 o.m o.t.code 7#3]
  | .vfneg o => [wV o.s 38#6 o.d o.a 0 o.m o.t.code 0#3]
  | .vfcmpEq o => [wV o.s 38#6 (0#2 ++ o.d) o.a o.b o.m o.t.code 1#3]
  | .vfcmpLt o => [wV o.s 38#6 (0#2 ++ o.d) o.a o.b o.m o.t.code 2#3]
  | .vfcmpLe o => [wV o.s 38#6 (0#2 ++ o.d) o.a o.b o.m o.t.code 3#3]
  | .vfcmpUn o => [wV o.s 38#6 (0#2 ++ o.d) o.a o.b o.m o.t.code 4#3]
  | .vrcp o => [wV o.s 38#6 o.d o.a 0 o.m o.t.code 5#3]
  | .vrsq o => [wV o.s 38#6 o.d o.a 0 o.m o.t.code 6#3]
  | .vsqrt o => [wV o.s 38#6 o.d o.a 0 o.m o.t.code 7#3]
  | .vexp2 o => [wV o.s 39#6 o.d o.a 0 o.m o.t.code 0#3]
  | .vlog2 o => [wV o.s 39#6 o.d o.a 0 o.m o.t.code 1#3]
  | .vcvt o => [wV o.s 39#6 o.d o.a o.b o.m o.t.code 2#3]
  | .vqnt o => [wV o.s 39#6 o.d o.a o.b o.m o.t.code 3#3]
  | .vplane o => [wV o.s 39#6 o.d o.a (0#1 ++ o.n) o.m o.t.code 4#3]
  | .vunplane o => [wV o.s 39#6 o.d o.a (0#1 ++ o.n) o.m o.t.code 5#3]
  | .vmov o => [wV o.s 39#6 o.d o.a 0 o.m o.t.code 6#3]
  | .vperm o => [wV o.s 39#6 o.d o.a o.b o.m o.t.code 7#3]
  | .vcompress o => [wV o.s 40#6 o.d o.a 0 o.m o.t.code 0#3]
  | .vexpand o => [wV o.s 40#6 o.d o.a 0 o.m o.t.code 1#3]
  | .vzip o => [wV o.s 40#6 o.d o.a o.b o.m o.t.code 2#3]
  | .vunzip o => [wV o.s 40#6 o.d o.a o.b o.m o.t.code 3#3]
  | .vslide o => [wV o.s 40#6 o.d o.a o.b o.m o.t.code 4#3]
  | .vredadd o => [wV o.s 40#6 o.d o.a 0 o.m o.t.code 5#3]
  | .vredmin o => [wV o.s 40#6 o.d o.a 0 o.m o.t.code 6#3]
  | .vredmax o => [wV o.s 40#6 o.d o.a 0 o.m o.t.code 7#3]
  | .vbcast o => [wVG o.s 41#6 o.d o.g 0 o.m o.t.code 0#3]
  | .vext o => [wVG o.s 41#6 o.d o.g o.l 0 o.t.code 1#3]
  | .vins o => [wVG o.s 41#6 o.d o.g o.l 0 o.t.code 2#3]
  | .vfredadd o => [wVG o.s 41#6 o.d o.g 0 o.m o.t.code 3#3]
  | .vfredmax o => [wVG o.s 41#6 o.d o.g 0 o.m o.t.code 4#3]
  | .vfredmin o => [wVG o.s 41#6 o.d o.g 0 o.m o.t.code 5#3]
  | .lnest o => o.words
  | .send o => [wK o.s 46#6 o.a o.b 0 1#7]
  | .sendk o => [wK o.s 46#6 o.a o.b o.d 2#7]
  | .park o => [wK o.s 46#6 o.a o.b o.d 3#7]
  | .resume o => [wK o.s 46#6 o.a o.b 0 4#7]
  | .tend o => [wK o.s 46#6 0 0 0 5#7]
  | .taskset o => [wK o.s 46#6 o.a o.b o.d 6#7]
  | .taskrd o => [wK o.s 46#6 o.a 0 o.d 7#7]
  | .join o => [wK o.s 46#6 o.a 0 o.d 8#7]
  | .leave o => [wK o.s 46#6 o.a 0 o.d 9#7]
  | .gbar o => [wK o.s 46#6 o.a 0 o.d 10#7]
  | .gmax o => [wK o.s 46#6 o.a o.b o.d 11#7]
  | .nalloc o => [wK o.s 48#6 o.a 0 o.d 1#7]
  | .nkill o => [wK o.s 48#6 o.a 0 0 2#7]
  | .link o => [wK o.s 48#6 o.a o.b 0 3#7]
  | .relink o => [wK o.s 48#6 o.a o.b 0 4#7]
  | .nseal o => [wK o.s 48#6 o.a 0 0 5#7]
  | .ntype o => [wK o.s 48#6 o.a 0 o.d 6#7]
  | .tref o => [wK o.s 48#6 o.a 0 o.d 7#7]
  | .tdrop o => [wK o.s 48#6 o.a 0 o.d 8#7]
  | .wlinit o => [wK o.s 49#6 o.a 0 0 1#7]
  | .wlpush o => [wK o.s 49#6 o.a o.b (0#5 ++ o.w) 2#7]
  | .wlinsu o => [wK o.s 49#6 o.a o.b o.d 3#7]
  | .wlpopb o => [wK o.s 49#6 o.a o.b o.d 4#7]
  | .wlcount o => [wK o.s 49#6 o.a 0 o.d 5#7]
  | .wldrain o => [wK o.s 49#6 o.a 0 0 6#7]
  | .copy o => [wK o.s 50#6 o.a o.b o.d 1#7]
  | .copyr o => [wK o.s 50#6 o.a 0 o.d 2#7]
  | .waitany o => [wK o.s 50#6 o.a 0 o.d 3#7]
  | .waitall o => [wK o.s 50#6 o.a 0 o.d 4#7]
  | .tagff o => [wK o.s 50#6 o.a 0 o.d 5#7]
  | .tagclr o => [wK o.s 50#6 o.a 0 0 6#7]
  | .subscribe o => [wK o.s 50#6 o.a o.b o.d 7#7]
  | .unsub o => [wK o.s 50#6 o.a 0 0 8#7]
  | .ringpop o => [wK o.s 50#6 o.a 0 o.d 9#7]
  | .ringrel o => [wK o.s 50#6 o.a 0 0 10#7]
  | .gather o => [wK o.s 50#6 o.a o.b o.d 11#7]
  | .scatter o => [wK o.s 50#6 o.a o.b o.d 12#7]
  | .mxmap o => [wK o.s 51#6 o.a o.b 0 1#7]
  | .mxa o => [wK o.s 51#6 o.a o.b 0 2#7]
  | .mxb o => [wK o.s 51#6 o.a 0 0 3#7]
  | .mxskip o => [wK o.s 51#6 o.a o.b (0#4 ++ o.d) 4#7]
  | .mxrun o => [wK o.s 51#6 o.a 0 (0#4 ++ o.d) 5#7]
  | .mxscale o => [wK o.s 51#6 o.a 0 0 6#7]
  | .mxsend o => [wK o.s 51#6 o.a o.b 0 7#7]
  | .mxstat o => [wK o.s 51#6 o.a 0 o.d 8#7]
  | .mxcap o => [wK o.s 51#6 o.a 0 o.d 9#7]
  | .dxenc o => [wK o.s 52#6 o.a o.b o.d 1#7]
  | .dxdec o => [wK o.s 52#6 o.a o.b o.d 2#7]
  | .dxadd o => [wK o.s 52#6 o.a o.b o.d 3#7]
  | .dxsub o => [wK o.s 52#6 o.a o.b o.d 4#7]
  | .dxin o => [wK o.s 52#6 o.a o.b o.d 5#7]
  | .dxnext o => [wK o.s 52#6 o.a o.b o.d 6#7]
  | .dxsplit o => [wK o.s 52#6 o.a o.b o.d 7#7]
  | .dxlev o => [wK o.s 52#6 o.a o.b o.d 8#7]
  | .dxcell o => [wK o.s 52#6 o.a o.b o.d 9#7]
  | .dxcmp o => [wK o.s 52#6 o.a o.b o.d 10#7]
  | .trap o => [wK o.s 60#6 o.a 0 o.c 1#7]
  | .tret o => [wK o.s 60#6 0 0 0 2#7]
  | .csrr o => [wK o.s 60#6 (o.c.extractLsb' 6 6) (o.c.extractLsb' 0 6) o.d 3#7]
  | .csrw o => [wK o.s 60#6 (o.c.extractLsb' 6 6) (o.c.extractLsb' 0 6) o.d 4#7]
  | .csrx o => [wK o.s 60#6 (o.c.extractLsb' 6 6) (o.c.extractLsb' 0 6) o.d 5#7]
  | .csrs o => [wK o.s 60#6 (o.c.extractLsb' 6 6) (o.c.extractLsb' 0 6) o.d 6#7]
  | .csrc o => [wK o.s 60#6 (o.c.extractLsb' 6 6) (o.c.extractLsb' 0 6) o.d 7#7]
  | .brk o => [wK o.s 60#6 0 0 o.c 8#7]
  | .jrnl o => [wK o.s 60#6 o.a 0 o.d 9#7]
  | .icinv o => [wK o.s 60#6 o.a o.b 0 10#7]
  | .tlbinv o => [wK o.s 60#6 o.a o.b 0 11#7]
  | .repart o => [wK o.s 60#6 o.a 0 0 12#7]
  | .killj o => [wK o.s 60#6 o.a 0 0 13#7]
  | .cancelj o => [wK o.s 60#6 o.a 0 0 14#7]
  | .stcScanStep => []
  | .lnestStep => []
  | .parkAtHome => []
  | .resumeAtHome => []
  | .tasksetAtTarget => []
  | .groupArrival => []
  | .nkillAtHome => []
  | .relinkAtHome => []
  | .nsealAtHome => []
  | .netReady => []
  | .pairEnqueueRetry => []
  | .ligatureTakePair => []
  | .netJoin => []
  | .netBind => []
  | .netRedirect => []
  | .netSettle => []
  | .wlinitAtHome => []
  | .wlpushAtHome => []
  | .wlinsuAtHome => []
  | .wlpopbAtHome => []
  | .wlPopRetry => []
  | .wlParkRequest => []
  | .wldrainAtHome => []
  | .wlSpillMove => []
  | .tagWaitRetest => []
  | .engineCommandLeave => []
  | .copyChunk => []
  | .subscriptionStart => []
  | .feedTilePlace => []
  | .feedRelease => []
  | .unsubArrive => []
  | .gatherWindow => []
  | .gatherSystemSwitch => []
  | .mxmapTableStep => []
  | .mxscaleStep => []
  | .mxmapPerform => []
  | .mxbPerform => []
  | .mxaPerform => []
  | .mxrunPerform => []
  | .mxCommandWindow => []
  | .mxEngineFail => []
  | .repartApply => []
  | .killjComplete => []
  | .cancelArrive => []
  | .canceljComplete => []
  | .invalidateComplete => []
  | .longResultReturn => []
  | .fallibleOpFault => []
  | .markerWaitEnd => []
  | .journalLeave => []
  | .journalAccept => []
  | .journalRefuse => []
  | .homeAccess => []
  | .markClear => []
  | .implicitReleaseRequest => []
  | .feRetry => []
  | .feParkRequest => []
  | .feNoRoom => []
  | .feWake => []
  | .poolRetry => []
  | .messageArrive => []
  | .messageRetry => []
  | .dispatchMessage => []
  | .dispatchRecreation => []
  | .dispatchWake => []
  | .watchdog => []
  | .preempt => []
  | .continuationResultFill => []
  | .icacheFill => []
  | .codePageVerify => []
  | .pageWalk => []
  | .walkerGrant => []
  | .csrWrite => []
  | .fcsrWrite => []
  | .rndseedWrite => []
  | .loopCsrWrite => []
  | .tagsWrite => []
  | .ptrootWrite => []
  | .jobgenGen => []
  | .jobgenFree => []
  | .capkeyWrite => []
  | .thaw => []
  | .quiesce => []
  | .switchOut => []
  | .switchIn => []
  | .releaseJob => []
  | .abortSwitch => []
  | .holdArrive => []
  | .quiesced => []
  | .switchOutSaveDone => []
  | .inboxDeliver => []
  | .attachRing => []
  | .hostReply => []
  | .openStream => []
  | .closeStream => []
  | .ckpt => []
  | .freeEntry => []
  | .hostStatus => []
  | .hostPower => []
  | .creset => []
  | .hostQuote => []
  | .fwload => []
  | .hostLaunch => []
  | .hostCancel => []
  | .hostKill => []
  | .hostCheckpoint => []
  | .liferead => []
  | .islreset => []
  | .hostDomain => []
  | .rmaWrite => []
  | .rmaRead => []
  | .peerRequest => []
  | .islandPowerGood => []
  | .islandBootDone => []
  | .drainEnd => []
  | .islandRailLoss => []
  | .heartbeatTimeout => []
  | .linkResend => []
  | .spareLaneSwitch => []
  | .ingestPacket => []
  | .frameDeadline => []
  | .emptyFrame => []
  | .checkpointDone => []
  | .contextLostRecord => []
  | .patrolScrub => []
  | .lateEdgeWindow => []
  | .thermalTrip => []
  | .lifeFlush => []
  | .unassignedEncoding => []
  | .linkUp => []
  | .linkDown => []
  | .computeRailFault => []
  | .unsupportedOperation => []
  | .lifeMinute => []
-- END ENCODE

/-- The first word of an instruction: what TRAPVAL records of it (R53, R120). -/
def firstWord (i : Instr) : IWord := (encode i).headD 0

/-! The decoder. -/

-- BEGIN DECODE
/-- Major 0x00, by its FN code (R50). -/
def decodeMajor00 (w : IWord) : Option Instr :=
  match (fld w 0 7).toNat with
  | 1 => some (.add (R3.ofWord w))
  | 2 => some (.sub (R3.ofWord w))
  | 3 => some (.andR (R3.ofWord w))
  | 4 => some (.orR (R3.ofWord w))
  | 5 => some (.xorR (R3.ofWord w))
  | 6 => some (.andn (R3.ofWord w))
  | 7 => some (.shl (R3.ofWord w))
  | 8 => some (.shr (R3.ofWord w))
  | 9 => some (.sra (R3.ofWord w))
  | 10 => some (.rol (R3.ofWord w))
  | 11 => some (.mul (R3.ofWord w))
  | 12 => some (.mulhS (R3.ofWord w))
  | 13 => some (.mulhN (R3.ofWord w))
  | 14 => some (.divS (R3.ofWord w))
  | 15 => some (.divN (R3.ofWord w))
  | 16 => some (.remS (R3.ofWord w))
  | 17 => some (.remN (R3.ofWord w))
  | 18 => some (.minS (R3.ofWord w))
  | 19 => some (.minN (R3.ofWord w))
  | 20 => some (.maxS (R3.ofWord w))
  | 21 => some (.maxN (R3.ofWord w))
  | 22 => some (.clz (R2.ofWord w))
  | 23 => some (.ctz (R2.ofWord w))
  | 24 => some (.popc (R2.ofWord w))
  | 25 => some (.bswap (R2.ofWord w))
  | 26 => some (.sel (R3.ofWord w))
  | 27 => some (.cmpEq (R3.ofWord w))
  | 28 => some (.cmpNe (R3.ofWord w))
  | 29 => some (.cmpLt (R3.ofWord w))
  | 30 => some (.cmpGe (R3.ofWord w))
  | 31 => some (.cmpLtn (R3.ofWord w))
  | 32 => some (.cmpGen (R3.ofWord w))
  | 33 => some (.sext (R3.ofWord w))
  | 34 => some (.zext (R3.ofWord w))
  | 35 => some (.bfx (R3.ofWord w))
  | 36 => some (.bfi (R3.ofWord w))
  | 37 => some (.xyadd (R3.ofWord w))
  | _ => none

/-- Major 0x14, by its COND code (R50). -/
def decodeMajor14 (w : IWord) : Option Instr :=
  match (fld w 22 3).toNat with
  | 0 => some (.bmAny (BF.ofWord w))
  | 1 => some (.bmAll (BF.ofWord w))
  | 2 => some (.bmNone (BF.ofWord w))
  | _ => none

/-- Major 0x15, by its FN code (R50). -/
def decodeMajor15 (w : IWord) : Option Instr :=
  match (fld w 0 7).toNat with
  | 1 => some (.br (KA.ofWord w))
  | 2 => some (.callr (KA.ofWord w))
  | 3 => some (.ret (K0.ofWord w))
  | 4 => some (.loop (KAB.ofWord w))
  | 5 => some (.nop (K0.ofWord w))
  | _ => none

/-- Major 0x16, by its FN code (R50). -/
def decodeMajor16 (w : IWord) : Option Instr :=
  match (fld w 0 7).toNat with
  | 1 => some (.mand (M3.ofWord w))
  | 2 => some (.mor (M3.ofWord w))
  | 3 => some (.mxor (M3.ofWord w))
  | 4 => some (.mandn (M3.ofWord w))
  | 5 => some (.mnot (M2.ofWord w))
  | 6 => some (.mmov (M2.ofWord w))
  | 7 => some (.mset (MSetF.ofWord w))
  | 8 => some (.mget (MGetF.ofWord w))
  | 9 => some (.mpopc (MGetF.ofWord w))
  | 10 => some (.mfirst (MGetF.ofWord w))
  | _ => none

/-- Major 0x20, by its FN[4:0] code (R50). -/
def decodeMajor20 (w : IWord) : Option Instr :=
  match (fld w 0 5).toNat with
  | 1 => some (.fee (KADO.ofWord w))
  | 2 => some (.feq (KADO.ofWord w))
  | 3 => some (.amoAdd (KABDO.ofWord w))
  | 4 => some (.amoAnd (KABDO.ofWord w))
  | 5 => some (.amoOr (KABDO.ofWord w))
  | 6 => some (.amoXor (KABDO.ofWord w))
  | 7 => some (.amoMinS (KABDO.ofWord w))
  | 8 => some (.amoMinN (KABDO.ofWord w))
  | 9 => some (.amoMaxS (KABDO.ofWord w))
  | 10 => some (.amoMaxN (KABDO.ofWord w))
  | 11 => some (.amoSwap (KABDO.ofWord w))
  | 12 => some (.amoFadd (KABDO.ofWord w))
  | 13 => some (.cas (KABDO.ofWord w))
  | 14 => (KFence.ofWord w).map .fence
  | 15 => some (.pref (KA.ofWord w))
  | 16 => some (.stc (KABDO.ofWord w))
  | 17 => some (.ldx (KABDO.ofWord w))
  | _ => none

/-- Major 0x22, by its FN code (R50). -/
def decodeMajor22 (w : IWord) : Option Instr :=
  match (fld w 0 3).toNat with
  | 0 => (V3.ofWord w).map .vadd
  | 1 => (V3.ofWord w).map .vsub
  | 2 => (V3.ofWord w).map .vadds
  | 3 => (V3.ofWord w).map .vsubs
  | 4 => (V3.ofWord w).map .vmul
  | 5 => (V3.ofWord w).map .vmulh
  | 6 => (V3.ofWord w).map .vmin
  | 7 => (V3.ofWord w).map .vmax
  | _ => none

/-- Major 0x23, by its FN code (R50). -/
def decodeMajor23 (w : IWord) : Option Instr :=
  match (fld w 0 3).toNat with
  | 0 => (V2.ofWord w).map .vabs
  | 1 => (V2.ofWord w).map .vneg
  | 2 => (V3.ofWord w).map .vand
  | 3 => (V3.ofWord w).map .vor
  | 4 => (V3.ofWord w).map .vxor
  | 5 => (V3.ofWord w).map .vandn
  | 6 => (V3.ofWord w).map .vshl
  | 7 => (V3.ofWord w).map .vshr
  | _ => none

/-- Major 0x24, by its FN code (R50). -/
def decodeMajor24 (w : IWord) : Option Instr :=
  match (fld w 0 3).toNat with
  | 0 => (V3.ofWord w).map .vsra
  | 1 => (V3.ofWord w).map .vsel
  | 2 => (VC.ofWord w).map .vcmpEq
  | 3 => (VC.ofWord w).map .vcmpNe
  | 4 => (VC.ofWord w).map .vcmpLt
  | 5 => (VC.ofWord w).map .vcmpLe
  | 6 => (V3.ofWord w).map .vavg
  | 7 => (V3.ofWord w).map .vdot
  | _ => none

/-- Major 0x25, by its FN code (R50). -/
def decodeMajor25 (w : IWord) : Option Instr :=
  match (fld w 0 3).toNat with
  | 0 => (V3.ofWord w).map .vfadd
  | 1 => (V3.ofWord w).map .vfsub
  | 2 => (V3.ofWord w).map .vfmul
  | 3 => (V3.ofWord w).map .vfma
  | 4 => (V3.ofWord w).map .vfms
  | 5 => (V3.ofWord w).map .vfmin
  | 6 => (V3.ofWord w).map .vfmax
  | 7 => (V2.ofWord w).map .vfabs
  | _ => none

/-- Major 0x26, by its FN code (R50). -/
def decodeMajor26 (w : IWord) : Option Instr :=
  match (fld w 0 3).toNat with
  | 0 => (V2.ofWord w).map .vfneg
  | 1 => (VC.ofWord w).map .vfcmpEq
  | 2 => (VC.ofWord w).map .vfcmpLt
  | 3 => (VC.ofWord w).map .vfcmpLe
  | 4 => (VC.ofWord w).map .vfcmpUn
  | 5 => (V2.ofWord w).map .vrcp
  | 6 => (V2.ofWord w).map .vrsq
  | 7 => (V2.ofWord w).map .vsqrt
  | _ => none

/-- Major 0x27, by its FN code (R50). -/
def decodeMajor27 (w : IWord) : Option Instr :=
  match (fld w 0 3).toNat with
  | 0 => (V2.ofWord w).map .vexp2
  | 1 => (V2.ofWord w).map .vlog2
  | 2 => (V3.ofWord w).map .vcvt
  | 3 => (V3.ofWord w).map .vqnt
  | 4 => (VP.ofWord w).map .vplane
  | 5 => (VP.ofWord w).map .vunplane
  | 6 => (V2.ofWord w).map .vmov
  | 7 => (V3.ofWord w).map .vperm
  | _ => none

/-- Major 0x28, by its FN code (R50). -/
def decodeMajor28 (w : IWord) : Option Instr :=
  match (fld w 0 3).toNat with
  | 0 => (V2.ofWord w).map .vcompress
  | 1 => (V2.ofWord w).map .vexpand
  | 2 => (V3.ofWord w).map .vzip
  | 3 => (V3.ofWord w).map .vunzip
  | 4 => (V3.ofWord w).map .vslide
  | 5 => (V2.ofWord w).map .vredadd
  | 6 => (V2.ofWord w).map .vredmin
  | 7 => (V2.ofWord w).map .vredmax
  | _ => none

/-- Major 0x29, by its FN code (R50). -/
def decodeMajor29 (w : IWord) : Option Instr :=
  match (fld w 0 3).toNat with
  | 0 => (VG.ofWord w).map .vbcast
  | 1 => (VL.ofWord w).map .vext
  | 2 => (VL.ofWord w).map .vins
  | 3 => (VG.ofWord w).map .vfredadd
  | 4 => (VG.ofWord w).map .vfredmax
  | 5 => (VG.ofWord w).map .vfredmin
  | _ => none

/-- Major 0x2E, by its FN code (R50). -/
def decodeMajor2e (w : IWord) : Option Instr :=
  match (fld w 0 7).toNat with
  | 1 => some (.send (KAB.ofWord w))
  | 2 => some (.sendk (KABD.ofWord w))
  | 3 => some (.park (KABD.ofWord w))
  | 4 => some (.resume (KAB.ofWord w))
  | 5 => some (.tend (K0.ofWord w))
  | 6 => some (.taskset (KABD.ofWord w))
  | 7 => some (.taskrd (KAD.ofWord w))
  | 8 => some (.join (KAD.ofWord w))
  | 9 => some (.leave (KAD.ofWord w))
  | 10 => some (.gbar (KAD.ofWord w))
  | 11 => some (.gmax (KABD.ofWord w))
  | _ => none

/-- Major 0x30, by its FN code (R50). -/
def decodeMajor30 (w : IWord) : Option Instr :=
  match (fld w 0 7).toNat with
  | 1 => some (.nalloc (KAD.ofWord w))
  | 2 => some (.nkill (KA.ofWord w))
  | 3 => some (.link (KAB.ofWord w))
  | 4 => some (.relink (KAB.ofWord w))
  | 5 => some (.nseal (KA.ofWord w))
  | 6 => some (.ntype (KAD.ofWord w))
  | 7 => some (.tref (KAD.ofWord w))
  | 8 => some (.tdrop (KAD.ofWord w))
  | _ => none

/-- Major 0x31, by its FN code (R50). -/
def decodeMajor31 (w : IWord) : Option Instr :=
  match (fld w 0 7).toNat with
  | 1 => some (.wlinit (KA.ofWord w))
  | 2 => some (.wlpush (KPush.ofWord w))
  | 3 => some (.wlinsu (KABD.ofWord w))
  | 4 => some (.wlpopb (KABD.ofWord w))
  | 5 => some (.wlcount (KAD.ofWord w))
  | 6 => some (.wldrain (KA.ofWord w))
  | _ => none

/-- Major 0x32, by its FN code (R50). -/
def decodeMajor32 (w : IWord) : Option Instr :=
  match (fld w 0 7).toNat with
  | 1 => some (.copy (KABD.ofWord w))
  | 2 => some (.copyr (KAD.ofWord w))
  | 3 => some (.waitany (KAD.ofWord w))
  | 4 => some (.waitall (KAD.ofWord w))
  | 5 => some (.tagff (KAD.ofWord w))
  | 6 => some (.tagclr (KA.ofWord w))
  | 7 => some (.subscribe (KABD.ofWord w))
  | 8 => some (.unsub (KA.ofWord w))
  | 9 => some (.ringpop (KAD.ofWord w))
  | 10 => some (.ringrel (KA.ofWord w))
  | 11 => some (.gather (KABD.ofWord w))
  | 12 => some (.scatter (KABD.ofWord w))
  | _ => none

/-- Major 0x33, by its FN code (R50). -/
def decodeMajor33 (w : IWord) : Option Instr :=
  match (fld w 0 7).toNat with
  | 1 => some (.mxmap (KAB.ofWord w))
  | 2 => some (.mxa (KAB.ofWord w))
  | 3 => some (.mxb (KA.ofWord w))
  | 4 => some (.mxskip (KSkip.ofWord w))
  | 5 => some (.mxrun (KRun.ofWord w))
  | 6 => some (.mxscale (KA.ofWord w))
  | 7 => some (.mxsend (KAB.ofWord w))
  | 8 => some (.mxstat (KAD.ofWord w))
  | 9 => some (.mxcap (KAD.ofWord w))
  | _ => none

/-- Major 0x34, by its FN code (R50). -/
def decodeMajor34 (w : IWord) : Option Instr :=
  match (fld w 0 7).toNat with
  | 1 => some (.dxenc (KABD.ofWord w))
  | 2 => some (.dxdec (KABD.ofWord w))
  | 3 => some (.dxadd (KABD.ofWord w))
  | 4 => some (.dxsub (KABD.ofWord w))
  | 5 => some (.dxin (KABD.ofWord w))
  | 6 => some (.dxnext (KABD.ofWord w))
  | 7 => some (.dxsplit (KABD.ofWord w))
  | 8 => some (.dxlev (KABD.ofWord w))
  | 9 => some (.dxcell (KABD.ofWord w))
  | 10 => some (.dxcmp (KABD.ofWord w))
  | _ => none

/-- Major 0x3C, by its FN code (R50). -/
def decodeMajor3c (w : IWord) : Option Instr :=
  match (fld w 0 7).toNat with
  | 1 => some (.trap (KTrap.ofWord w))
  | 2 => some (.tret (K0.ofWord w))
  | 3 => some (.csrr (KCsr.ofWord w))
  | 4 => some (.csrw (KCsr.ofWord w))
  | 5 => some (.csrx (KCsr.ofWord w))
  | 6 => some (.csrs (KCsr.ofWord w))
  | 7 => some (.csrc (KCsr.ofWord w))
  | 8 => some (.brk (KBrk.ofWord w))
  | 9 => some (.jrnl (KAD.ofWord w))
  | 10 => some (.icinv (KAB.ofWord w))
  | 11 => some (.tlbinv (KAB.ofWord w))
  | 12 => some (.repart (KA.ofWord w))
  | 13 => some (.killj (KA.ofWord w))
  | 14 => some (.cancelj (KA.ofWord w))
  | _ => none

/-- The fields of a one-word instruction, by its major opcode (R49). -/
def decodeFields (w : IWord) : Option Instr :=
  match (fld w 25 6).toNat with
  | 0x00 => decodeMajor00 w
  | 0x01 => some (.addi (RI.ofWord w))
  | 0x02 => some (.andi (RI.ofWord w))
  | 0x03 => some (.ori (RI.ofWord w))
  | 0x04 => some (.xori (RI.ofWord w))
  | 0x05 => some (.shli (RS.ofWord w))
  | 0x06 => some (.shri (RS.ofWord w))
  | 0x07 => some (.srai (RS.ofWord w))
  | 0x08 => some (.cmpiLt (RI.ofWord w))
  | 0x09 => some (.cmpiEq (RI.ofWord w))
  | 0x0A => some (.muli (RI.ofWord w))
  | 0x10 => some (.branch (JF.ofWord w))
  | 0x11 => some (.call (JF.ofWord w))
  | 0x12 => some (.bz (CF.ofWord w))
  | 0x13 => some (.bnz (CF.ofWord w))
  | 0x14 => decodeMajor14 w
  | 0x15 => decodeMajor15 w
  | 0x16 => decodeMajor16 w
  | 0x18 => (MemF.ofWord w).map .ld
  | 0x19 => (MemF.ofWord w).map .st
  | 0x1A => some (.ldv (MemV.ofWord w))
  | 0x1B => some (.stv (MemV.ofWord w))
  | 0x1C => some (.ldf (MemW.ofWord w))
  | 0x1D => some (.ldt (MemW.ofWord w))
  | 0x1E => some (.stf (MemW.ofWord w))
  | 0x1F => some (.stw (MemW.ofWord w))
  | 0x20 => decodeMajor20 w
  | 0x22 => decodeMajor22 w
  | 0x23 => decodeMajor23 w
  | 0x24 => decodeMajor24 w
  | 0x25 => decodeMajor25 w
  | 0x26 => decodeMajor26 w
  | 0x27 => decodeMajor27 w
  | 0x28 => decodeMajor28 w
  | 0x29 => decodeMajor29 w
  | 0x2E => decodeMajor2e w
  | 0x30 => decodeMajor30 w
  | 0x31 => decodeMajor31 w
  | 0x32 => decodeMajor32 w
  | 0x33 => decodeMajor33 w
  | 0x34 => decodeMajor34 w
  | 0x3C => decodeMajor3c w
  | _ => none
-- END DECODE

/-- Format L (R39), by its function code (R50). -/
def decodeLong (w w1 : IWord) : Option Instr :=
  match (fld w 0 7).toNat with
  | 1 => some (.li ⟨sBit w, fld w 19 6, w1⟩)
  | 2 => some (.lih ⟨sBit w, fld w 19 6, fld w 13 6, w1⟩)
  | 3 => some (.la ⟨sBit w, fld w 19 6, w1⟩)
  | 4 => some (.xy ⟨sBit w, fld w 19 6, fld w 13 6, fld w1 0 15⟩)
  | 5 => some (.bl ⟨sBit w, w1⟩)
  | 6 => some (.calll ⟨sBit w, w1⟩)
  | _ => none

/-- What decoding answers: an instruction, or the index of the first word that holds an offending bit (R53). -/
inductive Decoded where
  | ok (i : Instr)
  | unassigned (index : Nat)
deriving DecidableEq, Repr

/-- How many words an instruction has, by its first word (R31). -/
def wordCount (w : IWord) : Nat :=
  match (fld w 25 6).toNat with
  | 0x3E => 2
  | 0x3F => 8
  | _ => 1

/-- The index of the first word in which two lists differ, 0 when they do not. -/
def firstDiff : List IWord → List IWord → Nat
  | a :: as, b :: bs => if a = b then firstDiff as bs + 1 else 0
  | _, _ => 0

/-- An instruction that was read from words `ws`: assigned when its field values are permitted and the words hold
no bit that its encoding lacks. -/
def checked (i : Instr) (ws : List IWord) : Decoded :=
  if encode i = ws then (if wellFormed i then .ok i else .unassigned 0)
  else .unassigned (firstDiff (encode i) ws)

/-- LNEST: what makes its first word unassigned (an operation, type, level count or rounding that is not assigned, or a
stride scale of an unused B) comes first, then the first later word with a bit that must be 0 (R53). -/
def decodeNest (ws : List IWord) : Decoded :=
  match Nest.ofBits (joinWords ws) with
  | none => .unassigned 0
  | some n =>
    if nestOk n.dropB then
      if encode (.lnest n.dropB) = ws then .ok (.lnest n.dropB)
      else .unassigned (firstDiff (encode (.lnest n.dropB)) ws)
    else .unassigned 0

/-- The instruction that the words of an instruction encode (R31-R53). -/
def decode (ws : List IWord) : Decoded :=
  match ws with
  | [] => .unassigned 0
  | w :: rest =>
    match (fld w 25 6).toNat with
    | 0x3E =>
      match decodeLong w (rest.headD 0) with
      | some i => checked i ws
      | none => .unassigned 0
    | 0x3F => decodeNest ws
    | _ =>
      match decodeFields w with
      | some i => checked i ws
      | none => .unassigned 0

/-- Why a byte string holds no instruction: too few bytes, or an unassigned encoding (R53). -/
inductive DecodeError where
  | truncated
  | unassigned (index : Nat)
deriving DecidableEq, Repr

/-- The instruction word in four bytes, lowest first (R31). -/
def wordOfBytes (a b c d : Byte) : IWord := d ++ c ++ b ++ a

/-- The first `n` words of a byte string and the rest; none when it is too short. -/
def takeWords : Nat → List Byte → Option (List IWord × List Byte)
  | 0, bs => some ([], bs)
  | n + 1, a :: b :: c :: d :: bs =>
    (takeWords n bs).map fun (ws, rest) => (wordOfBytes a b c d :: ws, rest)
  | _ + 1, _ => none

/-- Decoding of a byte string: the instruction at its start and the bytes after it, or why there is none. -/
def decodeBytes (bs : List Byte) : Except DecodeError (Instr × List Byte) :=
  match takeWords 1 bs with
  | none => .error .truncated
  | some (ws, _) =>
    match takeWords (wordCount (ws.headD 0)) bs with
    | none => .error .truncated
    | some (ws, rest) =>
      match decode ws with
      | .ok i => .ok (i, rest)
      | .unassigned k => .error (.unassigned k)

/-- The words of an instruction whose bits are `w`, bit 0 the least significant bit of the first word. -/
def tableWords (w : Nat) : List IWord :=
  (List.range (wordCount (BitVec.ofNat 32 w))).map fun k => BitVec.ofNat 32 (w >>> (32 * k))

/-- The instruction that the decoder reads from an instruction whose bits are `w`; the bits at and above `nbits` are 0. -/
def decodeTableWord (nbits w : Nat) : Option Instr :=
  match decode (tableWords (w % 2 ^ nbits)) with
  | .ok i => some i
  | .unassigned _ => none

end Sys2Proof
end

