-- ==== Sys2Proof/Machine/State.lean ====
section
/-!
DEFINITION. The state of the machine: everything the manual gives it, as plain data. Indexed state (registers, contexts,
cores, clusters, jobs, memory) is held as a list of index and value in one canonical form: indexes strictly rising, and no
entry equal to what an unlisted index reads as. A core is named by the index 48 y + x, a cluster by 12 cy + cx. Memory is one
list of bytes over the flat locations of `Loc` (Ops.lean): HBM, the core pools and the cluster stores.
-/
namespace Sys2Proof.Machine

/-- Indexed data: index and value, indexes strictly rising, no entry equal to the default. -/
abbrev Map (α : Type) := List (Nat × α)

/-! ## Contexts -/

/-- The states of a context (R8). -/
inductive CtxState where
  | free | running | marker | stalled | frozen
deriving DecidableEq, Repr

/-- A register that an instruction names (R13-R15). -/
inductive Reg where
  | g (n : Nat)
  | v (n : Nat)
deriving DecidableEq, Repr

/-- The kinds of trap that a context can take (R119). -/
inductive TrapKind where
  | exact | markerPrecise | asynchronous | contextLost
deriving DecidableEq, Repr

/-- A trap to be taken: kind, cause code (R120), TRAPVAL and TRAPINFO, and the address TRAPPC takes when it is not the
address of the instruction (R122). -/
structure Trap where
  kind : TrapKind
  cause : Nat
  value : Word
  info : Word
  pc : Option Word
deriving DecidableEq, Repr

/-- The engine commands (R230, R258). -/
inductive CmdKind where
  | copy | subscribe | unsub | ringrel | gather | scatter | mxmap | mxa | mxb | mxrun
deriving DecidableEq, Repr

/-- An engine command: its kind, the context that issued it (of a forwarded run, the sender's), its stamp, and its words:
the operands read at issue, in the order A, B, D; for MXMAP the pitch word and the eight entries; for MXRUN the run word and the
skip cursor. -/
structure Cmd where
  kind : CmdKind
  ctx : CtxId
  job : Nat
  gen : Nat
  words : List Word
deriving DecidableEq, Repr

/-- What an operation that is outstanding does when it is performed (R44, R163, R168, R182, R215, R283), with the source
values it read at issue. -/
inductive OpBody where
  /-- A result that is known at issue and due after a fixed latency (R44), with the flags it sets when it is written
  (R90). -/
  | result (v : Vec) (fl : BitVec 9)
  /-- LD and LDV: the access size. -/
  | load (size : Nat)
  /-- ST, STV and STF in the journal: the OP code of R150, the size and the data. -/
  | store (kind size : Nat) (data : Vec)
  /-- LDF 0, LDT 1, STW 2, FEE 3, FEQ 4, with STW's data (R163). -/
  | fullEmpty (fn : Nat) (data : Word)
  /-- AMO by its function code of R50, with g[B] (R168). -/
  | amo (fn : Nat) (b : Word)
  /-- CAS: the expected and the new value (R169). -/
  | cas (expected new : Word)
  /-- STC: the source address, the control word, and the bytes of the packed form (R172, R173). -/
  | stc (src control : Word) (form : List Byte)
  /-- LDX: the destination address and the capacity word (R174). -/
  | ldx (dst cap : Word)
  /-- FENCE (R170). -/
  | fence
  /-- SEND and SENDK: the target core and the message (R180). -/
  | send (target chan nw : Nat) (payload : List Word)
  /-- RESUME: the value (R192). -/
  | resume (value : Word)
  /-- TASKSET: the target core, the channel, the operation, and the new words (R177). -/
  | taskset (target chan fn : Nat) (w0 w1 : Word)
  /-- PARK: the scalar map, the vector and mask map, and the wake register (R191). -/
  | park (gm vm : Word) (wreg : Nat)
  /-- JOIN, or LEAVE (R199). -/
  | member (leave : Bool)
  /-- The arrival of GBAR, or of GMAX with its contribution, the pool entry that holds the thread, and the destination
  (R200). -/
  | arrive (gmax : Option (BitVec 32)) (entry : Word) (wreg : Nat)
  /-- The link operations (R215): NSEAL, NKILL, LINK and RELINK with their second port. -/
  | nseal
  | nkill
  | link (n : Word)
  | relink (n : Word)
  /-- TREF, or TDROP (R223). -/
  | tref (drop : Bool)
  /-- The work-list operations (R283-R290), with the operand words read at issue. -/
  | wlinit
  | wlpush (item : List Word)
  | wlinsu (item : List Word)
  | wlpopb (buffer control : Word)
  | wlcount
  | wldrain
  /-- A batch on its way back: the buffer's offset, the item words, and the result (R287). -/
  | popped (buffer : Nat) (items : List Word) (n : Word)
  /-- ICINV: the length (R136). -/
  | icinv (len : Word)
  /-- TLBINV: the selector (R137). -/
  | tlbinv (sel : Word)
  /-- REPART, KILLJ, CANCELJ (R138-R140), with g[A] as the operation's address. -/
  | repart
  | killj
  | cancelj
  /-- MXSTAT (R272). -/
  | mxstat
  /-- DXSPLIT: the key boxes and the result words that it writes to its list (R300). -/
  | dxsplit (words : List Word) (count : Word)
  /-- An engine command in the core's engine command queue (R230). -/
  | command (c : Cmd)
deriving DecidableEq, Repr

/-- One outstanding operation of a thread. -/
structure Op where
  id : Nat
  /-- The context that issued it. -/
  ctx : CtxId
  /-- The thread that issued it, by number. -/
  thread : Nat
  /-- The record of the continuation that owns it, once its thread has given up its context (R401). -/
  record : Option Word
  job : Nat
  gen : Nat
  /-- Its instruction's address and first word, for the fault list (R123) and the journal (R150). -/
  pc : Word
  word : IWord
  addr : Word
  body : OpBody
  /-- The register that it makes pending and writes. -/
  dst : Option Reg
  ord : MOrd
  scope : FScope
  /-- A plain access, which sets and checks marks (R145, R158). -/
  plain : Bool
  /-- The region of the thread it belongs to (R158). -/
  region : Nat
  /-- A fallible long operation, which counts against the four of R123. -/
  fallible : Bool
  /-- The journal entry that holds it (R150), with the entry's MX bit and the reason of a refusal. -/
  jidx : Option Nat
  mx : Bool
  reason : Nat
  /-- The JOURNAL trap of a refused entry has been taken (R124). -/
  reported : Bool
  /-- It has left the core (R151, R155). -/
  left : Bool
  /-- The flat location of its first byte at its home, once translated. -/
  loc : Option Nat
  /-- Its home has performed it. -/
  performed : Bool
  /-- The cycle from which a full/empty wait or a pop parks (R164, R288). -/
  deadline : Nat
  /-- Its home has answered "parked" (R164). -/
  parked : Bool
  /-- The wait-table entry, or the pool entry, that a park request names (R165). -/
  widx : Option Nat
  wrec : Option Word
  /-- The fault entry whose re-issue it is: the position of R127. -/
  replay : Bool
  /-- Its first answer "not ready" or "empty" has been counted as a blocking point (R306). -/
  blocking : Bool
deriving DecidableEq, Repr

/-- An entry of a context's fault list (R123): the faulted operation as issued, the cause, and the two flags. -/
structure FaultEntry where
  op : Op
  addr : Word
  cause : Nat
  inTrap : Bool
  reported : Bool
  /-- The number of its report among those of the list, rising: the most recently reported entry has the highest (R127). -/
  order : Nat
  /-- Its re-issue is outstanding (R127). -/
  reissued : Bool
deriving DecidableEq, Repr

/-- An entry of the rewrite list (R216): the node, whether it was killed (else allocated), and its three used bits. -/
structure Rewrite where
  node : Word
  killed : Bool
  used : List Bool
deriving DecidableEq, Repr

/-- A refusal of a link operation, held for TEND (R226): the address and the reason. -/
structure HeldRefusal where
  addr : Word
  reason : Nat
deriving DecidableEq, Repr

/-- The progress of a running nest (R116-R118): the instruction, its rounding mode, the linear index of the next iteration,
the base addresses read at its start, and the writes of its last step that are still to be performed, each a location and a value. -/
structure NestRun where
  nest : Nest
  mode : Nat
  t : Nat
  a : Word
  b : Word
  d : Word
  writes : List (Nat × Nat)
deriving DecidableEq, Repr

/-- What a context does over several slots, at one instruction. -/
inductive Busy where
  | idle
  /-- A running LNEST (R116). -/
  | nest (r : NestRun)
  /-- The source scan of STC (R173): the instruction, source, reservation, control word, and the bytes scanned. -/
  | stcScan (o : KABDO) (src res control : Word) (got : List Byte)
  /-- The four table reads of MXMAP (R259): the operand words and the entries read. -/
  | mxmap (a b : Word) (entries : List Word)
  /-- MXSCALE (R270): the descriptor words, the rounding mode and the elements done. -/
  | mxscale (desc : List Word) (mode : Nat) (done : Nat)
  /-- WAITANY or WAITALL (R234): the mask, the destination, and the cycle from which it parks. -/
  | tagWait (all : Bool) (mask : Word) (d : Nat) (deadline : Nat)
  /-- RINGPOP (R245): the subscription number, the destination, and the cycle from which it parks. -/
  | ringWait (sn : Nat) (d : Nat) (deadline : Nat)
  /-- A thread that waits for a pool entry (R190) to make the continuation of a kind. -/
  | poolWait (kind : Nat)
  /-- A fetch from a code page that is not verified (R379). -/
  | codeWait (page : Nat)
  /-- PARK, GBAR or GMAX waiting for the answer of a home (R191, R200), by operation. -/
  | homeWait (id : Nat)
deriving DecidableEq, Repr

/-- The state of one context. -/
structure Ctx where
  st : CtxState
  pc : Word
  g : Map Word
  v : Map Vec
  m : Map (BitVec 16)
  sr : Map Word
  /-- Registers whose pending bit is set (R15). -/
  pend : List Reg
  /-- STATUS (R19): CHAN, PRIO, PORT, MXSAT, INTRAP. CANCEL and PRIV follow from the core and the job. -/
  chan : Nat
  prio : Nat
  port : Bool
  mxsat : Bool
  intrap : Bool
  trapvec : Word
  trappc : Word
  trapcause : Word
  trapval : Word
  trapinfo : Word
  trapsave : Word
  fcsr : BitVec 9
  rndseed : BitVec 32
  loopcnt : BitVec 32
  loopstart : Word
  loopend : Word
  /-- The loop buffer: the instruction words captured, by their address (R72). -/
  loopbuf : Map IWord
  feretry : BitVec 16
  jobsel : BitVec 6
  ctxsel : BitVec 20
  /-- A cause found while operations were outstanding, to be taken when the wait ends (R54). -/
  trapDue : Option Trap
  faults : List FaultEntry
  rewrites : List Rewrite
  refusals : List HeldRefusal
  busy : Busy
  /-- The thread it holds, by number, and the region of R158, by number. -/
  thread : Nat
  region : Nat
  /-- The next instruction is the first of a handler (R128). -/
  handlerFirst : Bool
  /-- The next instruction was entered by TRET (R117). -/
  resumed : Bool
  /-- The cycle of the last blocking point, birth or re-creation (R308), and of the last WATCHDOG trap's count. -/
  since : Nat
  watched : Nat
  /-- The first cycle in which a newly started thread may issue (R187). -/
  notBefore : Nat
  /-- The PARK, by its address and region, whose release stands although it has trapped (R191). -/
  released : Option (Word × Nat)
  /-- The wait that the thread stands in has been counted as a blocking point (R306, R308). -/
  blocked : Bool
  /-- The FROZEN context, by its job in JOBID form, that the monitor's thread here was told of by HANDLER_FETCH (R129). -/
  handling : Option (CtxId × Nat)
  /-- The thread is a member of a co-resident set (R310). -/
  member : Bool
deriving DecidableEq, Repr

/-! ## Cores -/

/-- An entry of the dispatch ring (R184): the whole acceptance time and the base priority stand beside the fields. -/
structure RingEntry where
  time : Nat
  order : Nat
  base : Nat
  job : Nat
  gen : Nat
  sender : Nat
  body : MsgBody
deriving DecidableEq, Repr

/-- An entry of the wait table (R194), with its continuation's place: state 1 reserved, 2 parked. -/
structure WaitEntry where
  addr : Word
  ctx : Nat
  dreg : Nat
  fn : Nat
  parked : Bool
  data : Word
  op : Nat
deriving DecidableEq, Repr

/-- What stays with a continuation at its home core (R123, R401): its fault list, and a cause that was found and is still to be
taken (R54). -/
structure Parked where
  record : Word
  faults : List FaultEntry
  due : Option Trap
deriving DecidableEq, Repr

/-- A live or faulted work list of a core, or its active-pair queue (R279-R282): the descriptor's offset, the stamp of its
job, whether it is live (else faulted), the reason of a fault, the fields of words 1 to 3, the items in the area and the
number of items after them in the spill region with the spill slot of the first, the counters, and the parked pop waiters
(record, buffer, N). -/
structure ListEntry where
  desc : Nat
  job : Nat
  gen : Nat
  live : Bool
  reason : Nat
  dedup : Bool
  wide : Bool
  area : Nat
  spill : Word
  scap : Nat
  items : List (List Word)
  spilled : Nat
  spillHead : Nat
  pushes : Nat
  dups : Nat
  pops : Nat
  fulls : Nat
  high : Nat
  waiters : List (Word × Word × Nat)
deriving DecidableEq, Repr

/-- Paused work of an engine (R238): the command, the cause and the address of its fault, and the bytes or elements done. -/
structure Paused where
  cmd : Cmd
  cause : Nat
  addr : Word
  done : Nat
deriving DecidableEq, Repr

/-- A record that waits for tags (R234): its mask, and whether it waits for all of them. A waiter of RINGPOP (R245) names the
subscription number instead of a mask. -/
structure TagWaiter where
  record : Word
  mask : Word
  all : Bool
  ring : Option Nat
deriving DecidableEq, Repr

/-- What a built-in rule does with a pair once both nodes are killed (R227): the nodes it makes in order, its relinks by node number, and its
links. -/
structure RulePlan where
  makes : List (Word × Word × Word)
  relinks : List (Word × Nat × Nat)
  links : List ((Nat × Nat) × (Nat × Nat))
deriving DecidableEq, Repr

/-- A built-in rule that the ligature unit of a core performs (R227): the pair, the code, its plan, the nodes made, whether both kills have been
performed, and whether one was refused. -/
structure RuleRun where
  x : Word
  y : Word
  code : Nat
  plan : RulePlan
  made : List Word
  killed : Bool
  refused : Bool
deriving DecidableEq, Repr

/-- The state of one core, beside its pool, its journal (the operations with a journal index) and its contexts. -/
structure Core where
  owner : Option Nat
  gen : Nat
  partword : BitVec 32
  /-- The cancelled state of its job has reached the core (R140). -/
  cancelled : Bool
  /-- A hold is in force (R313). -/
  held : Bool
  /-- The REPART that holds dispatch here (R138). -/
  repart : Option Nat
  tags : Word
  tagfault : Word
  /-- Tags that are owned (R231) and tags marked saturated (R267). -/
  owned : Word
  satTags : Word
  /-- The bits of TAGS and TAGFAULT that engines set in a cycle, with the cycle (R21, R131). -/
  fresh : Nat × Word × Word
  /-- The copy engine's queue, the command in progress first, each with the bytes done (R230, R237). -/
  copyq : List (Cmd × Nat)
  /-- The paused-work table (R238). -/
  paused : List Paused
  /-- The tag-waiter list, with the waiters of RINGPOP (R234, R245). -/
  tagWaiters : List TagWaiter
  /-- The index after the journal entry taken last (R151). -/
  jnext : Nat
  ring : Map (Option RingEntry)
  waits : Map (Option WaitEntry)
  parked : List Parked
  exhaustedAt : Option Nat
  /-- The list table (R281), the active-pair queue (R282), the fired pairs that wait for it, and the pairs between queue
  and message (R214). -/
  lists : List ListEntry
  pairq : Option ListEntry
  pairWait : List (Word × Word)
  /-- The built-in rule that the ligature unit performs (R227), and, once the core is cancelled, how many of its pairs were fired before
  (R229). -/
  rule : Option RuleRun
  pairsDue : Nat
deriving DecidableEq, Repr

/-! ## Homes -/

/-- Who holds a region mark: a context of this device, or of another (R26). -/
structure Who where
  dev : Option Nat
  ctx : CtxId
deriving DecidableEq, Repr

/-- A region mark (R26, R158): the line by number, the context, the region, and whether it was written. -/
structure Mark where
  line : Nat
  who : Who
  region : Nat
  write : Bool
deriving DecidableEq, Repr

/-- An entry of a region log that names a line of another part (R26): the context, the part, the line, the region, whether it was written,
and whether the part has been asked to clear its mark. -/
structure PeerMark where
  ctx : CtxId
  dev : Nat
  line : Nat
  region : Nat
  write : Bool
  asked : Bool
deriving DecidableEq, Repr

/-- A recorded waiter of a word (R164, R195): the location, the operation, and who is woken: a wait-table entry of a core,
the record of a pool entry with its overflow cell, or another part, by its number and the request that parked there (R345). -/
structure Waiter where
  loc : Nat
  seq : Nat
  fn : Nat
  data : Word
  job : Nat
  gen : Nat
  core : Nat
  index : Option Nat
  record : Option Word
  op : Nat
  peer : Option (Nat × Nat)
deriving DecidableEq, Repr

/-! ## Clusters and dies -/

/-- A parked arrival of a thread of another part at a group's descriptor here (R200, R345): the descriptor, the job, the part and its request,
and whether it is a GMAX. -/
structure PeerArrival where
  desc : Nat
  job : Nat
  dev : Nat
  tag : Nat
  gmax : Bool
deriving DecidableEq, Repr

/-- A translation held by a cluster TLB (R328): the page's first virtual address and its size in bytes, the physical
address, and the permissions. -/
structure TlbEntry where
  job : Nat
  gen : Nat
  base : Nat
  size : Nat
  pa : Nat
  ex : Bool
  wr : Bool
  rd : Bool
deriving DecidableEq, Repr

/-- A line of a cluster instruction cache (R335): job, generation, virtual line address, and its sixteen words. -/
structure ILine where
  job : Nat
  gen : Nat
  line : Nat
  words : List IWord
deriving DecidableEq, Repr

/-- What an access needs of a page (R326). -/
inductive Need where
  | fetch | read | write | both | nothing
deriving DecidableEq, Repr

/-- An entry of a cluster's miss table (R329): the job, the 64 KiB region missed, when it began to wait, whether it holds
a walker, whether a TLBINV met it in flight (R137), and what its requesters that are no operations of threads (fetches, engines) need. -/
structure Miss where
  job : Nat
  gen : Nat
  region : Nat
  since : Nat
  walking : Bool
  noFill : Bool
  /-- PTROOT as it stood when the walk began (R133). -/
  root : Word
  needs : List Need
deriving DecidableEq, Repr

/-- What a walk has answered to a requester that is no operation of a thread (R329): the region and the need it asked for, the cause of the
fault or 0, the physical address of the region, and the cycle. -/
structure Walked where
  job : Nat
  gen : Nat
  region : Nat
  need : Need
  cause : Nat
  pa : Nat
  time : Nat
deriving DecidableEq, Repr

/-- What a matrix engine holds (R253): MAP with its pitch, LATCH as its rows, each the list of its planes with the most significant
first, and the layout of the MXA control word, BREG, ACCUM by 128 i + j, SAT, CAUSE, FADDR, RUNS. -/
structure Mx where
  map : List Word
  pitch : Nat
  mv : Bool
  latch : List (List Nat)
  lctl : Word
  lv : Bool
  breg : Word
  bv : Bool
  accum : Map (BitVec 32)
  sat : Bool
  cause : Nat
  faddr : Word
  runs : Word
deriving DecidableEq, Repr

/-- What context Y of a gather engine holds for a system request (R251): the requester (0 the loader, 1 a checkpoint, 2 ingest, 3 a kill
scrub), the address that its window has reached, the bytes left, and the cycle at which they have been moved. -/
structure YWork where
  who : Nat
  addr : Word
  left : Nat
  due : Nat
deriving DecidableEq, Repr

/-- The state that the cores of a cluster share. -/
structure Cluster where
  tlb : List TlbEntry
  icache : List ILine
  misses : List Miss
  walked : List Walked
  /-- The gather engine: the job's commands, the one in context J first, with its cursor; the request that context Y serves, and
  those whose state Y has saved, the last first (R250, R251). -/
  gatherq : List (Cmd × Nat)
  /-- The addresses of the rest of context J's current window, once the index list has been read (R251). -/
  window : List Word
  yserve : Option YWork
  ysaved : List YWork
  /-- The matrix engine: its state, its queue, whether the first command is being performed, and MXHEALTH.STATE (R253, R277). -/
  mx : Mx
  mxq : List Cmd
  mxBusy : Bool
  health : Nat
deriving DecidableEq, Repr

/-- The states of a compute die (R339). -/
inductive DieState where
  | off | reset | run | hung
deriving DecidableEq, Repr

/-! ## Jobs -/

/-- JOBGEN.STATE (R134). -/
inductive JobState where
  | free | live | cancelled | killed
deriving DecidableEq, Repr

/-- The schedule state of a job (R312). -/
inductive Sched where
  | resident | quiescing | quiesced | switching | switchedOut
deriving DecidableEq, Repr

/-- A code page of a job (R379): its number (virtual address divided by 64 KiB), its physical address, where its image and its hash
stand in a host window, VERIFIED, and whether a mismatch has been found. -/
structure CodePage where
  page : Nat
  pa : Nat
  src : Nat
  hash : Nat
  verified : Bool
  failed : Bool
deriving DecidableEq, Repr

/-- The state of one job number. -/
structure Job where
  st : JobState
  gen : Nat
  pend : Bool
  ptroot : Word
  drop : BitVec 32
  /-- Its rectangle of clusters: corner and extents (R6). -/
  cx : Nat
  cy : Nat
  cw : Nat
  ch : Nat
  trapvec : Word
  wdlimit : Nat
  poolBase : Word
  sched : Sched
  /-- The operation of its outstanding schedule command (R312), with SAVE and ICAP (R311). -/
  cmd : Option Nat
  save : Nat
  icap : Nat
  /-- What the code object gives it (R377): FERETRY, RSVB in 4 KiB units, whether it uses matrix instructions, POOLN, RULES, the
  arena's BASE and TOTAL, TNOTE and SNOTE, and QSPILL with QSCAP. -/
  feretry : Nat
  rsvb : Nat
  mxused : Bool
  poolN : Nat
  rules : Word
  abase : Nat
  atotal : Nat
  tnote : Nat
  snote : Nat
  qspill : Word
  qscap : Nat
  /-- Its code pages (R379). -/
  pages : List CodePage
  /-- The host that launched it (R364, R378). -/
  host : Word
  /-- The context-lost record that waits for its retirement (R363, R364). -/
  lostRec : Option (List Word)
  /-- The members of its co-resident sets that have not started, by core and channel, and the records of those that stand in a continuation
  (R310). -/
  coset : List (Nat × Nat)
  comembers : List Word
  /-- The physical memory that its launch took: first address and bytes. -/
  pbase : Nat
  psize : Nat
deriving DecidableEq, Repr

/-! ## Subscriptions (R241-R248) -/

/-- A tile that stands in a slot of a subscriber and has not been released: its number on the subscriber, its tile number, the
reservoir offset of a lent slot, and whether it has been popped. -/
structure Placed where
  k : Nat
  tile : Nat
  lent : Option Nat
  popped : Bool
deriving DecidableEq, Repr

/-- One subscriber: its core, the tiles placed and popped so far, and the tiles that stand in its slots, oldest first. -/
structure Part where
  core : Nat
  placed : Nat
  popped : Nat
  slots : List Placed
deriving DecidableEq, Repr

/-- A live or faulted subscription: the descriptor's address and words, the core that issued it, its stamp, CT, the tile at which dealing
began, the tile from which on none is dealt, whether it has faulted, the subscribers whose write-backs failed, whether UNSUB has stopped it,
and its subscribers by rank. -/
structure Sub where
  desc : Word
  words : List Word
  core : Nat
  job : Nat
  gen : Nat
  ct : Nat
  first : Nat
  limit : Nat
  faulted : Bool
  failed : List Nat
  stopped : Bool
  parts : List Part
deriving DecidableEq, Repr

/-! ## The device -/

/-- A range of memory whose contents the manual leaves open: its first location, its length, the number of its free contents, and, where
it is not all of the range, the HBM stacks it is confined to. -/
structure Vague where
  base : Nat
  len : Nat
  num : Nat
  onStacks : List Nat
deriving DecidableEq, Repr

/-- What a switched-out job left (R314): its number, its cores and contexts, its matrix engines by cluster, the bytes, empty words and
open ranges of its pools and stores, marks, waiters and subscriptions. -/
structure Saved where
  job : Nat
  cores : List (Nat × Core)
  ctxs : List (CtxId × Ctx)
  engines : List (Nat × Mx)
  mem : List Host.Cell
  empty : List Nat
  vague : List Vague
  marks : List Mark
  waiters : List Waiter
  subs : List Sub
deriving DecidableEq, Repr

/-! ## The island (R337-R356) -/

/-- The island's states (R338). -/
inductive IslState where
  | off | boot | forward | full | drain
deriving DecidableEq, Repr

/-- What ATTACH names (R349): the command ring with its entries, the command channel, and the host windows. -/
structure Attach where
  ring : Nat
  entries : Nat
  chan : Nat
  windows : List (Nat × Nat)
  record : List Byte
deriving DecidableEq, Repr

/-- An open frame of a stream (R352-R354): the first packet's time, the RTP timestamp, the bytes received by line and offset, and the
paths that delivered a packet. -/
structure Frame where
  first : Nat
  rtpTime : Nat
  got : List (Nat × Nat × Nat)
  pathA : Bool
  pathB : Bool
deriving DecidableEq, Repr

/-- An open ingest stream (R351-R355): its number, descriptor words, the next frame index, the open frame, the RTP sequence numbers
merged, the RTP timestamp of the last frame, the time at which the next frame is due, the empty frames in a row, the times at which frames
closed by slot, and whether CLOSE ends it after the current frame. -/
structure Stream where
  num : Nat
  words : List Word
  index : Nat
  frame : Option Frame
  seqs : List Nat
  last : Option Nat
  due : Option Nat
  empties : Nat
  closes : List (Nat × Nat)
  closing : Bool
deriving DecidableEq, Repr

/-- A checkpoint in progress (R356): the job and generation, the destination, the completion channel, or none where a host's CHECKPOINT
runs it (R348), the monitor core that hears of it, and whether its stream has begun. -/
structure Ckpt where
  job : Nat
  gen : Nat
  dest : Word
  chan : Option Nat
  monitor : Nat
  begun : Bool
deriving DecidableEq, Repr

/-- What leaves the part on its ports (R342, R346-R348, R356). -/
inductive Outgoing where
  /-- A reply to a host: HTAG, whether the command was performed, the status word, and the bytes after them. -/
  | reply (host : Word) (htag : Nat) (ok : Bool) (status : Word) (bytes : List Byte)
  /-- A record that the monitor sends to a host by REPLY (R349). -/
  | record (host : Word) (bytes : List Byte)
  /-- Error completions: receiver not ready (R350), unsupported operation, protection error (R346), ENDPOINT_DOWN (R342). -/
  | notReady (host : Word)
  | unsupported (host : Word)
  | protection (host : Word)
  | endpointDown (host : Word)
  /-- A context's release clears its marks at another part (R26, R154), and the answer that they are cleared. -/
  | clearMarks (dev : Nat) (c : CtxId)
  | cleared (dev : Nat) (core k : Nat)
  /-- The bytes that an RMA read returns. -/
  | readData (host : Word) (bytes : List Byte)
  /-- A request of this part to another part, by operation (R345). -/
  | request (dev id : Nat)
  /-- The answer to a request of another part: a value, a refusal's cause with its information word, "not ready", "parked", or "no room". -/
  | answer (dev tag : Nat) (v : Vec)
  | refusal (dev tag cause : Nat) (info : Word)
  | notYet (dev tag : Nat)
  | parked (dev tag : Nat)
  | noRoom (dev tag : Nat)
  /-- The record of a continuation at another part becomes free (R193). -/
  | recordFree (dev va : Nat)
  /-- The wake of a waiter or of an arrival of another part, by the request that parked it, with its value. -/
  | wake (dev tag : Nat) (v : Word)
  /-- A transit packet goes on to its part, and peers are told to route around a part in DRAIN (R338). -/
  | transit (dest : Nat) (bytes : List Byte)
  | routeAround (dev : Nat)
  /-- What an engine reads from or writes to another part (R232, R345). -/
  | engine (dev va : Nat) (write : Bool) (bytes : List Byte)
  /-- A chunk of a checkpoint stream (R356). -/
  | chunk (dest : Word) (bytes : List Byte)
deriving DecidableEq, Repr

/-- The island: its state, torus extents, ports that are up, the attachment, the ring (next entry, entries in use), the sends that hosts
must repeat (R350), streams, checkpoints, the eight measurement registers (R368), firmware that waits for DRAIN, the firmware that was loaded
last for the island and for the monitors, whether the island firmware has passed its measurement in BOOT, the transit packets that it holds
(number, part and bytes), the cycles in which one entered last and in which DRAIN began (R340), and PTP time in ns at CYCLE 0 (R353). -/
structure Island where
  st : IslState
  extents : Nat × Nat × Nat
  ports : List Nat
  attach : Option Attach
  next : Nat
  inUse : List Nat
  refused : List (Word × List Byte)
  streams : List Stream
  closed : List Nat
  ckpts : List Ckpt
  measures : List (List Byte)
  firmware : Option (List Byte)
  islandFw : List Byte
  monitorFw : List Byte
  passed : Bool
  transit : List (Nat × Nat × List Byte)
  lastTransit : Nat
  drainSince : Nat
  ptp : Nat
deriving DecidableEq, Repr

/-! ## Life records (R365-R367) -/

/-- The values of the life records: minutes, counters by ID × 65536 + UNIT, histogram bins by (ID × 65536 + UNIT) × 16 + bin, retirement
entries, context-lost records with the number of the oldest, the next loss number, the late-edge detections of the current minute by
die, the restarts of CYCLE (R132), and the boots of the island whose firmware failed its measurement (R340). -/
structure Life where
  minutes : Nat
  counters : Map Nat
  bins : Map Nat
  retired : List Word
  lost : List (List Word)
  lhead : Nat
  seq : Nat
  edges : Map Nat
  restarts : Nat
  bootFails : Nat
deriving DecidableEq, Repr

/-- What an event acts on; the machine loads it before the step. -/
inductive Arg where
  | nothing
  | ctx (c : CtxId)
  | num (a : Nat)
  | pair (a b : Nat)
  | triple (a b c : Nat)
  | answer (id : Nat) (v : Option Vec)
  | fault (id cause : Nat) (addr : Word)
  | line (c : CtxId) (line : Nat)
  | wake (core index id : Nat) (value : Word)
  | word (w : IWord) (index : Nat)
  | msg (m : Msg)
  | net (n : NetMsg)
  | csr (w : CsrSet)
  | host (h : HostReq)
  | rma (r : RmaReq)
  | peer (p : PeerReq)
  | packet (p : Packet)
  | flag (b : Bool)
  | minute (temps : List Nat) (power : Nat)
  | cmd (c : Cmd)
  /-- A release that stands aside behind a failed write-back of its subscriber (R248). -/
  | aside (c : Cmd)
  | system (k : Nat) (y : YWork)
deriving DecidableEq, Repr

/-- A path that keeps the order of what is sent on it (R332): a plane, a source and a destination. -/
structure Path where
  plane : Nat
  src : Nat
  dst : Nat
deriving DecidableEq, Repr

/-- A step that is to come: the cycle it is due in, the path whose order it keeps, the step, and what it acts on. -/
structure Due where
  time : Nat
  path : Option Path
  what : Instr
  arg : Arg
deriving DecidableEq, Repr

/-- The state of the machine. -/
structure State where
  /-- The device-wide count (R132). -/
  cycle : Nat
  /-- Cores whose slot of this cycle is still to come (R9). -/
  slots : List Nat
  /-- Steps to come: the machine's own, and inputs. -/
  agenda : List Due
  /-- The context whose instruction is executed. -/
  cur : CtxId
  /-- What the event that is performed acts on. -/
  arg : Arg
  /-- Latencies that the next operations take at their homes; where it is empty they take the typical figure (R334). -/
  delays : List Nat
  nextId : Nat
  freeCount : Nat
  /-- Memory: bytes by flat location, none of them 0. -/
  mem : List Host.Cell
  /-- Words whose full/empty bit is EMPTY, by the location of the word divided by 8; rising. -/
  empty : List Nat
  /-- Ranges of memory whose contents the manual leaves open. -/
  vague : List Vague
  /-- Poisoned locations of words (R358), by location divided by 8. -/
  poison : List Nat
  ctxs : Map Ctx
  cores : Map Core
  clusters : Map Cluster
  dies : Map DieState
  jobs : Map Job
  capkey : Word
  /-- The number of this device (R344). -/
  devnum : Nat
  /-- The number of the next thread; 0 is no thread, and 1 the core's own senders (R214). -/
  nextThread : Nat
  /-- Outstanding operations of threads, in the order in which they were issued. -/
  ops : List Op
  marks : List Mark
  /-- The entries of the region logs for lines of other parts. -/
  peerLog : List PeerMark
  waiters : List Waiter
  waiterSeq : Nat
  /-- The locations of the parked barrier records whose arrival was a GMAX, with the job (R201). -/
  gmaxers : List (Nat × Nat)
  /-- The parked arrivals of threads of other parts (R200, R345). -/
  peerArrivals : List PeerArrival
  subs : List Sub
  saves : List Saved
  island : Island
  /-- What the part has sent on its ports, oldest first. -/
  out : List Outgoing
  life : Life
  /-- The copy of the life records in flash (R367). -/
  flash : Life
  /-- 4 KiB granules of HBM (R321), by number, that are retired (R362). -/
  badGranules : List Nat
  /-- Dies held in RESET by their temperature (R369), the junction temperatures last measured, and the cores whose routers are
  derated (R361). -/
  hot : List Nat
  temps : List Nat
  derated : List Nat
  /-- Links between dies that have moved to their spare lane, and links retired (R360). -/
  spare : List Nat
  deadLinks : List Nat
  /-- The dies at an end of a retired link that have had a CRESET since it was retired, as link and die (R360). -/
  retrained : List (Nat × Nat)
deriving DecidableEq, Repr

/-! ## Outcomes other than a next state -/

/-- Why the machine stops with a fault. -/
inductive Fault where
  /-- An access of the monitor or of the island to a physical address at or above 432 GiB, where there is no memory (R321).
  Raised by the steps that take physical addresses; safe. -/
  | physicalHole (pa : Nat)
deriving DecidableEq, Repr

/-- Why the machine refuses to go on. -/
inductive Refusal where
  /-- An instruction that has no meaning yet: raised by its arm of `exec`; safe. -/
  | notModelled (mnemonic : String)
deriving DecidableEq, Repr

/-! ## Reset -/

/-- RNDSEED of context `k` of core (x, y) at the start of a job (R28). -/
def seedOf (core k : Nat) : BitVec 32 :=
  0x9E3779B9#32 ^^^ (BitVec.ofNat 32 (core % 48) <<< 20) ^^^ (BitVec.ofNat 32 (core / 48) <<< 12) ^^^ BitVec.ofNat 32 k

/-- A context that holds no thread, with the values of R28 and R29. -/
def Ctx.init (core k : Nat) : Ctx :=
  { st := .free, pc := 0, g := [], v := [], m := [], sr := [], pend := [], chan := 0, prio := 0, port := false,
    mxsat := false, intrap := false, trapvec := 0, trappc := 0, trapcause := 0, trapval := 0, trapinfo := 0,
    trapsave := 0, fcsr := 0, rndseed := seedOf core k, loopcnt := 0, loopstart := 0, loopend := 0, loopbuf := [],
    feretry := 64, jobsel := 0, ctxsel := 0, trapDue := none, faults := [], rewrites := [], refusals := [],
    busy := .idle, thread := 0, region := 0, handlerFirst := false, resumed := false, since := 0, watched := 0, notBefore := 0, released := none,
    blocked := false, handling := none, member := false }

/-- The monitor cores (R6). -/
def isMonitor (core : Nat) : Bool := core == 0 || core == 47 || core == 63 * 48 || core == 63 * 48 + 47

/-- The partition word of a monitor core at reset: large class, C = 4, SYS 8 (log entry 2). -/
def monitorPartword : BitVec 32 := 0x24000010#32

/-- A core at device reset. -/
def Core.init (core : Nat) : Core :=
  { owner := if isMonitor core then some 0 else none, gen := 0,
    partword := if isMonitor core then monitorPartword else 0#32,
    cancelled := false, held := false, repart := none, tags := 0, tagfault := 0, owned := 0, satTags := 0,
    fresh := (0, 0, 0), copyq := [], paused := [], tagWaiters := [], jnext := 0,
    ring := [], waits := [], parked := [], exhaustedAt := none, lists := [], pairq := none, pairWait := [],
    rule := none, pairsDue := 0 }

/-- A matrix engine at job start and after a kill (R253). -/
def Mx.init : Mx :=
  { map := [], pitch := 0, mv := false, latch := [], lctl := 0, lv := false, breg := 0, bv := false, accum := [], sat := false,
    cause := 0, faddr := 0, runs := 0 }

/-- A cluster at device reset. -/
def Cluster.init : Cluster :=
  { tlb := [], icache := [], misses := [], walked := [], gatherq := [], window := [], yserve := none, ysaved := [], mx := Mx.init, mxq := [], mxBusy := false,
    health := 0 }

/-- A job number at device reset: free with generation 0 and PTROOT 0, job 0 live (R133, R134). WDLIMIT of job 0 is 2^40
(R308). -/
def Job.init (n : Nat) : Job :=
  { st := if n = 0 then .live else .free, gen := 0, pend := false, ptroot := 0, drop := 0, cx := 0, cy := 0,
    cw := if n = 0 then 12 else 0, ch := if n = 0 then 32 else 0, trapvec := 0, wdlimit := if n = 0 then 2 ^ 40 else 2 ^ 26,
    poolBase := 0, sched := .resident, cmd := none, save := 0, icap := 0, feretry := 64, rsvb := 128, mxused := false, poolN := 0,
    rules := 0, abase := 0, atotal := 0, tnote := 0, snote := 0, qspill := 0, qscap := 0, pages := [], host := 0, lostRec := none, coset := [], comembers := [], pbase := 0, psize := 0 }

/-- The island at device reset (log entry 2). -/
def Island.init : Island :=
  { st := .forward, extents := (1, 1, 1), ports := [], attach := none, next := 0, inUse := [], refused := [], streams := [], closed := [],
    ckpts := [], measures := List.replicate 8 (List.replicate 32 0), firmware := none, islandFw := [], monitorFw := [], passed := true,
    transit := [], lastTransit := 0, drainSince := 0, ptp := Config.ptpStart }

/-- The life records of a new part. -/
def Life.init : Life := { minutes := 0, counters := [], bins := [], retired := [], lost := [], lhead := 0, seq := 0, edges := [], restarts := 0, bootFails := 0 }

/-- The task tables of the monitor cores at reset: BLK of every channel is 1 (R175), which is byte 8 of its entry. -/
def resetTasks : List Host.Cell :=
  [0, 47, 63 * 48, 63 * 48 + 47].flatMap fun core => (List.range 64).map fun ch => (2 ^ 40 + core * 2 ^ 20 + 0x1000 + 16 * ch + 8, 4)

/-- The machine right after device reset: the compute rail has just come up (R132), every die in RUN. -/
def State.reset : State :=
  { cycle := 0, slots := [], agenda := [], cur := ⟨0, 0⟩, arg := .nothing, delays := [], nextId := 0, freeCount := 0,
    mem := resetTasks, empty := [], vague := [], poison := [], ctxs := [], cores := [], clusters := [], dies := [], jobs := [],
    capkey := Config.capKey, devnum := 0, nextThread := 2, ops := [], marks := [], peerLog := [], waiters := [], waiterSeq := 0,
    gmaxers := [], peerArrivals := [], subs := [], saves := [], island := Island.init, out := [], life := Life.init, flash := Life.init,
    badGranules := [], hot := [], temps := [], derated := [], spare := [], deadLinks := [], retrained := [] }

end Sys2Proof.Machine
end

