-- ==== Sys2Proof/Machine/Bits.lean ====
section
/-!
DEFINITION. Bit fields, sign extension, and byte order (R3, R5).
-/
namespace Sys2Proof.Machine

/-- Bits `hi : lo` of a number (R5). -/
def nbits (x hi lo : Nat) : Nat := x / 2 ^ lo % 2 ^ (hi + 1 - lo)

/-- Bits `hi : lo` of a word (R5). -/
def bits (w : Word) (hi lo : Nat) : Nat := nbits w.toNat hi lo

/-- Bit `n` of a word. -/
def bit (w : Word) (n : Nat) : Bool := w.getLsbD n

/-- A word of a number, cut to 64 bits. -/
def word (n : Nat) : Word := BitVec.ofNat 64 n

/-- A word of an integer, cut to 64 bits. -/
def wordI (i : Int) : Word := BitVec.ofInt 64 i

/-- The word with bits `hi : lo` replaced. -/
def setBits (w : Word) (hi lo v : Nat) : Word :=
  word (w.toNat - nbits w.toNat hi lo * 2 ^ lo + v % 2 ^ (hi + 1 - lo) * 2 ^ lo)

/-- The two's-complement value of the low `n` bits of `x` (R5). -/
def sextN (x n : Nat) : Int :=
  let y := x % 2 ^ n
  if y < 2 ^ (n - 1) then y else (y : Int) - 2 ^ n

/-- An integer as `n` bits. -/
def toBitsN (i : Int) (n : Nat) : Nat := (i % (2 ^ n : Int)).toNat

/-- The number of ones among the low `n` bits. -/
def popN : Nat → Nat → Nat
  | 0, _ => 0
  | n + 1, x => x % 2 + popN n (x / 2)

/-- The number that a list of bytes stands for, lowest byte first (R3). -/
def leNat : List Byte → Nat
  | [] => 0
  | b :: bs => b.toNat + 256 * leNat bs

/-- The low `n` bytes of a number, lowest first (R3). -/
def leBytes : Nat → Nat → List Byte
  | 0, _ => []
  | n + 1, x => BitVec.ofNat 8 x :: leBytes n (x / 256)

/-- floor(log2 x), 0 for 0. -/
def log2 (x : Nat) : Nat := Nat.log2 x

/-- A condition as a bit in its place. -/
def bitAt (b : Bool) (n : Nat) : Nat := if b then 2 ^ n else 0

end Sys2Proof.Machine
end

