-- ==== Sys2Proof/Machine/Map.lean ====
section
/-!
DEFINITION. Reading and writing indexed data in its canonical form: indexes strictly rising and no entry equal to what an
unlisted index reads as, so that equal contents are equal lists.
-/
namespace Sys2Proof.Machine

/-- What index `k` of `m` holds; `d` where it is not listed. -/
def mget {α : Type} (d : α) : Map α → Nat → α
  | [], _ => d
  | (j, x) :: r, k => if j = k then x else mget d r k

/-- `m` without index `k`. -/
def mdel {α : Type} : Map α → Nat → Map α
  | [], _ => []
  | (j, x) :: r, k => if j = k then r else (j, x) :: mdel r k

/-- `m` with an entry for `k` put in its place, whatever it holds. -/
def mput {α : Type} : Map α → Nat → α → Map α
  | [], k, x => [(k, x)]
  | (j, y) :: r, k, x =>
    if j = k then (k, x) :: r else if k < j then (k, x) :: (j, y) :: r else (j, y) :: mput r k x

/-- `m` with `k` holding `x`: no entry is kept for the default. -/
def mset {α : Type} [DecidableEq α] (d : α) (m : Map α) (k : Nat) (x : α) : Map α :=
  if x = d then mdel m k else mput m k x

/-- The indexes listed are above `lo`, strictly rising, and hold no default. -/
def mwfFrom {α : Type} [DecidableEq α] (d : Nat → α) : Nat → Map α → Bool
  | _, [] => true
  | lo, (j, x) :: r => decide (lo ≤ j) && decide (x ≠ d j) && mwfFrom d (j + 1) r

/-- The canonical form. -/
def mwf {α : Type} [DecidableEq α] (d : Nat → α) (m : Map α) : Bool := mwfFrom d 0 m

/-- A rising list of numbers without repeats, with `k` in it or not. -/
def nset (l : List Nat) (k : Nat) (on : Bool) : List Nat :=
  match l with
  | [] => if on then [k] else []
  | j :: r =>
    if j = k then (if on then j :: r else r)
    else if k < j then (if on then k :: j :: r else j :: r)
    else j :: nset r k on

end Sys2Proof.Machine
end

