-- ==== Sys2Proof/Machine/Ops.lean ====
section
/-!
DEFINITION. The named operations over the state: contexts, cores, clusters and jobs by index; registers; memory; addresses;
the agenda; outstanding operations; taking a trap and returning to a thread's next instruction; and the shared wrapper of
every instruction, which makes the checks of R54 in their order.
-/
namespace Sys2Proof.Machine

open Sys2Proof

/-! ## Contexts, cores, clusters, jobs -/

/-- The index of a context in `State.ctxs`. -/
def ctxKey (c : CtxId) : Nat := c.core * 16 + c.k

def State.ctx (s : State) (c : CtxId) : Ctx := mget (Ctx.init c.core c.k) s.ctxs (ctxKey c)

def State.setCtx (s : State) (c : CtxId) (x : Ctx) : State :=
  { s with ctxs := mset (Ctx.init c.core c.k) s.ctxs (ctxKey c) x }

def State.core (s : State) (c : Nat) : Core := mget (Core.init c) s.cores c

def State.setCore (s : State) (c : Nat) (x : Core) : State := { s with cores := mset (Core.init c) s.cores c x }

def State.cluster (s : State) (k : Nat) : Cluster := mget Cluster.init s.clusters k

def State.setCluster (s : State) (k : Nat) (x : Cluster) : State :=
  { s with clusters := mset Cluster.init s.clusters k x }

def State.job (s : State) (n : Nat) : Job := mget (Job.init n) s.jobs n

def State.setJob (s : State) (n : Nat) (x : Job) : State := { s with jobs := mset (Job.init n) s.jobs n x }

def State.die (s : State) (d : Nat) : DieState := mget .run s.dies d

def State.setDie (s : State) (d : Nat) (x : DieState) : State := { s with dies := mset .run s.dies d x }

/-- The column of a core (R2). -/
def xOf (core : Nat) : Nat := core % 48

/-- The row of a core (R2). -/
def yOf (core : Nat) : Nat := core / 48

/-- The core at a place of the mesh. -/
def coreAt (x y : Nat) : Nat := 48 * y + x

/-- The cluster of a core (R2). -/
def clusterOf (core : Nat) : Nat := 12 * (yOf core / 2) + xOf core / 4

/-- The eight cores of a cluster. -/
def clusterCores (k : Nat) : List Nat :=
  (List.range 8).map fun i => coreAt (4 * (k % 12) + i % 4) (2 * (k / 12) + i / 4)

/-- The die of a core (R2). -/
def dieOf (core : Nat) : Nat := yOf core / 32 * 2 + xOf core / 24

/-- The monitor core of a die (R6). -/
def monitorOf (die : Nat) : Nat := coreAt (if die % 2 = 0 then 0 else 47) (if die / 2 = 0 then 0 else 63)

/-- A core as an absolute coordinate field (R24). -/
def coordField (core : Nat) : Nat := 0x4000 + xOf core * 128 + yOf core

/-- The core that an absolute coordinate field names, when it lies in the mesh (R24). -/
def coreOfField (f : Nat) : Option Nat :=
  if nbits f 13 7 ≤ 47 ∧ nbits f 6 0 ≤ 63 then some (coreAt (nbits f 13 7) (nbits f 6 0)) else none

/-- The CORE address of an offset in a core's pool (R22). -/
def coreAddr (core off : Nat) : Word := word (2 ^ 61 + xOf core * 2 ^ 53 + yOf core * 2 ^ 46 + off)

/-- A job number and generation in JOBID form (R19). -/
def jobid (job gen : Nat) : Nat := gen % 1024 * 64 + job % 64

/-- The job number that holds a core; 64 names none. -/
def State.jobOf (s : State) (core : Nat) : Nat := (s.core core).owner.getD 64

/-- The number of contexts of a core: C = 2 << CTXL (R10). -/
def ctxCount (w : BitVec 32) : Nat := 2 * 2 ^ nbits w.toNat 27 26

/-- The scalar registers of a partition word's class: 16, 32 or 64 (R13). -/
def classG (w : BitVec 32) : Nat := 16 * 2 ^ nbits w.toNat 29 28

/-- The vector registers of a partition word's class: 8, 16 or 32 (R13). -/
def classV (w : BitVec 32) : Nat := 8 * 2 ^ nbits w.toNat 29 28

/-- SYS, ACC and SPAD of a partition word (R10). -/
def partSys (w : BitVec 32) : Nat := nbits w.toNat 7 1
def partAcc (w : BitVec 32) : Nat := nbits w.toNat 16 8
def partSpad (w : BitVec 32) : Nat := nbits w.toNat 25 17

/-- The first byte of the system area in a pool (R12). -/
def sysBase : Nat := 0x1000

/-- Whether a core lies in the rectangle of a job; the rectangle of job 0 is the whole mesh (R177). -/
def State.inRect (s : State) (job core : Nat) : Bool :=
  let j := s.job job
  job == 0 || (decide (4 * j.cx ≤ xOf core) && decide (xOf core < 4 * (j.cx + j.cw))
    && decide (2 * j.cy ≤ yOf core) && decide (yOf core < 2 * (j.cy + j.ch)))

/-- Whether a cluster lies in the rectangle of a job. -/
def State.clusterInRect (s : State) (job k : Nat) : Bool :=
  let j := s.job job
  job == 0 || (decide (j.cx ≤ k % 12) && decide (k % 12 < j.cx + j.cw)
    && decide (j.cy ≤ k / 12) && decide (k / 12 < j.cy + j.ch))

/-- The cores of a job's rectangle, row by row. -/
def State.rectCores (s : State) (job : Nat) : List Nat :=
  let j := s.job job
  (List.range (2 * j.ch)).flatMap fun r =>
    (List.range (4 * j.cw)).map fun q => coreAt (4 * j.cx + q) (2 * j.cy + r)

/-- The clusters of a job's rectangle. -/
def State.rectClusters (s : State) (job : Nat) : List Nat :=
  let j := s.job job
  (List.range j.ch).flatMap fun r => (List.range j.cw).map fun q => 12 * (j.cy + r) + j.cx + q

/-- The contexts of a core, in number order. -/
def State.coreCtxs (s : State) (core : Nat) : List CtxId :=
  (List.range (ctxCount (s.core core).partword)).map fun k => ⟨core, k⟩

/-- Whether homes accept a stamp (R134, R320): the job is live or cancelled, and the generation is current. -/
def State.stampOk (s : State) (job gen : Nat) : Bool :=
  ((s.job job).st == .live || (s.job job).st == .cancelled) && (s.job job).gen == gen

/-! ## Registers (R13, R14) -/

/-- g[n]; g0 reads as zero. -/
def Ctx.getG (x : Ctx) (n : Nat) : Word := if n = 0 then 0 else mget 0 x.g n

/-- g[n] ← w; a write to g0 is discarded. -/
def Ctx.setG (x : Ctx) (n : Nat) (w : Word) : Ctx := if n = 0 then x else { x with g := mset 0 x.g n w }

/-- v[n]. -/
def Ctx.getV (x : Ctx) (n : Nat) : Vec := mget 0 x.v n

/-- v[n] ← w. -/
def Ctx.setV (x : Ctx) (n : Nat) (w : Vec) : Ctx := { x with v := mset 0 x.v n w }

/-- m[n]; m0 reads as 0xFFFF. -/
def Ctx.getM (x : Ctx) (n : Nat) : BitVec 16 := if n = 0 then 0xFFFF else mget 0 x.m n

/-- m[n] ← w; a write to m0 is discarded. -/
def Ctx.setM (x : Ctx) (n : Nat) (w : BitVec 16) : Ctx := if n = 0 then x else { x with m := mset 0 x.m n w }

/-- s[n], a stream register. -/
def Ctx.getS (x : Ctx) (n : Nat) : Word := mget 0 x.sr n

/-- s[n] ← w. -/
def Ctx.setS (x : Ctx) (n : Nat) (w : Word) : Ctx := { x with sr := mset 0 x.sr n w }

/-- Writes a result to the register a long operation names (R43); a vector register takes all 128 bits. -/
def Ctx.setReg (x : Ctx) (r : Reg) (v : Vec) : Ctx :=
  match r with
  | .g n => x.setG n (v.truncate 64)
  | .v n => x.setV n v

/-- Sets the pending bit of a register (R15); g0 has none (R44). -/
def Ctx.setPend (x : Ctx) (r : Reg) : Ctx :=
  if r = .g 0 then x else { x with pend := if x.pend.contains r then x.pend else r :: x.pend }

/-- Clears the pending bit of a register. -/
def Ctx.clearPend (x : Ctx) (r : Reg) : Ctx := { x with pend := x.pend.filter (· != r) }

/-! ## The agenda -/

/-- Puts a step on the agenda, `dt` cycles from now, behind every step already there on its path. -/
def State.later (s : State) (dt : Nat) (path : Option Path) (what : Instr) (arg : Arg) : State :=
  { s with agenda := s.agenda ++ [{ time := s.cycle + dt, path := path, what := what, arg := arg }] }

/-- Puts a step on the agenda ahead of the steps already there on its path: it is presented again (R183). -/
def State.again (s : State) (dt : Nat) (path : Option Path) (what : Instr) (arg : Arg) : State :=
  { s with agenda := { time := s.cycle + dt, path := path, what := what, arg := arg } :: s.agenda }

/-- The latency of the next operation at a home: the next of `delays`, or the typical figure (R334). -/
def State.latency (s : State) (typical : Nat) : Nat × State :=
  match s.delays with
  | [] => (typical, s)
  | d :: r => (d, { s with delays := r })

/-- Hops between two cores by XY routing (R332). -/
def hops (a b : Nat) : Nat :=
  (xOf a - xOf b) + (xOf b - xOf a) + (yOf a - yOf b) + (yOf b - yOf a)

/-- Die crossings between two cores by XY routing (R334). -/
def crossings (a b : Nat) : Nat :=
  (if xOf a / 24 = xOf b / 24 then 0 else 1) + (if yOf a / 32 = yOf b / 32 then 0 else 1)

/-- The planes of the mesh (R331). -/
def planeRequest : Nat := 0
def planeResponse : Nat := 1
def planeMessage : Nat := 2
def planeBulk : Nat := 3

/-! ## Memory -/

/-- The path of an engine's data, by the engine as a number (R331). -/
def bulkPath (unit : Nat) : Option Path := some ⟨planeBulk, unit, unit⟩

/-- The path of a checkpoint stream of a job (R331, R356). -/
def ckptPath (job : Nat) : Option Path := bulkPath (2 ^ 23 + job)

/-- The flat location of an offset in a core's pool. -/
def poolLoc (core off : Nat) : Nat := 2 ^ 40 + core * 2 ^ 20 + off

/-- The flat location of an offset in a cluster's store. -/
def storeLoc (k off : Nat) : Nat := 2 ^ 42 + k * 2 ^ 21 + off

/-- The homes (R143): a core pool, a cluster store, an HBM stack. -/
inductive Home where
  | pool (core : Nat)
  | store (k : Nat)
  | stack (n : Nat)
deriving DecidableEq, Repr

/-- The HBM stack of a physical address (R321). -/
def stackOf (pa : Nat) : Nat :=
  let g := pa / 4096
  let q := g / 12
  (g % 12 + (q ^^^ (q / 64) ^^^ (q / 4096)) % 12) % 12

/-- The home of a flat location (R143). -/
def homeOf (loc : Nat) : Home :=
  if 2 ^ 42 ≤ loc then .store ((loc - 2 ^ 42) / 2 ^ 21)
  else if 2 ^ 40 ≤ loc then .pool ((loc - 2 ^ 40) / 2 ^ 20)
  else .stack (stackOf loc)

/-- A home as a number, for the paths to it. -/
def Home.num : Home → Nat
  | .pool c => c
  | .store k => 4096 + k
  | .stack n => 8192 + n

/-- The die on which a home stands (R333). -/
def Home.die : Home → Nat
  | .pool c => dieOf c
  | .store k => dieOf (coreAt (4 * (k % 12)) (2 * (k / 12)))
  | .stack n => n / 3

/-- Whether a byte of a range of HBM lies in a retired granule (R362). -/
def State.granuleRetired (s : State) (loc n : Nat) : Bool :=
  decide (loc < 2 ^ 40) && s.badGranules.any fun g => decide (4096 * g < loc + n) && decide (loc < 4096 * (g + 1))

/-- Whether a die does not operate (R339). -/
def State.anyDown (s : State) : Bool := s.dies.any fun p => p.2 == .off || p.2 == .reset

/-- Whether the home of a location does not operate, because its die is OFF or in RESET (R339). -/
def State.homeDown (s : State) (loc : Nat) : Bool :=
  let d := s.die (homeOf loc).die
  d == .off || d == .reset

/-- The first and the last router of a stack's segment, as cores (R333). -/
def stackSegment (n : Nat) : Nat × Nat :=
  match n with
  | 0 => (coreAt 0 0, coreAt 0 15)
  | 1 => (coreAt 0 16, coreAt 0 31)
  | 2 => (coreAt 0 0, coreAt 23 0)
  | 3 => (coreAt 24 0, coreAt 47 0)
  | 4 => (coreAt 47 0, coreAt 47 15)
  | 5 => (coreAt 47 16, coreAt 47 31)
  | 6 => (coreAt 0 32, coreAt 0 47)
  | 7 => (coreAt 0 48, coreAt 0 63)
  | 8 => (coreAt 0 63, coreAt 23 63)
  | 9 => (coreAt 24 63, coreAt 47 63)
  | 10 => (coreAt 47 32, coreAt 47 47)
  | _ => (coreAt 47 48, coreAt 47 63)

/-- The router at which a core's packet enters a stack (R333): the core's place clamped to the segment. -/
def stackEntry (core n : Nat) : Nat :=
  let (a, b) := stackSegment n
  coreAt (min (max (xOf core) (xOf a)) (xOf b)) (min (max (yOf core) (yOf a)) (yOf b))

/-- The typical latency of an access from a core to a home (R334); an HBM access is taken to hit, and the island, the home
of accesses to other devices, to lie at 60. -/
def typical (core : Nat) : Home → Nat
  | .pool c => if c = core then 5 else 20 + 2 * hops core c + 12 * crossings core c
  | .store k =>
    if k = clusterOf core then 30
    else if 384 ≤ k then 60
    else
      let e := coreAt (4 * (k % 12)) (2 * (k / 12))
      30 + 2 * hops core e + 12 * crossings core e
  | .stack n => 180 + 12 * crossings core (stackEntry core n)

/-- The cores that XY routing passes from one core to another, the last included (R332). -/
def route (a b : Nat) : List Nat :=
  let row := (List.range (max (xOf a) (xOf b) - min (xOf a) (xOf b) + 1)).map fun i => coreAt (min (xOf a) (xOf b) + i) (yOf a)
  let col := (List.range (max (yOf a) (yOf b) - min (yOf a) (yOf b) + 1)).map fun i => coreAt (xOf b) (min (yOf a) (yOf b) + i)
  ((row ++ col).filter (· != a)).eraseDups

/-- The router at which an access of a core enters its home. -/
def homeEntry (core : Nat) : Home → Nat
  | .pool c => c
  | .store k => if 384 ≤ k then core else coreAt (4 * (k % 12)) (2 * (k / 12))
  | .stack n => stackEntry core n

/-- What derated routers add to a latency: each hop of a router that is derated takes twice its two cycles (R334, R361). -/
def State.slow (s : State) (core : Nat) (h : Home) : Nat :=
  if s.derated.isEmpty then 0 else 2 * ((route core (homeEntry core h)).filter fun c => s.derated.contains c).length

/-- Whether a location's contents are open as a range says. -/
def Vague.covers (r : Vague) (loc : Nat) : Bool :=
  decide (r.base ≤ loc) && decide (loc < r.base + r.len) && (r.onStacks.isEmpty || r.onStacks.contains (stackOf loc))

/-- One byte of memory as it stands. -/
def State.byte (s : State) (loc : Nat) : Byte :=
  match s.vague.find? fun r => r.covers loc with
  | some r => Config.freeByte (r.num * 2 ^ 48 + loc)
  | none => mget 0 s.mem loc

/-- Removes one location from the ranges of open contents. -/
def carve (loc : Nat) : List Vague → List Vague
  | [] => []
  | v :: r =>
    if v.base ≤ loc ∧ loc < v.base + v.len then
      (if v.base < loc then [{ v with len := loc - v.base }] else [])
        ++ (if loc + 1 < v.base + v.len then [{ v with base := loc + 1, len := v.base + v.len - (loc + 1) }] else []) ++ carve loc r
    else v :: carve loc r

/-- Writes one byte of memory. -/
def State.setByte (s : State) (loc : Nat) (b : Byte) : State :=
  { s with mem := mset 0 s.mem loc b, vague := if s.vague.isEmpty then s.vague else carve loc s.vague }

/-- The number in `n` bytes from a location on, lowest byte first (R3). -/
def State.read (s : State) (loc : Nat) : Nat → Nat
  | 0 => 0
  | n + 1 => (s.byte loc).toNat + 256 * s.read (loc + 1) n

/-- Writes the low `n` bytes of a number (R3). -/
def State.write (s : State) (loc : Nat) : Nat → Nat → State
  | 0, _ => s
  | n + 1, v => (s.setByte loc (BitVec.ofNat 8 v)).write (loc + 1) n (v / 256)

/-- The bytes of a range. -/
def State.readBytes (s : State) (loc n : Nat) : List Byte := (List.range n).map fun i => s.byte (loc + i)

/-- Writes a list of bytes. -/
def State.writeBytes (s : State) (loc : Nat) : List Byte → State
  | [] => s
  | b :: bs => (s.setByte loc b).writeBytes (loc + 1) bs

/-- The word at a location. -/
def State.rd64 (s : State) (loc : Nat) : Word := word (s.read loc 8)

/-- Writes the word at a location. -/
def State.wr64 (s : State) (loc : Nat) (w : Word) : State := s.write loc 8 w.toNat

/-- The words from a location on. -/
def State.rdWords (s : State) (loc n : Nat) : List Word := (List.range n).map fun i => s.rd64 (loc + 8 * i)

/-- Writes words from a location on. -/
def State.wrWords (s : State) (loc : Nat) : List Word → State
  | [] => s
  | w :: ws => (s.wr64 loc w).wrWords (loc + 8) ws

/-- Makes the contents of a range open: nothing says what it reads as until it is written. -/
def State.makeVague (s : State) (loc n : Nat) : State :=
  if n = 0 then s
  else { s with vague := ⟨loc, n, s.freeCount, []⟩ :: s.vague, freeCount := s.freeCount + 1 }

/-- Whether the word at a location is full (R25). -/
def State.full (s : State) (loc : Nat) : Bool := !(s.empty.contains (loc / 8))

/-- Sets the full/empty bit of the word at a location. -/
def State.setFull (s : State) (loc : Nat) (full : Bool) : State := { s with empty := nset s.empty (loc / 8) (!full) }

/-! ## Poison (R358) -/

/-- The words of a range of locations. -/
def wordsOf (loc n : Nat) : List Nat := (List.range ((loc + n - 1) / 8 + 1 - loc / 8)).map fun i => loc / 8 + i

/-- The first poisoned word of a range, as a location. -/
def State.poisoned (s : State) (loc n : Nat) : Option Nat :=
  if s.poison.isEmpty || n == 0 then none else ((wordsOf loc n).find? fun w => s.poison.contains w).map fun w => 8 * w

/-- A store of all 8 bytes of a poisoned word clears its poison. -/
def State.cleanse (s : State) (loc n : Nat) : State :=
  if s.poison.isEmpty then s
  else { s with poison := s.poison.filter fun w => !(decide (loc ≤ 8 * w) && decide (8 * w + 8 ≤ loc + n)) }

/-- The poisoned word that a store of `n` bytes merges into. -/
def State.mergesPoison (s : State) (loc n : Nat) : Option Nat :=
  if s.poison.isEmpty || n == 0 then none
  else ((wordsOf loc n).find? fun w => s.poison.contains w && !(decide (loc ≤ 8 * w) && decide (8 * w + 8 ≤ loc + n))).map
    fun w => 8 * w

/-! ## Addresses (R22, R23) -/

/-- Where an address points once its form has been checked. -/
inductive Place where
  | pool (core off : Nat)
  | store (k off : Nat)
  | device (va : Nat)
  | peer (dev va : Nat)
deriving DecidableEq, Repr

/-- Cause codes (R120). -/
def cIllegal : Nat := 0x01
def cRegAllot : Nat := 0x02
def cPending : Nat := 0x03
def cPrivilege : Nat := 0x04
def cMisalign : Nat := 0x05
def cBounds : Nat := 0x06
def cPage : Nat := 0x07
def cProtect : Nat := 0x08
def cRace : Nat := 0x09
def cOverrun : Nat := 0x0A
def cMesh : Nat := 0x0B
def cJournal : Nat := 0x0C
def cEndpoint : Nat := 0x0D
def cCapRefused : Nat := 0x0E
def cDangling : Nat := 0x0F
def cPool : Nat := 0x10
def cIntegrity : Nat := 0x11
def cUncorrectable : Nat := 0x12
def cDxOverflow : Nat := 0x13
def cLoopForm : Nat := 0x14
def cSoftware : Nat := 0x15
def cBreak : Nat := 0x16
def cHandlerFetch : Nat := 0x17
def cWatchdog : Nat := 0x18

/-- An exact trap (R119). -/
def exact (cause : Nat) (value info : Word) : Trap := ⟨.exact, cause, value, info, none⟩

/-- The checks of R23 that need no home: form, mesh and rectangle. -/
def State.place (s : State) (core : Nat) (a : Word) : Except Trap Place :=
  let err (c : Nat) : Except Trap Place := .error (exact c a 0)
  match bits a 63 61 with
  | 0 => if bits a 60 20 ≠ 0 then err cBounds else .ok (.pool core (bits a 19 0))
  | 1 =>
    if bits a 60 60 ≠ 0 ∨ bits a 45 20 ≠ 0 then err cBounds
    else if bits a 59 53 > 47 ∨ bits a 52 46 > 63 then err cMesh
    else if !s.inRect (s.jobOf core) (coreAt (bits a 59 53) (bits a 52 46)) then err cProtect
    else .ok (.pool (coreAt (bits a 59 53) (bits a 52 46)) (bits a 19 0))
  | 2 =>
    if bits a 60 60 ≠ 0 ∨ bits a 50 21 ≠ 0 then err cBounds
    else if bits a 59 56 > 11 ∨ bits a 55 51 > 31 then err cMesh
    else if !s.clusterInRect (s.jobOf core) (12 * bits a 55 51 + bits a 59 56) then err cProtect
    else .ok (.store (12 * bits a 55 51 + bits a 59 56) (bits a 20 0))
  | 3 => if bits a 60 48 ≠ 0 then err cBounds else .ok (.device (bits a 47 0))
  | 4 =>
    if bits a 60 58 ≠ 0 ∨ bits a 57 48 > 767 then err cBounds
    else if bits a 57 48 = s.devnum then .ok (.device (bits a 47 0))
    else .ok (.peer (bits a 57 48) (bits a 47 0))
  | _ => err cBounds

/-- The SELF space (R22). -/
def isSelf (a : Word) : Bool := bits a 63 61 == 0

/-- The PEER space (R22): an ordered access to it has DOM scope (R37). -/
def isPeer (a : Word) : Bool := bits a 63 61 == 4

/-- The scope of an ordered access by its address (R37); a PEER address that names this device has DOM scope (R23). -/
def scopeOf (a : Word) : FScope := if isPeer a then .dom else .dev

/-- The bytes of a list's area (R280). -/
def ListEntry.areaBytes (l : ListEntry) : Nat :=
  4096 * 8 * (if l.wide then 2 else 1) + (if l.dedup then 16384 else 0)

/-- Whether an offset of a core's pool lies in the area of a live or faulted work list (R280). -/
def Core.inListArea (c : Core) (off : Nat) : Bool :=
  (c.lists ++ c.pairq.toList).any fun l => decide (l.area ≤ off) && decide (off < l.area + l.areaBytes)

/-- Whether R12, R280 refuse an access of a job to an offset of a core's pool. -/
def State.poolProtected (s : State) (job core off : Nat) : Bool :=
  off / 4096 == 0 || (decide (off / 4096 ≤ partSys (s.core core).partword) && job != 0) || (s.core core).inListArea off

/-- Whether R240 keeps an offset of a cluster store from plain accesses: the engine save area and the window page. -/
def storeProtected (off : Nat) : Bool := decide (0x1FDF00 ≤ off)

/-- Whether any byte of a range of a pool is protected. -/
def State.poolRangeProtected (s : State) (job core off n : Nat) : Bool :=
  (List.range n).any fun i => s.poolProtected job core (off + i)

/-! ## Outstanding operations -/

/-- Whether a body counts as outstanding for R46: the long operations of R44 and the message-plane and work-list
operations (R182, R283); not posted stores, fences, link operations (R215), or the requests that a context waits
for at the instruction itself. -/
def OpBody.isLong : OpBody → Bool
  | .store _ _ _ | .fence | .park _ _ _ | .arrive _ _ _ | .nseal | .nkill | .link _ | .relink _ | .command _ => false
  | _ => true

/-- The operations of the thread that a context holds. -/
def State.opsOf (s : State) (c : CtxId) : List Op :=
  s.ops.filter fun o => o.ctx == c && o.record.isNone && o.thread == (s.ctx c).thread

/-- Whether a context has an outstanding long operation (R46). -/
def State.outstanding (s : State) (c : CtxId) : Bool := (s.opsOf c).any fun o => o.body.isLong

/-- Whether an instruction of R142 is outstanding: ICINV, TLBINV, REPART, KILLJ or CANCELJ. -/
def OpBody.isSystem : OpBody → Bool
  | .icinv _ | .tlbinv _ | .repart | .killj | .cancelj => true
  | _ => false

/-- Whether a body is a message-plane operation (R182). -/
def OpBody.isMessage : OpBody → Bool
  | .send _ _ _ _ | .resume _ | .taskset _ _ _ _ _ => true
  | _ => false

/-- Whether a body is a work-list operation (R283). -/
def OpBody.isList : OpBody → Bool
  | .wlinit | .wlpush _ | .wlinsu _ | .wlpopb _ _ | .wlcount | .wldrain | .popped _ _ _ => true
  | _ => false

/-- Whether a body is a link operation (R215). -/
def OpBody.isLink : OpBody → Bool
  | .nseal | .nkill | .link _ | .relink _ => true
  | _ => false

/-- The operation with an identifier. -/
def State.op (s : State) (id : Nat) : Option Op := s.ops.find? fun o => o.id == id

/-- Replaces the operation with the identifier of `o`. -/
def State.setOp (s : State) (o : Op) : State := { s with ops := s.ops.map fun p => if p.id = o.id then o else p }

/-- Removes an operation. -/
def State.dropOp (s : State) (id : Nat) : State := { s with ops := s.ops.filter fun o => o.id != id }

/-- Adds an operation under the next identifier. -/
def State.addOp (s : State) (o : Op) : State :=
  { s with ops := s.ops ++ [{ o with id := s.nextId }], nextId := s.nextId + 1 }

/-- An operation that a context issues at its program counter, with everything else at its plain value. -/
def State.newOp (s : State) (c : CtxId) (w : IWord) (addr : Word) (body : OpBody) (dst : Option Reg) : Op :=
  { id := s.nextId, ctx := c, thread := (s.ctx c).thread, record := none, job := s.jobOf c.core,
    gen := (s.core c.core).gen, pc := (s.ctx c).pc, word := w, addr := addr, body := body, dst := dst, ord := .plain,
    scope := .dev, plain := false, region := (s.ctx c).region, fallible := false, jidx := none, mx := false,
    reason := 0, reported := false, left := false, loc := none, performed := false, deadline := 0, parked := false, widx := none, wrec := none,
    replay := false, blocking := false }

/-- The journal of a core: its operations that hold a journal entry, oldest first (R150). -/
def State.journal (s : State) (core : Nat) : List Op := s.ops.filter fun o => o.ctx.core == core && o.jidx.isSome

/-! ## Taking a trap (R119-R128) -/

/-- The code of a kind of trap (R119). -/
def TrapKind.code : TrapKind → Nat
  | .exact => 0 | .markerPrecise => 1 | .asynchronous => 2 | .contextLost => 3

/-- A message of the hardware to the monitor core of a die: job 0, on the channel that the device gives its cause. -/
def State.tellMonitor (s : State) (src die cause : Nat) (payload : List Word) : State :=
  s.later 1 (some ⟨planeMessage, src, monitorOf die⟩) .messageArrive
    (.msg { job := 0, gen := (s.job 0).gen, src := src, target := monitorOf die,
            body := .start (Config.monitorChan cause).toNat payload.length payload, op := none, via := src })

/-- The torus position of a device (R344). -/
def torusOf (n : Nat) : Nat × Nat × Nat := (n % 8, n / 8 % 8, n / 64)

/-- The device that a torus port leads to (R344): ports 2a and 2a + 1 lead in direction a of +x, −x, +y, −y, +z, −z, around the extents. -/
def State.neighbour (s : State) (p : Nat) : Nat :=
  let (x, y, z) := torusOf s.devnum
  let (ex, ey, ez) := s.island.extents
  let turn (v e : Nat) : Nat := (if p / 2 % 2 = 0 then v + 1 else v + max 1 e - 1) % max 1 e
  match p / 4 with
  | 0 => turn x ex + 8 * y + 64 * z
  | 1 => x + 8 * turn y ey + 64 * z
  | _ => x + 8 * y + 64 * turn z ez

/-- Whether a path leads to another part (R342, R344): it lies within the extents, and a torus port to a neighbour is up. -/
def State.torusUp (s : State) (dev : Nat) : Bool :=
  let (tx, ty, tz) := torusOf dev
  let (ex, ey, ez) := s.island.extents
  decide (tx < ex) && decide (ty < ey) && decide (tz < ez) && s.island.ports.any fun p => decide (p < 12) && s.neighbour p != s.devnum

/-- Whether a request can leave for another part (R341, R342): a path leads there, and the island carries traffic of its own part. -/
def State.peerUp (s : State) (dev : Nat) : Bool := (s.island.st == .forward || s.island.st == .full) && s.torusUp dev

/-- PTP time in ns (R353): the time at CYCLE 0, and 20 ns for every 21 cycles since. -/
def State.ptpNow (s : State) : Nat := s.island.ptp + s.cycle * 20 / 21

/-- The island leaves FULL for FORWARD when no die is in RUN (R340). -/
def State.afterDies (s : State) : State :=
  if s.island.st = .full ∧ !((List.range 4).any fun d => s.die d == .run) then { s with island := { s.island with st := .forward } } else s

/-- A die in RUN enters HUNG (R339, R340). -/
def State.hang (s : State) (d : Nat) : State := if s.die d = .run then (s.setDie d .hung).afterDies else s

/-- R128: the context enters FROZEN and keeps its trap record, and the monitor of its die is told. In job 0 the die
enters HUNG (R129). -/
def State.freeze (s : State) (c : CtxId) : State :=
  let x := s.ctx c
  let co := s.core c.core
  let s := s.setCtx c { x with st := .frozen, busy := .idle, trapDue := none }
  let s := s.tellMonitor c.core (dieOf c.core) cHandlerFetch
    [word (jobid (s.jobOf c.core) co.gen), word (c.k * 2 ^ 16 + coordField c.core), x.trapvec, x.trapcause]
  if s.jobOf c.core = 0 then s.hang (dieOf c.core) else s

/-- Whether a trap is the LOOP_FORM of R73, which abandons the loop. -/
def Trap.leavesLoop (t : Trap) : Bool := t.cause == cLoopForm && decide (t.info.toNat ≤ 1)

/-- The context right after the record of a trap has been made (R121). -/
def Ctx.trapRecord (x : Ctx) (t : Trap) : Ctx :=
  { x with st := .running, trapcause := word (t.kind.code * 256 + t.cause), trapval := t.value, trapinfo := t.info,
           trappc := t.pc.getD x.pc, intrap := true, loopbuf := [], busy := .idle, trapDue := none,
           handlerFirst := true, resumed := false, blocked := false, loopcnt := if t.leavesLoop then 0 else x.loopcnt, pc := word (bits x.trapvec 63 2 * 4) }

/-- Taking a trap (R121): the record, INTRAP, the handler's address; a TRAPVEC of 0 freezes the context (R128). -/
def State.takeTrap (s : State) (c : CtxId) (t : Trap) : State :=
  let s' := s.setCtx c ((s.ctx c).trapRecord t)
  if bits (s.ctx c).trapvec 63 2 = 0 then s'.freeze c else s'

/-- Whether a fault entry can be reported now (R123). -/
def FaultEntry.eligible (x : Ctx) (f : FaultEntry) : Bool := !f.reported && !f.reissued && (!x.intrap || f.inTrap)

/-- The number that the next report of an entry of a fault list takes: above those of the entries reported before (R127). -/
def nextReport (fs : List FaultEntry) : Nat := fs.foldl (fun n f => max n f.order) 0 + 1

/-- The marker-precise trap for the oldest eligible entry of the fault list, with the entry marked (R123). -/
def Ctx.faultTrap (x : Ctx) : Option (Trap × List FaultEntry) :=
  match x.faults.findIdx? (FaultEntry.eligible x) with
  | none => none
  | some i =>
    match x.faults[i]? with
    | none => none
    | some f =>
      some (⟨.markerPrecise, f.cause, f.addr,
             word (bits f.op.pc 63 2 * 4 + min 3 (x.faults.drop (i + 1)).length), none⟩,
            x.faults.set i { f with reported := true, order := nextReport x.faults })

/-- Takes the marker-precise trap that is due, or does `otherwise` when none is (R54 item 1). -/
def State.faultFirst (s : State) (c : CtxId) (otherwise : State) : State :=
  match (s.ctx c).faultTrap with
  | some (t, fs) => (s.setCtx c { s.ctx c with faults := fs }).takeTrap c t
  | none => otherwise

/-- Whether a thread's journal holds an entry that is neither accepted nor refused (R124). -/
def State.journalOpen (s : State) (c : CtxId) : Bool := (s.opsOf c).any fun o => o.jidx.isSome && o.reason == 0

/-- Whether a thread can be at a blocking point (R306): its rewrite list is empty, and its journal holds no unsettled entry. -/
def State.canBlock (s : State) (c : CtxId) : Bool := (s.ctx c).rewrites.isEmpty && !s.journalOpen c

/-- Whether a wait under R46 is a blocking point (R306): a fallible or message-plane operation is outstanding, and no instruction of R142. -/
def State.markerBlocks (s : State) (c : CtxId) : Bool :=
  s.canBlock c && ((s.opsOf c).any fun o => o.fallible || o.body.isMessage) && !((s.opsOf c).any fun o => o.body.isSystem)

/-- The thread reaches a blocking point, which the watchdog counts from (R308). -/
def Ctx.reach (x : Ctx) (cycle : Nat) : Ctx := { x with since := cycle, watched := 0 }

/-- The thread reaches the blocking point that its wait is, where `on`, once for the wait. -/
def Ctx.reachOnce (x : Ctx) (cycle : Nat) (on : Bool) : Ctx :=
  if on && !x.blocked then { x.reach cycle with blocked := true } else x

/-- A wait under R46: the context enters MARKER. -/
def State.marker (s : State) (c : CtxId) : State :=
  let x := s.ctx c
  s.setCtx c { (x.reachOnce s.cycle (x.st == .running && s.markerBlocks c)) with st := .marker }

/-- Raises a trap: it is taken once the context has no outstanding long operation, an earlier fault first (R54). -/
def State.raise (s : State) (c : CtxId) (t : Trap) : State :=
  if s.outstanding c then (s.marker c).setCtx c { (s.marker c).ctx c with trapDue := some t }
  else s.faultFirst c (s.takeTrap c t)

/-! ## Going on to the next instruction -/

/-- Going on past an instruction of `n` words to `next`, with the loop step of R71 when the instruction occupies the word at
LOOPEND and a loop is active. -/
def Ctx.goOn (x : Ctx) (n : Nat) (next : Word) : Ctx :=
  let x := { x with handlerFirst := false, resumed := false, blocked := false, released := if x.intrap then x.released else none }
  if x.loopcnt ≠ 0 ∧ x.pc + word (4 * (n - 1)) = x.loopend then
    if x.loopcnt = 1 then { x with loopcnt := 0, loopbuf := [], pc := x.loopend + 4 }
    else { x with loopcnt := x.loopcnt - 1, pc := x.loopstart }
  else { x with pc := next }

/-- The context after an instruction of `n` words that leaves the program counter to the sequence (R31). -/
def Ctx.advance (x : Ctx) (n : Nat) : Ctx := x.goOn n (x.pc + word (4 * n))

/-- The state after a one-word instruction that changes its context by `f` and goes on. -/
def State.retire (s : State) (c : CtxId) (f : Ctx → Ctx) : State := s.setCtx c ((f (s.ctx c)).advance 1)

/-! ## The checks of R54 -/

/-- What R54 checks of an instruction before its effect: whether it waits as R46 states, its first word, the traps of items
4 and 5 that apply to it, and the registers it reads or writes, in the order of R45. -/
structure Head where
  waits : Bool
  early : Option Trap
  regs : List Reg
deriving DecidableEq, Repr

/-- A scalar register field. -/
def gr (n : BitVec 6) : Reg := .g n.toNat

/-- A vector register field. -/
def vr (n : BitVec 5) : Reg := .v n.toNat

/-- The number of a register. -/
def Reg.num : Reg → Nat
  | .g n => n
  | .v n => n

/-- TRAPINFO of REG_ALLOT and PENDING: 0 scalar, 1 vector (R45, R120). -/
def Reg.kindInfo : Reg → Word
  | .g _ => 0
  | .v _ => 1

/-- Whether a register lies outside the class of a partition word (R13). -/
def Reg.beyond (w : BitVec 32) : Reg → Bool
  | .g n => decide (classG w ≤ n)
  | .v n => decide (classV w ≤ n)

/-- REG_ALLOT for the first register beyond the class, then PENDING for the first pending register (R13, R45, R54). -/
def regTrap (w : BitVec 32) (x : Ctx) (rs : List Reg) : Option Trap :=
  match rs.find? (Reg.beyond w) with
  | some r => some (exact cRegAllot (word r.num) r.kindInfo)
  | none =>
    match rs.find? fun r => x.pend.contains r with
    | some r => some (exact cPending (word r.num) r.kindInfo)
    | none => none

/-- What a step answers. -/
abbrev Out : Type := Host.Outcome State Fault Refusal

/-- The effect of an instruction of a context: a next state, or a trap. -/
abbrev Effect := State → CtxId → Except Trap State

/-- An instruction (R46, R54): it waits for outstanding operations if it is marked; a fault of an earlier operation is
taken first; then the early traps, the register checks, and its effect. -/
def State.issue (s : State) (h : Head) (eff : Effect) : Out :=
  let c := s.cur
  if h.waits && s.outstanding c then .next (s.marker c)
  else
    let run : State :=
      match h.early with
      | some t => s.raise c t
      | none =>
        match regTrap (s.core c.core).partword (s.ctx c) h.regs with
        | some t => s.raise c t
        | none =>
          match eff s c with
          | .ok s' => s'
          | .error t => s.raise c t
    .next (if h.waits then s.faultFirst c run else run)

/-- An instruction whose effect is a change of its own context (R56): it cannot trap, and goes on. -/
def State.issueCtx (s : State) (waits : Bool) (regs : List Reg) (f : Ctx → Ctx) : Out :=
  s.issue ⟨waits, none, regs⟩ fun s c => .ok (s.retire c f)

/-- A long operation whose result is known at issue (R43, R44): the destination becomes pending, and the result returns
after its latency. -/
def State.longResult (s : State) (c : CtxId) (w : IWord) (dst : Reg) (v : Vec) (lat : Nat) (fl : BitVec 9 := 0) : State :=
  let o := { s.newOp c w 0 (.result v fl) (some dst) with performed := true }
  ((s.addOp o).later lat none .longResultReturn (.answer o.id none)).retire c fun x => x.setPend dst

end Sys2Proof.Machine
end

