-- ==== Sys2Proof/Machine/Operands.lean ====
section
/-!
DEFINITION. The operand forms: which registers an instruction of each form names, in the order of R45, how its operands are
read, and where its result goes.
-/
namespace Sys2Proof.Machine

open Sys2Proof

/-- Format RR: g[D] ← f a b, short. -/
def formRR (o : R3) (s : State) (f : Word → Word → Word) : Out :=
  s.issueCtx o.s [gr o.d, gr o.a, gr o.b] fun x =>
    x.setG o.d.toNat (f (x.getG o.a.toNat) (x.getG o.b.toNat))

/-- Format RR with the old g[D] as a third operand: g[D] ← f d a b, short (SEL, BFI). -/
def formRRD (o : R3) (s : State) (f : Word → Word → Word → Word) : Out :=
  s.issueCtx o.s [gr o.d, gr o.a, gr o.b] fun x =>
    x.setG o.d.toNat (f (x.getG o.d.toNat) (x.getG o.a.toNat) (x.getG o.b.toNat))

/-- Format RR, long: g[D] ← f a b after `lat` cycles. -/
def formRRLong (o : R3) (w : IWord) (s : State) (lat : Nat) (f : Word → Word → Word) : Out :=
  s.issue ⟨o.s, none, [gr o.d, gr o.a, gr o.b]⟩ fun s c =>
    let x := s.ctx c
    .ok (s.longResult c w (gr o.d) ((f (x.getG o.a.toNat) (x.getG o.b.toNat)).zeroExtend 128) lat)

/-- Format RR with one source: g[D] ← f a, short. -/
def formR (o : R2) (s : State) (f : Word → Word) : Out :=
  s.issueCtx o.s [gr o.d, gr o.a] fun x => x.setG o.d.toNat (f (x.getG o.a.toNat))

/-- Format RI: g[D] ← f a, short; the immediate is in f. -/
def formRI (sm : Bool) (d a : BitVec 6) (s : State) (f : Word → Word) : Out :=
  s.issueCtx sm [gr d, gr a] fun x => x.setG d.toNat (f (x.getG a.toNat))

/-- A branch target by a word offset of `n` bits from the branch itself (R36). -/
def branchTarget (pc : Word) (off : BitVec n) : Word := pc + (off.signExtend 64 <<< 2)

/-- A branch of `n` words: it goes to `next` as its context gives it, after a change of the context. -/
def formBranch (sm : Bool) (regs : List Reg) (n : Nat) (s : State) (f : Ctx → Ctx) (next : Ctx → Word) : Out :=
  s.issue ⟨sm, none, regs⟩ fun s c => .ok (s.setCtx c ((f (s.ctx c)).goOn n (next (s.ctx c))))

/-- A mask operation on two masks. -/
def formM3 (o : M3) (s : State) (f : BitVec 16 → BitVec 16 → BitVec 16) : Out :=
  s.issueCtx o.s [] fun x => x.setM o.d.toNat (f (x.getM o.a.toNat) (x.getM o.b.toNat))

/-- A mask operation on one mask. -/
def formM2 (o : M2) (s : State) (f : BitVec 16 → BitVec 16) : Out :=
  s.issueCtx o.s [] fun x => x.setM o.d.toNat (f (x.getM o.a.toNat))

/-- A mask operation with a scalar result. -/
def formMG (o : MGetF) (s : State) (f : BitVec 16 → Word) : Out :=
  s.issueCtx o.s [gr o.d] fun x => x.setG o.d.toNat (f (x.getM o.a.toNat))

end Sys2Proof.Machine
end

