-- ==== Sys2Proof/Machine/Control.lean ====
section
/-!
DEFINITION. Branches and calls (R65, R66), branches on a mask (R67), mask operations (R69), and LOOP (R70).
-/
namespace Sys2Proof.Machine

open Sys2Proof

/-- B (R65). -/
def execBranch (o : JF) (s : State) : Out := formBranch o.s [] 1 s id fun x => branchTarget x.pc o.o

/-- CALL (R65): g15 takes part in the register checks as the link. -/
def execCall (o : JF) (s : State) : Out :=
  formBranch o.s [.g 15] 1 s (fun x => x.setG 15 (x.pc + 4)) fun x => branchTarget x.pc o.o

/-- BZ (R65). -/
def execBz (o : CF) (s : State) : Out :=
  formBranch o.s [gr o.a] 1 s id fun x => if x.getG o.a.toNat = 0 then branchTarget x.pc o.o else x.pc + 4

/-- BNZ (R65). -/
def execBnz (o : CF) (s : State) : Out :=
  formBranch o.s [gr o.a] 1 s id fun x => if x.getG o.a.toNat ≠ 0 then branchTarget x.pc o.o else x.pc + 4

/-- BL (R65). -/
def execBl (o : LOff) (s : State) : Out := formBranch o.s [] 2 s id fun x => branchTarget x.pc o.i

/-- CALLL (R65). -/
def execCalll (o : LOff) (s : State) : Out :=
  formBranch o.s [.g 15] 2 s (fun x => x.setG 15 (x.pc + 8)) fun x => branchTarget x.pc o.i

/-- A branch by register (R66): a target that is not a multiple of 4 traps at the branch. -/
def formReg (sm : Bool) (regs : List Reg) (s : State) (target : Ctx → Word) (f : Ctx → Ctx) : Out :=
  s.issue ⟨sm, none, regs⟩ fun s c =>
    let x := s.ctx c
    if bits (target x) 1 0 ≠ 0 then .error (exact cMisalign (target x) 0)
    else .ok (s.setCtx c ((f x).goOn 1 (target x)))

/-- BR (R66). -/
def execBr (o : KA) (s : State) : Out := formReg o.s [gr o.a] s (fun x => x.getG o.a.toNat) id

/-- CALLR (R66): the target is read before the link is written. -/
def execCallr (o : KA) (s : State) : Out :=
  formReg o.s [gr o.a, .g 15] s (fun x => x.getG o.a.toNat) fun x => x.setG 15 (x.pc + 4)

/-- RET (R66). -/
def execRet (o : K0) (s : State) : Out := formReg o.s [.g 15] s (fun x => x.getG 15) id

/-- NOP (R66). -/
def execNop (o : K0) (s : State) : Out := s.issueCtx o.s [] id

/-- A branch on a mask (R67). -/
def formBM (o : BF) (s : State) (p : BitVec 16 → Bool) : Out :=
  formBranch o.s [] 1 s id fun x => if p (x.getM o.m.toNat) then branchTarget x.pc o.o else x.pc + 4

/-- BM.any (R67). -/
def execBmAny (o : BF) (s : State) : Out := formBM o s (· != 0)

/-- BM.all (R67). -/
def execBmAll (o : BF) (s : State) : Out := formBM o s (· == 0xFFFF)

/-- BM.none (R67). -/
def execBmNone (o : BF) (s : State) : Out := formBM o s (· == 0)

/-- MAND (R69). -/
def execMand (o : M3) (s : State) : Out := formM3 o s (· &&& ·)

/-- MOR (R69). -/
def execMor (o : M3) (s : State) : Out := formM3 o s (· ||| ·)

/-- MXOR (R69). -/
def execMxor (o : M3) (s : State) : Out := formM3 o s (· ^^^ ·)

/-- MANDN (R69). -/
def execMandn (o : M3) (s : State) : Out := formM3 o s fun a b => a &&& ~~~b

/-- MNOT (R69). -/
def execMnot (o : M2) (s : State) : Out := formM2 o s (~~~ ·)

/-- MMOV (R69). -/
def execMmov (o : M2) (s : State) : Out := formM2 o s id

/-- MSET (R69). -/
def execMset (o : MSetF) (s : State) : Out :=
  s.issueCtx o.s [gr o.a] fun x => x.setM o.d.toNat ((x.getG o.a.toNat).truncate 16)

/-- MGET (R69). -/
def execMget (o : MGetF) (s : State) : Out := formMG o s fun m => m.zeroExtend 64

/-- MPOPC (R69). -/
def execMpopc (o : MGetF) (s : State) : Out := formMG o s fun m => word (popN 16 m.toNat)

/-- The index of the lowest 1 bit among `n`, `n` when there is none. -/
def lowestOne : Nat → Nat → Nat
  | 0, _ => 0
  | n + 1, x => if x % 2 = 1 then 0 else 1 + lowestOne n (x / 2)

/-- MFIRST (R69). -/
def execMfirst (o : MGetF) (s : State) : Out := formMG o s fun m => word (lowestOne 16 m.toNat)

/-- LOOP (R70): B holds the body's words minus 1. -/
def execLoop (o : KAB) (s : State) : Out :=
  s.issue ⟨o.s, none, [gr o.a]⟩ fun s c =>
    let x := s.ctx c
    let a := x.getG o.a.toNat
    let n := o.b.toNat + 1
    if x.loopcnt ≠ 0 then .error (exact cLoopForm ((firstWord (.loop o)).zeroExtend 64) 3)
    else if bits a 63 32 ≠ 0 then .error (exact cLoopForm a 2)
    else if a = 0 then .ok (s.setCtx c { x with pc := x.pc + word (4 + 4 * n), handlerFirst := false, resumed := false })
    else
      .ok (s.setCtx c { x with loopcnt := a.truncate 32, loopstart := x.pc + 4, loopend := x.pc + word (4 * n),
                               loopbuf := [], pc := x.pc + 4, handlerFirst := false, resumed := false })

end Sys2Proof.Machine
end

