-- ==== Sys2Proof/Machine/Flags.lean ====
section
/-!
DEFINITION. The flags of FCSR (R19, R90), the rounding function with the overflow rule and the flags it sets (R86, R90), the
stochastic step (R87), and the saturation of integers (R78).
-/
namespace Sys2Proof

/-! ## Formats (R79) -/

/-- The bits of the fraction field. -/
def ETy.fracBits : ETy → Nat
  | .f16 => 10
  | .bf16 => 7
  | _ => 23

/-- The all-ones value of the exponent field. -/
def ETy.emax : ETy → Nat
  | .f16 => 31
  | _ => 255

/-- The exponent bias. -/
def ETy.bias : ETy → Nat
  | .f16 => 15
  | _ => 127

/-- The sign bit, as a number. -/
def ETy.signBit (t : ETy) : Nat := 2 ^ (t.bits - 1)

namespace Machine

/-! ## Flags -/

/-- SAT, NV, DZ, OF, UF and NX in FCSR (R19). -/
def flSAT : BitVec 9 := 0x100
def flNV : BitVec 9 := 0x80
def flDZ : BitVec 9 := 0x40
def flOF : BitVec 9 := 0x20
def flUF : BitVec 9 := 0x10
def flNX : BitVec 9 := 0x08

/-- A flag when a condition holds. -/
def flag (b : Bool) (f : BitVec 9) : BitVec 9 := if b then f else 0

/-! ## Rounding modes (R85, R87) -/

/-- The modes of FCSR.RM. -/
def rmRNE : Nat := 0
def rmRTZ : Nat := 1
def rmRDN : Nat := 2
def rmRUP : Nat := 3
def rmRSTO : Nat := 4

/-- A step of RNDSEED (R87). -/
def seedStep (s : BitVec 32) : BitVec 32 :=
  let s := s ^^^ (s <<< 13)
  let s := s ^^^ (s >>> 17)
  s ^^^ (s <<< 5)

/-- The step that a result takes under a mode (R87): only RSTO takes one. -/
def seedFor (mode : Nat) (s : BitVec 32) : BitVec 32 := if mode = rmRSTO then seedStep s else s

/-- The bits of infinity with a sign. -/
def infBits (t : ETy) (neg : Bool) : Nat := t.emax * 2 ^ t.fracBits + if neg then t.signBit else 0

/-- The canonical quiet NaN (R79). -/
def nanBits (t : ETy) : Nat := t.emax * 2 ^ t.fracBits + 2 ^ (t.fracBits - 1)

/-- The bits of zero with a sign. -/
def zeroBits (t : ETy) (neg : Bool) : Nat := if neg then t.signBit else 0

/-! ## The rounding function (R86) -/

/-- Whether a magnitude of `m` units and a part `rem / 2^sh` of the next, with something more below that when `sticky`, rounds
up (R86). -/
def roundsUp (mode r : Nat) (neg : Bool) (m rem sh : Nat) (sticky : Bool) : Bool :=
  let half := 2 ^ sh
  let some' := rem != 0 || sticky
  if mode = rmRNE then decide (half < 2 * rem) || (2 * rem == half && (sticky || m % 2 == 1))
  else if mode = rmRTZ then false
  else if mode = rmRDN then neg && some'
  else if mode = rmRUP then !neg && some'
  else decide (2 ^ 32 * half ≤ rem * 2 ^ 32 + r * half)

/-- round (R86) of ±(m · 2^e), or of a value between that and ±((m + 1) · 2^e) when `sticky`, into a format: the bits and the
flags OF, UF, NX (R90). A magnitude of 0 gives the zero of the sign. -/
def roundTo (t : ETy) (mode r : Nat) (neg : Bool) (m : Nat) (e : Int) (sticky : Bool) : Nat × BitVec 9 :=
  let f : Int := t.fracBits
  let least : Int := 1 - (t.bias : Int) - f
  let top : Int := (log2 m : Int) + e
  let ulp : Int := max (top - f) least
  let sh : Nat := (ulp - e).toNat
  let q : Nat := if ulp ≤ e then m * 2 ^ (e - ulp).toNat else m / 2 ^ sh
  let rem : Nat := if ulp ≤ e then 0 else m % 2 ^ sh
  let up := roundsUp mode r neg q rem (if ulp ≤ e then 0 else sh) sticky
  let q := if up then q + 1 else q
  let enc : Nat := (ulp - least).toNat * 2 ^ t.fracBits + q
  let inexact := rem != 0 || sticky
  let sign := if neg then t.signBit else 0
  if t.emax * 2 ^ t.fracBits ≤ enc then
    let toInf := mode == rmRNE || mode == rmRSTO || (mode == rmRDN && neg) || (mode == rmRUP && !neg)
    ((if toInf then t.emax * 2 ^ t.fracBits else t.emax * 2 ^ t.fracBits - 1) + sign, flOF ||| flNX)
  else
    (enc + sign, flag inexact flNX ||| flag (inexact && decide (enc < 2 ^ t.fracBits)) flUF)

/-- round_int (R86) of ±(m · 2^e): the integer, and whether it differs from the value. -/
def roundInt (mode r : Nat) (neg : Bool) (m : Nat) (e : Int) : Int × Bool :=
  let sh : Nat := (-e).toNat
  let q : Nat := if 0 ≤ e then m * 2 ^ e.toNat else m / 2 ^ sh
  let rem : Nat := if 0 ≤ e then 0 else m % 2 ^ sh
  let up := roundsUp mode r neg q rem (if 0 ≤ e then 0 else sh) false
  let q : Int := if up then q + 1 else q
  (if neg then -q else q, rem != 0)

/-! ## Saturation (R78) -/

/-- The bounds of an integer format of `w` bits (R77). -/
def intMin (signed : Bool) (w : Nat) : Int := if signed then -(2 ^ (w - 1) : Int) else 0
def intMax (signed : Bool) (w : Nat) : Int := if signed then 2 ^ (w - 1) - 1 else 2 ^ w - 1

/-- The nearer bound when an integer lies outside its format, and whether it did. -/
def saturate (signed : Bool) (w : Nat) (i : Int) : Int × Bool :=
  if i < intMin signed w then (intMin signed w, true)
  else if intMax signed w < i then (intMax signed w, true)
  else (i, false)

end Machine

end Sys2Proof
end

