-- ==== Sys2Proof/Machine/Float.lean ====
section
/-!
DEFINITION. Floating-point values (R79), exact sums and products of them with the special values of R88 and R89, the operations
that round (R102, R103, R105), comparisons (R104), and the conversions of R91.
-/
namespace Sys2Proof.Machine

open Sys2Proof

/-- A floating-point value: not a number, an infinity, or ±m · 2^e exactly (m is 0 for a signed zero). -/
inductive FVal where
  | nan
  | inf (neg : Bool)
  | fin (neg : Bool) (m : Nat) (e : Int)
deriving DecidableEq, Repr

/-- The sign bit, the exponent field and the fraction field of an encoding. -/
def fNeg (t : ETy) (x : Nat) : Bool := nbits x (t.bits - 1) (t.bits - 1) == 1
def fExp (t : ETy) (x : Nat) : Nat := nbits x (t.bits - 2) t.fracBits
def fFrac (t : ETy) (x : Nat) : Nat := x % 2 ^ t.fracBits

/-- The value of an encoding (R79). -/
def fval (t : ETy) (x : Nat) : FVal :=
  let f := fFrac t x
  let e := fExp t x
  if e = t.emax then (if f = 0 then .inf (fNeg t x) else .nan)
  else if e = 0 then .fin (fNeg t x) f (1 - (t.bias : Int) - t.fracBits)
  else .fin (fNeg t x) (2 ^ t.fracBits + f) ((e : Int) - t.bias - t.fracBits)

/-- A NaN, and a signalling NaN (R79). -/
def isNaN (t : ETy) (x : Nat) : Bool := fExp t x == t.emax && fFrac t x != 0
def isSNaN (t : ETy) (x : Nat) : Bool := isNaN t x && decide (fFrac t x < 2 ^ (t.fracBits - 1))

/-- The value with the other sign. -/
def FVal.opp : FVal → FVal
  | .nan => .nan
  | .inf n => .inf (!n)
  | .fin n m e => .fin (!n) m e

/-- The exact product; none where the operation is invalid (R89). -/
def FVal.times : FVal → FVal → Option FVal
  | .nan, _ => some .nan
  | _, .nan => some .nan
  | .inf a, .inf b => some (.inf (a != b))
  | .inf a, .fin b m _ => if m = 0 then none else some (.inf (a != b))
  | .fin a m _, .inf b => if m = 0 then none else some (.inf (a != b))
  | .fin a m e, .fin b n f => some (.fin (a != b) (m * n) (e + f))

/-- ±m · 2^e as an integer count of units of 2^d, d ≤ e. -/
def unitsOf (neg : Bool) (m : Nat) (e d : Int) : Int :=
  let k : Int := m * 2 ^ (e - d).toNat
  if neg then -k else k

/-- The exact sum, with the sign that R88 gives a zero; none where the operation is invalid. -/
def FVal.plus (mode : Nat) : FVal → FVal → Option FVal
  | .nan, _ => some .nan
  | _, .nan => some .nan
  | .inf a, .inf b => if a = b then some (.inf a) else none
  | .inf a, .fin _ _ _ => some (.inf a)
  | .fin _ _ _, .inf b => some (.inf b)
  | .fin a m e, .fin b n f =>
    let d := if m = 0 then f else if n = 0 then e else min e f
    let k := (if m = 0 then 0 else unitsOf a m e d) + (if n = 0 then 0 else unitsOf b n f d)
    if k = 0 then
      if m = 0 ∧ n = 0 ∧ a = b then some (.fin a 0 0) else some (.fin (mode == rmRDN) 0 0)
    else some (.fin (decide (k < 0)) k.natAbs d)

/-- The rounded encoding of a value, with its flags; an invalid operation gives the canonical NaN and NV (R89, R90). -/
def deliver (t : ETy) (mode r : Nat) : Option FVal → Nat × BitVec 9
  | none => (nanBits t, flNV)
  | some .nan => (nanBits t, 0)
  | some (.inf n) => (infBits t n, 0)
  | some (.fin n m e) => if m = 0 then (zeroBits t n, 0) else roundTo t mode r n m e false

/-- NV for a signalling NaN among the operands (R89). -/
def snanFlag (t : ETy) (xs : List Nat) : BitVec 9 := flag (xs.any (isSNaN t)) flNV

/-- An operation on encodings: a NaN operand gives the canonical NaN (R89), otherwise the value is delivered. -/
def floatOp (t : ETy) (mode r : Nat) (xs : List Nat) (v : Option FVal) : Nat × BitVec 9 :=
  if xs.any (isNaN t) then (nanBits t, snanFlag t xs) else deliver t mode r v

/-- a + b (R102). -/
def fAdd (t : ETy) (mode r a b : Nat) : Nat × BitVec 9 := floatOp t mode r [a, b] ((fval t a).plus mode (fval t b))

/-- a − b (R102). -/
def fSub (t : ETy) (mode r a b : Nat) : Nat × BitVec 9 := floatOp t mode r [a, b] ((fval t a).plus mode (fval t b).opp)

/-- a × b (R102). -/
def fMul (t : ETy) (mode r a b : Nat) : Nat × BitVec 9 := floatOp t mode r [a, b] ((fval t a).times (fval t b))

/-- a × b + c with one rounding (R102). -/
def fFma (t : ETy) (mode r a b c : Nat) : Nat × BitVec 9 :=
  floatOp t mode r [a, b, c] (((fval t a).times (fval t b)).bind fun p => p.plus mode (fval t c))

/-- a × b − c with one rounding (R102). -/
def fFms (t : ETy) (mode r a b c : Nat) : Nat × BitVec 9 :=
  floatOp t mode r [a, b, c] (((fval t a).times (fval t b)).bind fun p => p.plus mode (fval t c).opp)

/-! ## Order (R103, R104) -/

/-- The place of a number that is not NaN in the order, with the zeros equal. -/
def fOrd (t : ETy) (x : Nat) : Int :=
  let k : Int := (x % t.signBit : Nat)
  if fNeg t x then -k else k

/-- The place in the order, with −0 below +0 (R103). -/
def fOrd' (t : ETy) (x : Nat) : Int :=
  let k : Int := (x % t.signBit : Nat)
  if fNeg t x then -k - 1 else k

/-- VFMIN and VFMAX of two encodings (R103). -/
def fPick (t : ETy) (greater : Bool) (a b : Nat) : Nat × BitVec 9 :=
  let fl := snanFlag t [a, b]
  if isNaN t a then (if isNaN t b then nanBits t else b, fl)
  else if isNaN t b then (a, fl)
  else ((if (fOrd' t a ≤ fOrd' t b) != greater then a else b), fl)

/-! ## Correctly rounded functions (R105) -/

/-- floor(√n), by the digits of n in base 4, `k` of them. -/
def isqrtFuel : Nat → Nat → Nat
  | 0, _ => 0
  | k + 1, n =>
    let r := 2 * isqrtFuel k (n / 4)
    if (r + 1) * (r + 1) ≤ n then r + 1 else r

/-- floor(√n). -/
def isqrt (n : Nat) : Nat := isqrtFuel (log2 n / 2 + 1) n

/-- 1/a of a finite value that is not zero. -/
def fRecip (t : ETy) (mode r : Nat) (neg : Bool) (m : Nat) (e : Int) : Nat × BitVec 9 :=
  let k : Nat := 160
  roundTo t mode r neg (2 ^ k / m) (-(k : Int) - e) (2 ^ k % m != 0)

/-- √a of a positive value. -/
def fRoot (t : ETy) (mode r m : Nat) (e : Int) : Nat × BitVec 9 :=
  let n := (if e % 2 = 0 then m else 2 * m) * 2 ^ 160
  let q := isqrt n
  roundTo t mode r false q (e / 2 - 80) (q * q != n)

/-- 1/√a of a positive value. -/
def fRecipRoot (t : ETy) (mode r m : Nat) (e : Int) : Nat × BitVec 9 :=
  let n := if e % 2 = 0 then m else 2 * m
  let q := isqrt (2 ^ 320 / n)
  roundTo t mode r false q (-(e / 2) - 160) (q * q * n != 2 ^ 320)

/-- The bits of the fixed-point numbers of VEXP2 and VLOG2. -/
def fixBits : Nat := 400

/-- ln 2 to `fixBits` bits: the sum of 1 / (k · 2^k). -/
def ln2Sum : Nat → Nat
  | 0 => 0
  | k + 1 => ln2Sum k + 2 ^ fixBits / ((k + 1) * 2 ^ (k + 1))

/-- e^z − 1 for a fixed-point z below 1, by Horner's rule over `k` terms from the n-th on. -/
def expTerms (z : Nat) : Nat → Nat → Nat
  | 0, _ => 0
  | k + 1, n => z * (2 ^ fixBits + expTerms z k (n + 1)) / 2 ^ fixBits / n

/-- 2^a of a finite value that is not zero: an integer power is exact, and every other is irrational. -/
def fExp2 (t : ETy) (mode r : Nat) (neg : Bool) (m : Nat) (e : Int) : Nat × BitVec 9 :=
  let whole : Int := unitsOf neg m (max e 0) 0
  if 0 ≤ e ∨ m % 2 ^ (-e).toNat = 0 then
    let n : Int := if 0 ≤ e then (if 12 ≤ (log2 m : Int) + e then (if neg then -4096 else 4096) else whole)
      else unitsOf neg (m / 2 ^ (-e).toNat) 0 0
    roundTo t mode r false 1 (max (-4096) (min 4096 n)) false
  else
    let d := (-e).toNat
    let k : Int := if neg then -(m : Int) else m
    let n : Int := k / 2 ^ d
    let frac : Nat := (k % 2 ^ d).toNat
    let z := frac * ln2Sum fixBits / 2 ^ d
    let y := 2 ^ fixBits + expTerms z 90 1
    roundTo t mode r false y (max (-4096) (min 4096 n) - fixBits) true

/-- The binary digits of log2 of a fixed-point number in [1, 2): `k` of them, by squaring. -/
def log2Digits (y : Nat) : Nat → Nat
  | 0 => 0
  | k + 1 =>
    let q := y * y / 2 ^ fixBits
    if 2 ^ (fixBits + 1) ≤ q then 2 ^ k + log2Digits (q / 2) k else log2Digits q k

/-- log2 of a positive value: a power of two is exact, and every other is irrational. -/
def fLog2 (t : ETy) (mode r m : Nat) (e : Int) : Nat × BitVec 9 :=
  let k : Int := (log2 m : Int) + e
  if m = 2 ^ log2 m then
    if k = 0 then (zeroBits t false, 0) else roundTo t mode r (decide (k < 0)) k.natAbs 0 false
  else
    let y := m * 2 ^ (fixBits - log2 m)
    let p := 170
    let v : Int := k * 2 ^ p + (log2Digits y p : Int)
    if 0 ≤ v then roundTo t mode r false v.toNat (-p) true else roundTo t mode r true (-v - 1).toNat (-p) true

/-- The functions of R105. -/
inductive FFun where
  | rcp | rsq | sqrt | exp2 | log2
deriving DecidableEq, Repr

/-- A function of R105 on an encoding: the special operands of its table, then the rounded value. -/
def fFun (f : FFun) (t : ETy) (mode r x : Nat) : Nat × BitVec 9 :=
  if isNaN t x then (nanBits t, snanFlag t [x])
  else
    match f, fval t x with
    | _, .nan => (nanBits t, 0)
    | .rcp, .inf n => (zeroBits t n, 0)
    | .rcp, .fin n m e => if m = 0 then (infBits t n, flDZ) else fRecip t mode r n m e
    | .rsq, .inf n => if n then (nanBits t, flNV) else (zeroBits t false, 0)
    | .rsq, .fin n m e =>
      if m = 0 then (infBits t n, flDZ) else if n then (nanBits t, flNV) else fRecipRoot t mode r m e
    | .sqrt, .inf n => if n then (nanBits t, flNV) else (infBits t false, 0)
    | .sqrt, .fin n m e =>
      if m = 0 then (zeroBits t n, 0) else if n then (nanBits t, flNV) else fRoot t mode r m e
    | .exp2, .inf n => if n then (zeroBits t false, 0) else (infBits t false, 0)
    | .exp2, .fin n m e => if m = 0 then roundTo t mode r false 1 0 false else fExp2 t mode r n m e
    | .log2, .inf n => if n then (nanBits t, flNV) else (infBits t false, 0)
    | .log2, .fin n m e =>
      if m = 0 then (infBits t true, flDZ) else if n then (nanBits t, flNV) else fLog2 t mode r m e

/-! ## Conversions (R91) -/

/-- A float to a float format: exact into F32, rounded into the others. -/
def cvtFF (s t : ETy) (mode r x : Nat) : Nat × BitVec 9 :=
  if isNaN s x then (nanBits t, snanFlag s [x]) else deliver t mode r (some (fval s x))

/-- An integer to a float format. -/
def cvtIF (t : ETy) (mode r : Nat) (i : Int) : Nat × BitVec 9 :=
  if i = 0 then (0, 0) else roundTo t mode r (decide (i < 0)) i.natAbs 0 false

/-- A value to an integer format of `w` bits: the nearer bound when it lies outside, 0 for NaN. -/
def cvtVI (signed : Bool) (w mode r : Nat) (v : FVal) : Int × BitVec 9 :=
  match v with
  | .nan => (0, flNV)
  | .inf n => (if n then intMin signed w else intMax signed w, flNV)
  | .fin n m e =>
    if m = 0 then (0, 0)
    else if 80 < (log2 m : Int) + e then (if n then intMin signed w else intMax signed w, flNV)
    else
      let (q, nx) := roundInt mode r n m e
      let (b, out) := saturate signed w q
      (b, if out then flNV else flag nx flNX)

/-- E8 to a float format (R80, R91). -/
def cvtE8F (t : ETy) (mode r e : Nat) : Nat × BitVec 9 :=
  if e = 255 then (nanBits t, 0) else roundTo t mode r false 1 ((e : Int) - 127) false

/-- A float to E8 (R91): 2^floor(log2 |x|), clamped. -/
def cvtFE8 (t : ETy) (x : Nat) : Nat × BitVec 9 :=
  match fval t x with
  | .nan => (255, flNV)
  | .inf _ => (255, flNV)
  | .fin _ m e =>
    if m = 0 then (0, flNX)
    else
      let k : Int := max (-127) (min 127 ((log2 m : Int) + e))
      ((k + 127).toNat, flag (m != 2 ^ log2 m || k != (log2 m : Int) + e) flNX)

end Sys2Proof.Machine
end

