-- ==== Sys2Proof/Machine/Trans.lean ====
section
/-!
DEFINITION. Translation of DEVICE addresses (R324-R330): the walk, the TLBs of the clusters, their miss tables and the
walkers of the dies.
-/
namespace Sys2Proof.Machine

open Sys2Proof

/-- What a walk finds: the page's first virtual address and size, its physical address, and its permissions. -/
structure Page where
  base : Nat
  size : Nat
  pa : Nat
  ex : Bool
  wr : Bool
  rd : Bool
deriving DecidableEq, Repr

/-- The reserved bits of a page-table entry are 0 (R325). -/
def pteClean (e : Word) : Bool := bits e 63 52 == 0 && bits e 13 7 == 0

/-- A TYPE 1 entry: the next table, below 432 GiB, with EX, WR, RD and SIZE 0 (R325, R326). -/
def pteTable (e : Word) : Option Nat :=
  if pteClean e && bits e 1 0 == 1 && bits e 6 2 == 0 && decide (bits e 51 14 * 2 ^ 14 < Config.hbmBytes) then
    some (bits e 51 14 * 2 ^ 14)
  else none

/-- A TYPE 2 entry as the page of `2 ^ n` bytes that holds a virtual address (R326). -/
def ptePage (e : Word) (va n : Nat) : Option Page :=
  let pa := bits e 51 14 * 2 ^ 14
  if pteClean e && pa % 2 ^ n == 0 && decide (pa + 2 ^ n ≤ Config.hbmBytes) then
    some ⟨va / 2 ^ n * 2 ^ n, 2 ^ n, pa, bit e 6, bit e 5, bit e 4⟩
  else none

/-- The walk of R326 from a root for a virtual address; none is a PAGE fault. Each entry is read once, at its home (R330). -/
def State.walkFrom (s : State) (root : Word) (va : Nat) : Option Page :=
  if bits root 0 0 = 0 ∨ Config.hbmBytes ≤ bits root 51 14 * 2 ^ 14 then none
  else
    match pteTable (s.rd64 (bits root 51 14 * 2 ^ 14 + 8 * nbits va 47 38)) with
    | none => none
    | some t2 =>
      let e2 := s.rd64 (t2 + 8 * nbits va 37 27)
      if bits e2 1 0 = 2 then (if bits e2 3 2 = 2 then ptePage e2 va 30 else none)
      else
        match pteTable e2 with
        | none => none
        | some t3 =>
          let e3 := s.rd64 (t3 + 8 * nbits va 26 16)
          if bits e3 1 0 ≠ 2 then none
          else if bits e3 3 2 = 0 then ptePage e3 va 16
          else if bits e3 3 2 = 1 then ptePage e3 va 21
          else none

/-- The walk of R326 for a job's virtual address. -/
def State.walk (s : State) (job va : Nat) : Option Page := s.walkFrom (s.job job).ptroot va

/-- The locations of the entries that a walk reads (R326). -/
def State.walkReads (s : State) (root : Word) (va : Nat) : List Nat :=
  if bits root 0 0 = 0 ∨ Config.hbmBytes ≤ bits root 51 14 * 2 ^ 14 then []
  else
    let l1 := bits root 51 14 * 2 ^ 14 + 8 * nbits va 47 38
    match pteTable (s.rd64 l1) with
    | none => [l1]
    | some t2 =>
      let l2 := t2 + 8 * nbits va 37 27
      match if bits (s.rd64 l2) 1 0 = 2 then none else pteTable (s.rd64 l2) with
      | none => [l1, l2]
      | some t3 => [l1, l2, t3 + 8 * nbits va 26 16]

/-- Whether a walk reads an entry at a home that does not operate (R339): its requester meets ENDPOINT_DOWN there, as at any such home (log
entry 34). -/
def State.walkDown (s : State) (root : Word) (va : Nat) : Bool := s.anyDown && (s.walkReads root va).any s.homeDown

/-- The poisoned entry that a walk of a job's virtual address reads (R358). -/
def State.walkSpoiled (s : State) (job va : Nat) : Option Nat :=
  if s.poison.isEmpty then none else (s.walkReads (s.job job).ptroot va).findSome? fun l => s.poisoned l 8

/-- The entry of a cluster's TLB for a job's virtual address (R328). -/
def State.tlbHit (s : State) (k job va : Nat) : Option TlbEntry :=
  (s.cluster k).tlb.find? fun e =>
    e.job == job && e.gen == (s.job job).gen && decide (e.base ≤ va) && decide (va < e.base + e.size)

/-- A TLB with one more entry: 256 entries at most, the oldest evicted (R328). -/
def State.tlbFill (s : State) (k job : Nat) (p : Page) : State :=
  let cl := s.cluster k
  s.setCluster k { cl with tlb := ({ job := job, gen := (s.job job).gen, base := p.base, size := p.size, pa := p.pa,
                                     ex := p.ex, wr := p.wr, rd := p.rd } :: cl.tlb).take 256 }

/-- Whether permissions allow an access (R326). -/
def Need.ok : Need → Bool → Bool → Bool → Bool
  | .fetch, ex, _, _ => ex
  | .read, _, _, rd => rd
  | .write, _, wr, _ => wr
  | .both, _, wr, rd => wr && rd
  | .nothing, _, _, _ => true

/-- The physical address of a virtual address through a page. -/
def TlbEntry.pick (e : TlbEntry) (va : Nat) : Nat := e.pa + (va - e.base)

/-- The 64 KiB region of a virtual address. -/
def regionOf (va : Nat) : Nat := va / 2 ^ 16

/-- What a walk gives for a need: a physical address, or the cause of the fault (R326). -/
def State.walkTo (s : State) (job va : Nat) (n : Need) : Except Nat Nat :=
  if s.walkDown (s.job job).ptroot va then .error cEndpoint
  else
    match s.walk job va with
    | none => .error cPage
    | some p => if n.ok p.ex p.wr p.rd then .ok (p.pa + (va - p.base)) else .error cProtect

/-- How long what a walk has answered stands for its requester, which asks again within it (log entry 111). -/
def walkStands : Nat := 16

/-- The answer of a walk to a requester of a cluster that is no operation of a thread. -/
def State.walkedTo (s : State) (k job va : Nat) (n : Need) : Option Walked :=
  (s.cluster k).walked.find? fun w =>
    w.job == job && w.gen == (s.job job).gen && w.region == regionOf va && w.need == n && (w.cause == 0 || decide (s.cycle ≤ w.time + walkStands))

/-- The translation of a virtual address for a requester of a cluster that is no operation of a thread (R328, R329): the physical address by
the cluster's TLB or by the walk that it waited for; a fault's cause; or cause 0 while it must wait for a walk. -/
def State.pageAt (s : State) (k job va : Nat) (n : Need) : Except Nat Nat :=
  match s.tlbHit k job va with
  | some e => if n.ok e.ex e.wr e.rd then .ok (e.pick va) else .error cProtect
  | none =>
    match s.walkedTo k job va n with
    | some w => if w.cause = 0 then .ok (w.pa + va % 2 ^ 16) else .error w.cause
    | none => .error 0

/-- A fault that a walk has answered is taken at an address: only successful walks are kept, and the next access there is walked again (R328). -/
def State.spent (s : State) (k job : Nat) (a : Word) : State :=
  let cl := s.cluster k
  if cl.walked.isEmpty then s
  else s.setCluster k { cl with walked := cl.walked.filter fun w => w.cause == 0 || w.job != job || w.region != regionOf (bits a 47 0) }

/-- The flat location of a virtual address of a job for the hardware's own structures in a job's memory (continuation pools,
rule tables, spill regions): the walk alone. -/
def State.locOf (s : State) (job va : Nat) : Option Nat := (s.walk job va).map fun p => p.pa + (va - p.base)

/-- What the hardware's own units reach of a word of a job's memory: nothing where it or its table entries stand at a home that does not operate
(R339) or in a retired granule (R362). -/
def State.unitLoc (s : State) (job va : Nat) : Option Nat :=
  match s.locOf job va with
  | none => none
  | some l => if s.walkDown (s.job job).ptroot va || s.homeDown l || s.granuleRetired l 8 then none else some l

/-- The flat location that an address of a core names, where it names memory of this device. -/
def State.addrLoc (s : State) (core : Nat) (a : Word) : Option Nat :=
  match s.place core a with
  | .ok (.pool c off) => some (poolLoc c off)
  | .ok (.store k off) => some (storeLoc k off)
  | .ok (.device va) => s.locOf (s.jobOf core) va
  | _ => none

/-- What an operation needs of its page (R326). -/
def OpBody.need : OpBody → Need
  | .load _ => .read
  | .store _ _ _ => .write
  | .fullEmpty fn _ => if fn = 0 ∨ fn = 4 then .read else .both
  | .stc _ _ _ => .write
  | .ldx _ _ => .read
  | _ => .both

/-! ## Misses and walkers (R329) -/

/-- The requester with a miss table, beside the clusters, that the feed controllers of a stack are (R329); it has no TLB. -/
def feedUnit (stack : Nat) : Nat := 384 + stack

/-- The die whose walkers serve a cluster, or the feed controllers of a stack (R329). -/
def walkDie (k : Nat) : Nat := if k < 384 then (k / 12) / 16 * 2 + (k % 12) / 6 else (k - 384) / 3

/-- Whether a miss is of a region of a job's current generation. -/
def Miss.isOf (m : Miss) (job gen region : Nat) : Bool := m.job == job && m.gen == gen && m.region == region

/-- Records a miss, with what a requester that is no operation of a thread needs; a region that is missed already shares its walk, and a full
table of 32 holds the access back (R329). -/
def State.addMiss (s : State) (k job va : Nat) (needs : List Need := []) : State :=
  let cl := s.cluster k
  let gen := (s.job job).gen
  if cl.misses.any fun m => m.isOf job gen (regionOf va) then
    let join (m : Miss) : Miss :=
      if m.isOf job gen (regionOf va) then { m with needs := m.needs ++ needs.filter fun n => !m.needs.contains n } else m
    s.setCluster k { cl with misses := cl.misses.map join }
  else if 32 ≤ cl.misses.length then s
  else
    let m : Miss := { job := job, gen := gen, region := regionOf va, since := s.cycle, walking := false, noFill := false, root := 0, needs := needs }
    (s.setCluster k { cl with misses := cl.misses ++ [m] }).later 0 none .walkerGrant (.num (walkDie k))

/-- The clusters of a die. -/
def dieClusters (d : Nat) : List Nat :=
  (List.range 16).flatMap fun r => (List.range 6).map fun q => 12 * (16 * (d / 2) + r) + 6 * (d % 2) + q

/-- The clusters that have a state to look at: those listed. -/
def State.dieMisses (s : State) (d : Nat) : List (Nat × Miss) :=
  (s.clusters.filter fun p => walkDie p.1 == d).flatMap fun p => p.2.misses.map fun m => (p.1, m)

/-- Of a list of waiting misses, the one that has waited longest. -/
def oldestMiss : List (Nat × Miss) → Option (Nat × Miss)
  | [] => none
  | m :: r =>
    match oldestMiss r with
    | none => some m
    | some n => if m.2.since ≤ n.2.since then some m else some n

/-- The walk of a miss begins, from the root that PTROOT names now (R133). -/
def Miss.begin (m : Miss) (root : Word) : Miss := { m with walking := true, root := root }

/-- The path of the reads of a walk, which travel the request plane (R331); each walk has its own. -/
def Miss.path (m : Miss) (k : Nat) : Path := ⟨planeRequest, 2 ^ 64 + k, 2 ^ 64 + m.job * 2 ^ 32 + m.region⟩

/-- WALKER_GRANT (R329): a free walker goes to the requester that waits longest among those that hold none; only when every
waiting requester holds one, to the one that waits longest overall. -/
def execWalkerGrant (s : State) : Out :=
  match s.arg with
  | .num d =>
    let all := s.dieMisses d
    let walking := all.filter fun p => p.2.walking
    let waiting := all.filter fun p => !p.2.walking
    let fresh := waiting.filter fun p => !(walking.any fun q => q.1 == p.1)
    if 192 ≤ walking.length then .next s
    else
      match oldestMiss (if fresh.isEmpty then waiting else fresh) with
      | none => .next s
      | some (k, m) =>
        let cl := s.cluster k
        let (lat, s) := s.latency (3 * 180)
        .next ((s.setCluster k { cl with misses := cl.misses.map fun n => if n = m then m.begin (s.job m.job).ptroot else n }).later
          lat (some (m.path k)) .pageWalk (.triple k m.job m.region))
  | _ => .next s

/-- The operations of threads of a cluster that wait for the walk of a region. -/
def State.walkWaits (s : State) (k job region : Nat) : List Op :=
  s.ops.filter fun o => o.job == job && o.left && o.loc.isNone && !o.performed && clusterOf o.ctx.core == k
    && regionOf (bits o.addr 47 0) == region

/-- An operation that waits for a walk is answered a fault. -/
def State.walkFault (s : State) (cause : Nat) (o : Op) : State :=
  if o.jidx.isSome then s.later 0 none .journalRefuse (.pair o.id cause)
  else s.later 0 none .fallibleOpFault (.fault o.id cause o.addr)

/-- A walk of a region has ended for an operation that waits for it: a failure is answered; a translation is taken up here where it fills no
TLB, and else found in the TLB. -/
def State.walkAnswer (s : State) (p : Option Page) (noFill : Bool) (o : Op) : State :=
  match p with
  | none => s.walkFault cPage o
  | some p =>
    if !o.body.need.ok p.ex p.wr p.rd then s.walkFault cProtect o
    else if noFill then s.setOp { o with loc := some (p.pa + (bits o.addr 47 0 - p.base)) } else s

/-- What the walk of a region answers to a need of a requester that is no operation of a thread. -/
def Miss.answer (m : Miss) (p : Option Page) (time : Nat) (n : Need) : Walked :=
  let (cause, pa) := match p with
    | none => (cPage, 0)
    | some p => if n.ok p.ex p.wr p.rd then (0, p.pa + (m.region * 2 ^ 16 - p.base)) else (cProtect, 0)
  { job := m.job, gen := m.gen, region := m.region, need := n, cause := cause, pa := pa, time := time }

/-- Whether what a walk has answered is kept: a fault for as long as its requester may ask for it, and a translation where the gather engine or a
feed controller waits for it (R250, R328). -/
def Walked.stands (w : Walked) (keep : Bool) (now : Nat) : Bool := if w.cause = 0 then keep else decide (now ≤ w.time + walkStands)

/-- The end of a walk at its cluster or feed controller: the TLB is filled where a requester's need is met and no TLBINV has met the walk
(R137, R328), and every requester is answered. -/
def State.walkEnds (s : State) (k : Nat) (m : Miss) : State :=
  let p := s.walkFrom m.root (m.region * 2 ^ 16)
  let waits := s.walkWaits k m.job m.region
  let good (p : Page) : Bool := (waits.any fun o => o.body.need.ok p.ex p.wr p.rd) || m.needs.any fun n => n.ok p.ex p.wr p.rd
  let s := match p with
    | some q => if good q && !m.noFill && decide (k < 384) then s.tlbFill k m.job q else s
    | none => s
  let cl := s.cluster k
  let keep := !cl.gatherq.isEmpty || decide (384 ≤ k)
  let s := s.setCluster k { cl with walked :=
    (m.needs.map (m.answer p s.cycle) ++ cl.walked).filter fun w => w.stands keep s.cycle }
  waits.foldl (fun s o => s.walkAnswer p m.noFill o) s

/-- A walk that has met a home that does not operate answers every requester ENDPOINT_DOWN (R339). -/
def State.walkFails (s : State) (k : Nat) (m : Miss) : State :=
  let cl := s.cluster k
  let fault (n : Need) : Walked := { job := m.job, gen := m.gen, region := m.region, need := n, cause := cEndpoint, pa := 0, time := s.cycle }
  (s.walkWaits k m.job m.region).foldl (State.walkFault · cEndpoint) (s.setCluster k { cl with walked := m.needs.map fault ++ cl.walked })

end Sys2Proof.Machine
end

