-- ==== Sys2Proof/Machine/Cont.lean ====
section
/-!
DEFINITION. Continuation records (R189), the continuation pool (R190), task-table entries (R175), and the dispatch ring with
the acceptance of messages (R183-R186, R315).
-/
namespace Sys2Proof.Machine

open Sys2Proof

/-! ## The system area (R12) -/

/-- The location of a word of the task table (R175). -/
def taskLoc (core chan w : Nat) : Nat := poolLoc core (sysBase + 16 * chan + 8 * w)

/-- A word of the task-table entry of a channel. -/
def State.task (s : State) (core chan w : Nat) : Word := s.rd64 (taskLoc core chan w)

/-- ENTRY, BLK, PRIO, CZ, NG and NV of a channel (R175). -/
def State.taskEntry (s : State) (core chan : Nat) : Word := word (bits (s.task core chan 0) 47 2 * 4)
def State.taskBlk (s : State) (core chan : Nat) : Bool := bit (s.task core chan 1) 2
def State.taskPrio (s : State) (core chan : Nat) : Nat := bits (s.task core chan 1) 1 0
def State.taskCz (s : State) (core chan : Nat) : Bool := bit (s.task core chan 1) 3
def State.taskNg (s : State) (core chan : Nat) : Nat := bits (s.task core chan 1) 8 4
def State.taskNv (s : State) (core chan : Nat) : Nat := bits (s.task core chan 1) 12 9

/-- The location of the continuation slot of a wait-table entry (R194). -/
def slotLoc (core i : Nat) : Nat := poolLoc core (sysBase + 0x1000 + 192 * i)

/-! ## Records (R189) -/

/-- The registers that a mask names, of `n`, ascending. -/
def maskRegs (n : Nat) (m : Word) : List Nat := (List.range n).filter fun i => bit m i

/-- The slot words of a thread's registers (R189): scalars ascending, then vectors, low half first. -/
def slotWords (x : Ctx) (gm vm : Word) : List Word :=
  (maskRegs 64 gm).map x.getG ++
    (maskRegs 32 vm).flatMap fun i => [(x.getV i).truncate 64, (x.getV i >>> 64).truncate 64]

/-- What a record says beside the thread's own state: its kind and state, the resume address, the wake register with WV,
and the maps. -/
structure RecSpec where
  state : Nat
  kind : Nat
  pc : Word
  wreg : Nat
  wv : Bool
  gm : Word
  vm : Word
  mm : Nat
deriving DecidableEq, Repr

/-- The words of a record (R189). -/
def recordWords (home : Nat) (x : Ctx) (r : RecSpec) : List Word :=
  let half (m : BitVec 16) (low : Nat) : Word := word (m.toNat * 2 ^ 48 + low)
  let flg (b : Bool) (n : Nat) : Nat := if b then 2 ^ n else 0
  [half (x.getM 7) (bits r.pc 47 2 * 4 + r.state),
   r.gm,
   word (r.kind * 2 ^ 59 + x.chan * 2 ^ 53 + x.prio * 2 ^ 51 + flg x.intrap 50 + flg x.mxsat 49 + flg x.port 48
     + flg (!x.faults.isEmpty) 47 + flg r.wv 46 + r.wreg * 2 ^ 40 + r.mm * 2 ^ 32 + bits r.vm 31 0),
   word (coordField home * 2 ^ 48 + x.fcsr.toNat * 2 ^ 32 + x.loopcnt.toNat),
   half (x.getM 1) (bits x.loopstart 47 2 * 4),
   half (x.getM 2) (bits x.loopend 47 2 * 4),
   word ((x.getM 3).toNat + (x.getM 4).toNat * 2 ^ 16 + (x.getM 5).toNat * 2 ^ 32 + (x.getM 6).toNat * 2 ^ 48),
   0] ++ slotWords x r.gm r.vm

/-- The maps of a thread's live set: g1 to gNG, v0 to v(NV−1), m1 to m7, from its channel's entry (R176). -/
def State.liveSpec (s : State) (c : CtxId) (state kind : Nat) (pc : Word) (wreg : Nat) (wv : Bool) : RecSpec :=
  let x := s.ctx c
  { state := state, kind := kind, pc := pc, wreg := wreg, wv := wv,
    gm := word (2 ^ (s.taskNg c.core x.chan + 1) - 2), vm := word (2 ^ s.taskNv c.core x.chan - 1), mm := 0x7F }

/-- Assigns the slot words of a record to the registers of its maps. -/
def fillSlots (x : Ctx) : List Nat → List Nat → List Word → Ctx
  | g :: gs, vs, w :: ws => fillSlots (x.setG g w) gs vs ws
  | [], v :: vs, lo :: hi :: ws => fillSlots (x.setV v ((hi ++ lo : BitVec 128))) [] vs ws
  | _, _, _ => x

/-- The slots that a record's maps take. -/
def slotCount (gm vm : Word) : Nat := (maskRegs 64 gm).length + 2 * (maskRegs 32 vm).length

/-- The context that a record re-creates (R30, R193): everything not in the record is zero, but RNDSEED and FERETRY, which
the context keeps. -/
def restoreCtx (old : Ctx) (key : Nat) (trapvec : Word) (thread : Nat) (w : List Word) : Ctx :=
  let at' (i : Nat) : Word := w.getD i 0
  let mm := bits (at' 2) 38 32
  let mk (j : Nat) (v : Nat) (x : Ctx) : Ctx := if nbits mm (j - 1) (j - 1) = 1 then x.setM j (BitVec.ofNat 16 v) else x
  let vm := word (bits (at' 2) 31 0)
  let x : Ctx := { Ctx.init (key / 16) (key % 16) with
    st := .running, rndseed := old.rndseed, feretry := old.feretry, region := old.region + 1, thread := thread,
    jobsel := old.jobsel, ctxsel := old.ctxsel,
    pc := word (bits (at' 0) 47 2 * 4), chan := bits (at' 2) 58 53, prio := bits (at' 2) 52 51, intrap := bit (at' 2) 50,
    mxsat := bit (at' 2) 49, port := bit (at' 2) 48, fcsr := BitVec.ofNat 9 (bits (at' 3) 40 32),
    loopcnt := BitVec.ofNat 32 (bits (at' 3) 31 0), loopstart := word (bits (at' 4) 47 2 * 4),
    loopend := word (bits (at' 5) 47 2 * 4), trapvec := trapvec }
  let x := mk 1 (bits (at' 4) 63 48) (mk 2 (bits (at' 5) 63 48) (mk 3 (bits (at' 6) 15 0) (mk 4 (bits (at' 6) 31 16)
    (mk 5 (bits (at' 6) 47 32) (mk 6 (bits (at' 6) 63 48) (mk 7 (bits (at' 0) 63 48) x))))))
  let x := fillSlots x (maskRegs 64 (at' 1)) (maskRegs 32 vm) (w.drop 8)
  if bit (at' 2) 46 then x.setG (bits (at' 2) 45 40) (at' 7) else x

/-! ## The continuation pool (R190) -/

/-- The flat location of the job's pool header. -/
def State.poolHead (s : State) (job : Nat) : Option Nat :=
  let b := (s.job job).poolBase
  if b = 0 then none else s.unitLoc job (bits b 47 0)

/-- The poisoned word that taking an entry of a job's pool reads (R190, R358): of the tables, of the header, or of the first free entry. -/
def State.poolSpoiled (s : State) (job : Nat) : Option Nat :=
  if s.poison.isEmpty then none
  else
    (s.walkSpoiled job (bits (s.job job).poolBase 47 0)).orElse fun _ =>
      match s.poolHead job with
      | none => none
      | some h =>
        let e := bits (s.rd64 h) 47 0
        ((s.poisoned h 24).orElse fun _ => s.walkSpoiled job e).orElse fun _ => (s.unitLoc job e).bind fun l => s.poisoned (l + 56) 8

/-- Takes an entry of the pool in one step: its address and the state, none when FREE is 0 or the pool cannot be read. -/
def State.takeEntry (s : State) (job : Nat) : Option (Word × State) :=
  match s.poolHead job with
  | none => none
  | some h =>
    let e := s.rd64 h
    if e = 0 ∨ (s.poolSpoiled job).isSome then none
    else
      match s.unitLoc job (bits e 47 0) with
      | none => none
      | some l =>
        let n := s.read (h + 8) 4 - 1
        let s := s.wr64 h (s.rd64 (l + 56))
        let s := s.write (h + 8) 4 n
        let s := s.write (h + 16) 4 (min n (s.read (h + 16) 4))
        some (e, s.wr64 (l + 56) 0)

/-- Returns an entry to the free list (R190). -/
def State.returnEntry (s : State) (job : Nat) (e : Word) : State :=
  match s.poolHead job, s.unitLoc job (bits e 47 0) with
  | some h, some l =>
    let s := s.wr64 (l + 56) (s.rd64 h)
    let s := s.write l 1 (s.read l 1 / 4 * 4)
    let s := s.wr64 h e
    s.write (h + 8) 4 (s.read (h + 8) 4 + 1)
  | _, _ => s

/-- POOL_EXHAUSTED to the monitor of the core's die, at most once per core per 4,096 cycles (R190). -/
def State.tellExhausted (s : State) (core : Nat) : State :=
  let co := s.core core
  let due := match co.exhaustedAt with
    | none => true
    | some t => decide (t + 4096 ≤ s.cycle)
  if due then
    (s.setCore core { co with exhaustedAt := some s.cycle }).tellMonitor core (dieOf core) cPool
      [word (jobid (s.jobOf core) co.gen), word (coordField core)]
  else s

/-! ## Threads and their contexts -/

/-- The marks of a context in a scope, up to a region, are cleared (R154). -/
def Mark.named (c : CtxId) (region : Nat) (sc : FScope) (m : Mark) : Bool :=
  m.who == ⟨none, c⟩ && decide (m.region ≤ region) &&
    match sc with
    | .dom => true
    | .dev => decide (m.line < 2 ^ 58)
    | .core => decide (poolLoc c.core 0 / 64 ≤ m.line) && decide (m.line < poolLoc c.core Config.poolBytes / 64)

/-- The entries of a context's region log, up to a region, for lines of other parts; only DOM scope takes them in (R153). -/
def PeerMark.named (c : CtxId) (region : Nat) (sc : FScope) (m : PeerMark) : Bool :=
  m.ctx == c && decide (m.region ≤ region) && sc == .dom

/-- Asks the other parts to clear the marks of a context that a release names (R154): one request to each part that has not been asked. The
request to a part to which no path leads is answered at once (R342), and its entries leave the log. -/
def State.askPeers (s : State) (c : CtxId) (region : Nat) (sc : FScope) : State :=
  let devs := ((s.peerLog.filter fun m => m.named c region sc && !m.asked).map (·.dev)).eraseDups
  if devs.isEmpty then s
  else { s with peerLog := (s.peerLog.filter fun m => !(m.named c region sc) || s.peerUp m.dev).map fun m =>
                  if m.named c region sc then { m with asked := true } else m
                out := s.out ++ (devs.filter s.peerUp).map fun d => Outgoing.clearMarks d c }

/-- Clears the marks that a release names (R153, R154): those at homes of this part at once, those at other parts when their answer
comes. -/
def State.clearMarks (s : State) (c : CtxId) (region : Nat) (sc : FScope) : State :=
  { s with marks := s.marks.filter fun m => !(m.named c region sc) }.askPeers c region sc

/-- The context becomes FREE; RNDSEED and FERETRY stay with it (R29). -/
def State.freeCtx (s : State) (c : CtxId) : State :=
  let x := s.ctx c
  s.setCtx c { Ctx.init c.core c.k with rndseed := x.rndseed, feretry := x.feretry, jobsel := x.jobsel, ctxsel := x.ctxsel,
                                        region := x.region + 1, thread := x.thread }

/-- A member of a co-resident set gives up its context for a record (R310). -/
def State.memberParks (s : State) (c : CtxId) (rec : Word) : State :=
  let n := s.jobOf c.core
  if (s.ctx c).member then s.setJob n { s.job n with comembers := (s.job n).comembers ++ [rec] } else s

/-- The thread of a context becomes a continuation whose record stands at a location (R401): its outstanding operations and its
fault list go with the record, a cause that was found and not taken stays with it (R54), and the context becomes FREE. -/
def State.becomeRecord (s : State) (c : CtxId) (rec : Word) (loc : Nat) (r : RecSpec) : State :=
  let x := s.ctx c
  let s := ((s.wrWords loc (recordWords c.core x r)).cleanse loc 192).memberParks c rec
  let mine : Op → Bool := fun o =>
    o.ctx == c && o.record.isNone && o.thread == x.thread && (o.body.isLong || (o.jidx.isSome && o.reason != 0))
  let s := { s with ops := s.ops.map fun o => if mine o then { o with record := some rec } else o }
  let s := if x.faults.isEmpty && x.trapDue.isNone then s
    else
      let co := s.core c.core
      s.setCore c.core { co with parked := co.parked ++ [⟨rec, x.faults, x.trapDue⟩] }
  (s.clearMarks c x.region .dom).freeCtx c

/-- A continuation at its home core is runnable once no operation of its thread is outstanding (R401). -/
def State.runnable (s : State) (rec : Word) : Bool := !(s.ops.any fun o => o.record == some rec && o.reason == 0)

/-! ## The dispatch ring (R184-R186) -/

/-- The first free ring index among `lo` and the `n` after it. -/
def freeIndex (ring : Map (Option RingEntry)) (lo : Nat) : Nat → Option Nat
  | 0 => none
  | n + 1 => if (mget none ring lo).isNone then some lo else freeIndex ring (lo + 1) n

/-- Where a message goes in the ring: a message takes an ordinary entry (0–111), a re-creation or a wake a kept entry first
(R185). Which sixteen are the kept ones, and that the lowest free one is taken: DESIGN CHOICE (log entry 127). -/
def ringSlot (ring : Map (Option RingEntry)) (b : MsgBody) : Option Nat :=
  match b with
  | .start _ _ _ => freeIndex ring 0 112
  | _ => (freeIndex ring 112 16).orElse fun _ => freeIndex ring 0 112

/-- The location of a record: a wait-table slot by its CORE address, or an entry in the job's memory. -/
def State.recordLoc (s : State) (job : Nat) (rec : Word) : Option Nat :=
  match bits rec 63 61 with
  | 1 => some (poolLoc (coreAt (bits rec 59 53) (bits rec 52 46)) (bits rec 19 0))
  | 2 => some (storeLoc (12 * bits rec 55 51 + bits rec 59 56) (bits rec 20 0))
  | 3 => if (s.walkSpoiled job (bits rec 47 0)).isSome then none else s.unitLoc job (bits rec 47 0)
  | 4 => if bits rec 57 48 = s.devnum then s.unitLoc job (bits rec 47 0) else none
  | _ => none

/-- The base priority of a message at a core (R186): the channel's PRIO, or the record's; 0 for a record of another part, which the core has
not read yet: DESIGN CHOICE (log entry 129). -/
def State.basePrio (s : State) (core job : Nat) (b : MsgBody) : Nat :=
  match b with
  | .start ch _ _ => s.taskPrio core ch
  | .recreate r =>
    match s.recordLoc job r with
    | some l => bits (s.rd64 (l + 16)) 52 51
    | none => 0
  | .wake i _ => bits (s.rd64 (slotLoc core i + 16)) 52 51

/-- Accepts a message into a core's ring, when an entry is free. -/
def State.accept (s : State) (m : Msg) : Option State :=
  let co := s.core m.target
  match ringSlot co.ring m.body with
  | none => none
  | some i =>
    let e : RingEntry := { time := s.cycle, order := s.nextId, base := s.basePrio m.target m.job m.body, job := m.job, gen := m.gen,
                           sender := coordField m.src, body := m.body }
    some { s.setCore m.target { co with ring := mset none co.ring i (some e) } with nextId := s.nextId + 1 }

/-- The inbox entry of a message (R184, R315): word 1 names the target core. -/
def inboxWords (time : Nat) (prio : Nat) (m : Msg) : List Word :=
  let kind := match m.body with
    | .start _ _ _ => 0
    | .recreate _ => 1
    | .wake _ _ => 2
  let w0 := fun ch nw : Nat => word (time % 2 ^ 32 * 2 ^ 32 + nw * 2 ^ 10 + ch * 16 + prio * 4 + kind)
  let w1 := word (coordField m.target * 2 ^ 32 + jobid m.job m.gen * 2 ^ 16 + coordField m.src)
  match m.body with
  | .start ch nw p => [w0 ch nw, w1, 0, 0] ++ (p ++ [0, 0, 0, 0]).take 4
  | .recreate r => [w0 0 0, w1, r, 0, 0, 0, 0, 0]
  | .wake i v => [w0 0 0, w1, word i, v, 0, 0, 0, 0]

/-- The memory as a switched-out job sees it: the pools and stores of its rectangle as they were saved (R314). -/
def State.savedView (s : State) (job : Nat) : State :=
  match s.saves.find? fun v => v.job == job with
  | none => s
  | some v => { s with mem := (s.mem.filter fun c => decide (c.1 < 2 ^ 40)) ++ v.mem,
                       vague := (s.vague.filter fun r => decide (r.base < 2 ^ 40)) ++ v.vague }

/-- Stores a message in the inbox of its switched-out job; none when the inbox is full (R315). -/
def State.toInbox (s : State) (m : Msg) : Option State :=
  let sv := (s.job m.job).save
  let cap := s.read (sv + 4) 4
  let count := s.read sv 4
  if cap ≤ count then none
  else
    let tail := s.read (sv + 8) 4
    let s := s.wrWords (sv + 64 + 64 * tail) (inboxWords s.cycle ((s.savedView m.job).basePrio m.target m.job m.body) m)
    let s := s.write sv 4 (count + 1)
    some (s.write (sv + 8) 4 ((tail + 1) % cap))

end Sys2Proof.Machine
end

