-- ==== Sys2Proof/Machine/Kill.lean ====
section
/-!
DEFINITION. Counting in the life records (R366), and the end of a job: the step that a kill and a loss share (R139, R319, R362), with
the context-lost record (R363).
-/
namespace Sys2Proof.Machine

open Sys2Proof

/-! ## Life records -/

/-- A unit of the life records (R366): kind 0 core, 1 cluster, 2 stack, 3 die, 4 port, 5 island. -/
def unitOf (kind index : Nat) : Nat := kind * 4096 + index

/-- The key of a counter or histogram. -/
def lifeKey (id unit : Nat) : Nat := id * 65536 + unit

/-- A counter goes up by `n`, saturating (R366). -/
def State.count (s : State) (id unit n : Nat) : State :=
  let k := lifeKey id unit
  { s with life := { s.life with counters := mset 0 s.life.counters k (min (2 ^ 64 - 1) (mget 0 s.life.counters k + n)) } }

/-- A home has refused what carries a stamp that it does not accept (R139, R320, R366). -/
def State.refuseStamp (s : State) : State := s.count 0x08 (unitOf 5 0) 1

/-- A retirement entry: kind, cause, and index (R366); the flash takes it at once (R367). -/
def State.retireUnit (s : State) (kind cause index : Nat) : State :=
  let w := word (kind * 2 ^ 60 + cause * 2 ^ 52 + s.life.minutes % 2 ^ 20 * 2 ^ 32 + index)
  if s.life.retired.contains w then s
  else { s with life := { s.life with retired := s.life.retired ++ [w] },
                flash := { s.flash with retired := s.life.retired ++ [w] } }

/-! ## The cores and memory of a job -/

/-- The cores that a job holds. -/
def State.coresOf (s : State) (job : Nat) : List Nat := (s.cores.filter fun p => p.2.owner == some job).map (·.1)

/-- The pages that the tables of a job map, as physical addresses and sizes: every entry of its tables. -/
def State.pagesOf (s : State) (job : Nat) : List (Nat × Nat) :=
  let root := (s.job job).ptroot
  if bits root 0 0 = 0 then []
  else
    (List.range 1024).flatMap fun i =>
      match pteTable (s.rd64 (bits root 51 14 * 2 ^ 14 + 8 * i)) with
      | none => []
      | some t2 =>
        (List.range 2048).flatMap fun j =>
          let e2 := s.rd64 (t2 + 8 * j)
          if bits e2 1 0 = 2 then (ptePage e2 0 30).toList.map fun p => (p.pa, p.size)
          else
            match pteTable e2 with
            | none => []
            | some t3 =>
              (List.range 2048).flatMap fun k =>
                let e3 := s.rd64 (t3 + 8 * k)
                if bits e3 1 0 ≠ 2 then []
                else (ptePage e3 0 (if bits e3 3 2 = 1 then 21 else 16)).toList.map fun p => (p.pa, p.size)

/-- The page tables of a job, as physical addresses and sizes (R325). -/
def State.tablesOf (s : State) (job : Nat) : List (Nat × Nat) :=
  let root := (s.job job).ptroot
  if bits root 0 0 = 0 then []
  else
    let top := bits root 51 14 * 2 ^ 14
    let second := (List.range 1024).filterMap fun i => pteTable (s.rd64 (top + 8 * i))
    let third := second.flatMap fun t => (List.range 2048).filterMap fun j => pteTable (s.rd64 (t + 8 * j))
    (top, 2 ^ 13) :: (second ++ third).map fun t => (t, 2 ^ 14)

/-- The 4 KiB granules of HBM that hold poisoned data of a job, its page tables among it (R321, R362). -/
def State.poisonedGranules (s : State) (job : Nat) : List Nat :=
  if s.poison.isEmpty then []
  else
    let pages := s.pagesOf job ++ s.tablesOf job
    let mine := s.poison.filter fun w =>
      decide (8 * w < Config.hbmBytes) && pages.any fun p => decide (p.1 ≤ 8 * w) && decide (8 * w < p.1 + p.2)
    (mine.map fun w => 8 * w / 4096).eraseDups

/-- The items that a list holds (R279). -/
def ListEntry.count (l : ListEntry) : Nat := l.items.length + l.spilled

/-! ## The overflow list of a home (R195, R196) -/

/-- The location of the overflow cell of a recorded waiter, where its thread stands in a pool entry. -/
def State.cellLoc (s : State) (w : Waiter) : Option Nat :=
  match w.record with
  | some r => (s.recordLoc w.job r).map (· + 192)
  | none => none

/-- Removes a recorded waiter; the cell before its own in the home's list then names the cell after it, 0 at the tail (R196). -/
def State.dropWaiter (s : State) (w : Waiter) : State :=
  let rest := s.waiters.filter fun x => x.seq != w.seq
  let t := { s with waiters := rest }
  if w.record.isNone then t
  else
    let list := rest.filter fun x => x.record.isSome && homeOf x.loc == homeOf w.loc
    match (list.filter fun x => decide (x.seq < w.seq)).getLast? with
    | none => t
    | some p =>
      match s.cellLoc p with
      | none => t
      | some l => t.wr64 (l + 24) (match list.find? fun x => decide (w.seq < x.seq) with
          | some n => n.record.getD 0 + 192
          | none => 0)

/-! ## The end of a job -/

/-- The engine steps that stop with a job (R139). -/
def stopsWith (cores clusters : List Nat) (d : Due) : Bool :=
  match d.what, d.arg with
  | .copyChunk, .num c => cores.contains c
  | .engineCommandLeave, .num c => cores.contains c
  | .gatherWindow, .num k => clusters.contains k
  | .mxmapPerform, .num k => clusters.contains k
  | .mxbPerform, .num k => clusters.contains k
  | .mxaPerform, .num k => clusters.contains k
  | .mxrunPerform, .num k => clusters.contains k
  | _, _ => false

/-- Whether a step is a verification of a code page of a job (R379). -/
def Due.verifies (d : Due) (job : Nat) : Bool :=
  d.what == .codePageVerify && match d.arg with
    | .pair j _ => j == job
    | _ => false

/-- A core of a job that ends: its contexts become FREE, and its rings, tables, queues and lists are dropped (R139, R252, R291). -/
def State.evictCore (s : State) (core : Nat) : State :=
  let s := (List.range 16).foldl (fun s k => s.freeCtx ⟨core, k⟩) s
  s.setCore core { s.core core with
    ring := [], waits := [], parked := [], copyq := [], paused := [], tagWaiters := [], owned := 0, satTags := 0, lists := [],
    pairq := none, pairWait := [], rule := none, pairsDue := 0, held := false, repart := none }

/-- A cluster of a job that ends: its engines stop, and the matrix engine's state returns to its job-start values (R253, R278). -/
def State.evictCluster (s : State) (k : Nat) : State :=
  s.setCluster k { s.cluster k with gatherq := [], window := [], mx := Mx.init, mxq := [], mxBusy := false }

/-- The messages of a job that stand in its rings and its inbox. -/
def State.waitingMessages (s : State) (job : Nat) : Nat :=
  let rings := ((s.coresOf job).map fun c => ((s.core c).ring.filter fun p => p.2.isSome).length).foldl (· + ·) 0
  let j := s.job job
  rings + if j.sched == .switchedOut then s.read j.save 4 else 0

/-- The contexts of a job that are not FREE. -/
def State.busyContexts (s : State) (job : Nat) : Nat :=
  ((s.coresOf job).map fun c => ((s.coreCtxs c).filter fun x => (s.ctx x).st != .free).length).foldl (· + ·) 0

/-- Whether an operation travels to a home or a target, which refuses it after a kill (R139). -/
def OpBody.reachesHome : OpBody → Bool
  | .result _ _ | .popped _ _ _ | .fence | .command _ | .mxstat => false
  | b => !b.isSystem

/-- A system request of the gather engines of some clusters (R251): it enters their contexts Y. -/
def State.throughY (s : State) (who : Nat) (addr : Word) (n : Nat) (ks : List Nat) : State :=
  ks.foldl (fun s k => s.later 0 none .gatherSystemSwitch (.system k ⟨who, addr, n, 0⟩)) s

/-- The whole of a kill but its completion (R139, R319): the job is killed with PEND 1, everything it holds on the device is dropped, its
stamp is refused from now on, and the refusals of what is on its way are counted; outstanding commands of its generation complete with it, in
KILLJ_COMPLETE (R142, R312). -/
def State.kill (s : State) (job : Nat) (id : Nat) : State :=
  let j := s.job job
  let cores := s.coresOf job
  let clusters := (cores.map clusterOf).eraseDups
  let s := cores.foldl State.evictCore s
  let s := (clusters.foldl State.evictCluster s).throughY 3 0 Config.storeBytes clusters
  let s := (s.waiters.filter fun w => w.job == job).foldl State.dropWaiter s
  let late := (s.ops.filter fun o => o.job == job && o.body.reachesHome && o.left && !o.performed && o.reason == 0).length
  let s := if late = 0 then s else s.count 0x08 (unitOf 5 0) late
  let s := { s with
    ops := s.ops.filter fun o => o.job != job
    peerLog := s.peerLog.filter fun m => !(cores.contains m.ctx.core)
    marks := s.marks.filter fun m => !(m.who.dev.isNone && cores.contains m.who.ctx.core)
    gmaxers := s.gmaxers.filter fun g => g.2 != job
    peerArrivals := s.peerArrivals.filter fun p => p.job != job
    subs := s.subs.filter fun x => x.job != job
    saves := s.saves.filter fun x => x.job != job
    agenda := s.agenda.filter fun d => !(stopsWith cores clusters d || d.verifies job) }
  let s := s.island.ckpts.foldl (fun s c => if c.job = job then s.later 1 (ckptPath job) .checkpointDone (.pair job cUncorrectable) else s) s
  (s.setJob job { j with st := .killed, pend := true, sched := .resident, pages := [] }).later 200 none .killjComplete
    (.triple job j.gen id)

/-- Where consumed data stood, and what consumed it (R363). -/
structure Loss where
  cause : Nat
  src : Nat
  paddr : Word
  vaddr : Word
  core : Option Nat
  k : Nat
  pc : Word
deriving DecidableEq, Repr

/-- The words of a context-lost record (R363). -/
def lossWords (l : Loss) (job gen seq cycle retired ctxs dropped : Nat) : List Word :=
  let xy := match l.core with
    | some c => coordField c
    | none => 0
  [word (l.cause * 2 ^ 56 + l.src * 2 ^ 52 + 3 * 2 ^ 50 + jobid job gen * 2 ^ 16 + seq % 2 ^ 16), l.paddr, l.vaddr,
   word (xy * 2 ^ 48 + l.k * 2 ^ 44), l.pc, word cycle, word (retired % 2 ^ 32 * 2 ^ 32 + ctxs % 2 ^ 32), word (dropped % 2 ^ 32 * 2 ^ 32)]

/-- The die at which a loss is found: that of the consuming core, or that of the home of the data. -/
def Loss.die (l : Loss) : Nat :=
  match l.core with
  | some c => dieOf c
  | none =>
    match bits l.paddr 63 61 with
    | 1 => dieOf (coreAt (bits l.paddr 59 53) (bits l.paddr 52 46))
    | 2 => dieOf (coreAt (4 * bits l.paddr 59 56) (2 * bits l.paddr 55 51))
    | _ => stackOf l.paddr.toNat / 3

/-- The loss of a job (R362): one step that makes one record, and then a kill; a loss in job 0 freezes the consuming context and puts its
die into HUNG. -/
def State.lose (s : State) (job : Nat) (l : Loss) : State :=
  if job = 0 then
    match l.core with
    | some c => (s.setCtx ⟨c, l.k⟩ { s.ctx ⟨c, l.k⟩ with st := .frozen, busy := .idle }).hang l.die
    | none => s.hang l.die
  else if (s.job job).st == .live || (s.job job).st == .cancelled then
    let bad := s.poisonedGranules job
    let rec' := lossWords l job (s.job job).gen s.life.seq s.cycle bad.length (s.busyContexts job) (s.waitingMessages job)
    let s := bad.foldl (fun s g => s.retireUnit 0 l.cause g) { s with badGranules := s.badGranules ++ bad }
    let s := s.count 0x03 (unitOf 5 0) 1
    let s := { s with life := { s.life with seq := s.life.seq + 1 } }
    let s := s.kill job 0
    s.setJob job { s.job job with lostRec := some rec' }
  else s

/-- SRC of a location (R363): 1 core pool, 2 cluster store, 3 HBM. -/
def srcOf (loc : Nat) : Nat := if 2 ^ 42 ≤ loc then 2 else if 2 ^ 40 ≤ loc then 1 else 3

/-- The address of a location as PADDR names it (R363). -/
def paddrOf (loc : Nat) : Word :=
  if 2 ^ 42 ≤ loc then
    let k := (loc - 2 ^ 42) / 2 ^ 21
    word (2 ^ 62 + (k % 12) * 2 ^ 56 + (k / 12) * 2 ^ 51 + (loc - 2 ^ 42) % 2 ^ 21)
  else if 2 ^ 40 ≤ loc then coreAddr ((loc - 2 ^ 40) / 2 ^ 20) ((loc - 2 ^ 40) % 2 ^ 20)
  else word loc

/-- The loss that an access of a thread meets at a poisoned location (R358, R363). -/
def lossAt (c : CtxId) (pc addr : Word) (loc : Nat) : Loss :=
  { cause := cUncorrectable, src := srcOf loc, paddr := paddrOf loc, vaddr := addr, core := some c.core, k := c.k, pc := pc }

/-- The loss that an engine's read of poisoned data is (R358, R363): SRC 5, the engine, as SRC 4 is the fetch (log entry 112). -/
def engineLoss (core : Option Nat) (addr : Word) (loc : Nat) : Loss :=
  { cause := cUncorrectable, src := 5, paddr := paddrOf loc, vaddr := addr, core := core, k := 0, pc := 0 }

/-- The poisoned word that an operation consumes at its home: one it reads, or one that its store merges into (R358). -/
def State.consumed (s : State) (b : OpBody) (loc n : Nat) : Option Nat :=
  match b with
  | .store _ n _ => s.mergesPoison loc n
  | .fullEmpty 2 _ => none
  | .stc _ _ _ => none
  | _ => s.poisoned loc n

end Sys2Proof.Machine
end

