-- ==== Sys2Proof/Machine/Home.lean ====
section
/-!
DEFINITION. What a home does (R143): region marks (R158-R161), the single step of a load, store, atomic or full/empty operation
(R163, R168, R169), the wake passes (R166), and the checks of ranges of a core's own pool (R115).
-/
namespace Sys2Proof.Machine

open Sys2Proof

/-! ## Region marks -/

/-- The number of a context as the other party of a conflict (R159): its core is 0 for another device. -/
def Who.info (w : Who) : Word := word (w.ctx.k * 2 ^ 16 + if w.dev.isNone then coordField w.ctx.core else 0)

/-- Who makes the marks of an operation: its context, or, once its thread has given the context up (R401), nobody that holds one; the blocking
point has closed the region of such a thread (R154), and its later accesses leave no mark. -/
def Op.who (o : Op) : Who := ⟨none, if o.record.isSome then ⟨o.ctx.core, 16⟩ else o.ctx⟩

/-- The marks that an operation of a continuation would leave are dropped. -/
def State.unmark (s : State) (o : Op) : State :=
  if o.record.isSome then { s with marks := s.marks.filter fun m => m.who != o.who } else s

/-- The 64-byte line of a flat location. -/
def lineOf (loc : Nat) : Nat := loc / 64

/-- How many marks a home stores (R161). Whether a stack whose table is full still finds room for a mark in a cache tag is not architectural:
the model finds none (log entry 101). -/
def Home.markRoom : Home → Nat
  | .pool _ => 2048
  | .store _ => 4096
  | .stack _ => 65536

/-- What a home finds when a plain access is to be marked. -/
inductive MarkAns where
  | ok (s : State)
  | conflict (w : Who)
  | full (w : Who)
deriving DecidableEq, Repr

/-- A mark of another context that conflicts with an access to a line (R159). -/
def State.conflict (s : State) (w : Who) (line : Nat) (write : Bool) : Option Who :=
  (s.marks.find? fun m => m.line == line && m.who != w && (write || m.write)).map (·.who)

/-- Room in the region log of a context (R160): a log of 128 entries, those for lines of other parts among them, is emptied by an implicit
release. -/
def State.makeLogRoom (s : State) (w : Who) : State :=
  if (s.marks.filter fun m => m.who == w).length + (s.peerLog.filter fun m => w.dev.isNone && m.ctx == w.ctx).length < 128 then s
  else
    let s := { s with marks := s.marks.filter fun m => m.who != w }
    if w.dev.isNone then
      let t := s.askPeers w.ctx (s.ctx w.ctx).region .dom
      { t with peerLog := t.peerLog.filter fun m => m.ctx != w.ctx }
    else s

/-- The entry of a context's region log for a line of another part that a plain access has touched there (R26): upgraded where the region
holds one. -/
def State.logPeer (s : State) (c : CtxId) (region dev line : Nat) (write : Bool) : State :=
  let same (m : PeerMark) : Bool := m.ctx == c && m.dev == dev && m.line == line && m.region == region
  if s.peerLog.any same then
    { s with peerLog := s.peerLog.map fun m => if same m then { m with write := m.write || write } else m }
  else
    let s := s.makeLogRoom ⟨none, c⟩
    { s with peerLog := s.peerLog ++ [⟨c, dev, line, region, write, false⟩] }

/-- The mark of a plain access (R26, R158-R161): refused by a conflict; upgraded where the region holds one; the log of 128
entries is emptied by an implicit release first (R160); a full mark table names the owner of its oldest mark. -/
def State.mark (s : State) (w : Who) (region line : Nat) (write : Bool) : MarkAns :=
  match s.conflict w line write with
  | some y => .conflict y
  | none =>
    if s.marks.any fun m => m.line == line && m.who == w && m.region == region then
      .ok { s with marks := s.marks.map fun m =>
              if m.line == line && m.who == w && m.region == region then { m with write := m.write || write } else m }
    else
      let s := s.makeLogRoom w
      let mine := s.marks.filter fun m => homeOf (64 * m.line) == homeOf (64 * line)
      if (homeOf (64 * line)).markRoom ≤ mine.length then
        match mine.head? with
        | some m => .full m.who
        | none => .full w
      else .ok { s with marks := s.marks ++ [⟨line, w, region, write⟩] }

/-- The marks of all the lines of a range, or the first answer that is not a mark, with its line. -/
def State.markLines (s : State) (w : Who) (region : Nat) (write : Bool) : List Nat → MarkAns × Nat
  | [] => (.ok s, 0)
  | l :: ls =>
    match s.mark w region l write with
    | .ok s' => s'.markLines w region write ls
    | a => (a, l)

/-- The lines that a range of locations touches. -/
def linesOf (loc n : Nat) : List Nat :=
  (List.range (lineOf (loc + n - 1) + 1 - lineOf loc)).map fun i => lineOf loc + i

/-- The core of a node or port. -/
def netHome (a : Word) : Nat := coreAt (bits a 59 53) (bits a 52 46)

/-- The flat location of a node or port word. -/
def netLoc (a : Word) : Nat := poolLoc (netHome a) (bits a 19 0)

/-- A word of a node record. -/
def State.nodeWord (s : State) (n : Word) (i : Nat) : Word := s.rd64 (netLoc n + 8 * i)

/-- The address of a tile's reference count (R208). -/
def countAddr (addr w3 : Word) : Word := addr + wordI (8 * sextN (bits w3 25 0) 26)

/-- Whether a range of locations touches a home that does not operate (R339). -/
def State.spanDown (s : State) (loc n : Nat) : Bool := n != 0 && s.anyDown && (linesOf loc n).any fun l => s.homeDown (64 * l)

/-- The head of a core's node arena in its system area (R210). -/
def arenaHead (core : Nat) : Nat := poolLoc core (sysBase + 0x4800)

/-- BASE of a core's node arena (R210). -/
def State.arenaBase (s : State) (core : Nat) : Nat := bits (s.rd64 (arenaHead core + 16)) 19 0

/-- TOTAL of a core's node arena (R210). -/
def State.arenaTotal (s : State) (core : Nat) : Nat := bits (s.rd64 (arenaHead core + 8)) 63 32

/-- The lines that a plain access marks: the lines of its bytes, without those of the node records of a pool (R158, R211). -/
def State.markable (s : State) (loc n : Nat) : List Nat :=
  match homeOf loc with
  | .pool core =>
    let a := poolLoc core (s.arenaBase core)
    let b := a + 32 * s.arenaTotal core
    let below := min n (a - loc)
    let above := min n (loc + n - b)
    if b ≤ loc ∨ loc + n ≤ a ∨ a = b then linesOf loc n
    else (if below = 0 then [] else linesOf loc below) ++ (if above = 0 then [] else linesOf (loc + n - above) above)
  | _ => linesOf loc n

/-- The home asks the owner of its oldest mark for an implicit release (R160); the answer of another part is taken to have come. -/
def State.askRelease (s : State) (w : Who) : State :=
  if w.dev.isSome then { s with marks := s.marks.filter fun m => m.who != w }
  else s.later 1 none .implicitReleaseRequest (.ctx w.ctx)

/-! ## Waiters (R164, R166) -/

/-- The condition of a waiting operation: LDF and LDT wait for full, STW for empty (R163). -/
def Waiter.holds (s : State) (w : Waiter) : Bool := (w.fn == 2) != s.full w.loc

/-- Performs a waiter, whose condition holds: the result, and the state with its effect (R163). -/
def Waiter.perform (s : State) (w : Waiter) : Word × State :=
  let v := s.rd64 w.loc
  if w.fn = 0 then (v, s)
  else if w.fn = 1 then (v, s.setFull w.loc false)
  else (0, (s.wr64 w.loc w.data).setFull w.loc true)

/-- The core that HOME names in the record at a location. -/
def State.recordHome (s : State) (l : Nat) : Nat := (coreOfField (bits (s.rd64 (l + 24)) 62 48)).getD 0

/-- The core that the hardware names as the sender of a re-creation or a wake (R184), by the source of its path: the core itself, the core
whose pool is the home, or what the device puts there for another home, which has no coordinates (log entry 102). -/
def senderOf (src : Nat) : Nat :=
  if src < 4096 then src
  else if src < 8192 then src - 4096
  else Config.homeSender (src - 4096) % Config.cores

/-- Sends the re-creation of a record to a core, over the message plane from a home or the core of a RESUME (R193). -/
def State.sendRecreate (s : State) (src target job gen : Nat) (rec : Word) : State :=
  s.later 1 (some ⟨planeMessage, src, target⟩) .messageArrive
    (.msg { job := job, gen := gen, src := senderOf src, target := target, body := .recreate rec, op := none, via := src })

/-- Claims a record and fills its AUX (R192, R197, R201, R288). -/
def State.claim (s : State) (l : Nat) (v : Word) : State :=
  (s.wr64 (l + 56) v).write l 1 (s.read l 1 / 4 * 4 + 2)

/-- The wake of a performed waiter (R166, R197): a message to its core, or the re-creation of its record. -/
def Waiter.wake (s : State) (w : Waiter) (v : Word) : State :=
  let home := homeOf w.loc
  match w.peer, w.record, w.index with
  | some (dev, tag), _, _ => { s with out := s.out ++ [Outgoing.wake dev tag v] }
  | none, some r, _ =>
    match s.unitLoc w.job (bits r 47 0) with
    | some l => (s.claim l v).sendRecreate (4096 + home.num) (s.recordHome l) w.job w.gen r
    | none => s
  | none, none, some i => s.later (typical w.core home) (some ⟨planeMessage, 4096 + home.num, w.core⟩) .feWake (.wake w.core i w.op v)
  | none, none, none => s

/-- Whether a waiter still counts: its job is live, and its generation current (R166). -/
def Waiter.alive (s : State) (w : Waiter) : Bool := (s.job w.job).st == .live && (s.job w.job).gen == w.gen

/-- One pass over the waiters of a word, in the order in which they were recorded; whether one was performed. -/
def State.wakePass (s : State) : List Waiter → Bool × State
  | [] => (false, s)
  | w :: ws =>
    if !w.alive s then (s.dropWaiter w).wakePass ws
    else if w.holds s then
      let (v, s) := w.perform (s.dropWaiter w)
      (true, ((w.wake s v).wakePass ws).2)
    else s.wakePass ws

/-- Passes until one performs nothing (R166); `n` bounds them by the waiters of the word. -/
def State.wakePasses (s : State) (loc : Nat) : Nat → State
  | 0 => s
  | n + 1 =>
    let (more, s') := s.wakePass (s.waiters.filter fun w => w.loc == loc)
    if more then s'.wakePasses loc n else s'

/-- Changes the full/empty bit of a word, with the passes over its waiters when it changes (R166). -/
def State.changeFull (s : State) (loc : Nat) (full : Bool) : State :=
  if s.full loc == full then s
  else (s.setFull loc full).wakePasses loc ((s.waiters.filter fun w => w.loc == loc).length + 1)

/-! ## One step at a home -/

/-- What a home answers. -/
inductive HomeAns where
  | done (v : Vec)
  | refused (cause : Nat) (line : Nat) (info : Word)
  | notReady
  | full (w : Who)
  /-- A page of the access has still to be walked (R329). -/
  | walks (a : Word)
  /-- Poisoned data was consumed (R358). -/
  | lost (loc : Nat)
deriving DecidableEq, Repr

/-- The new value of an AMO by its function code (R50, R168). -/
def amoValue (fn : Nat) (old b : Word) : Word :=
  match fn with
  | 0x03 => old + b
  | 0x04 => old &&& b
  | 0x05 => old ||| b
  | 0x06 => old ^^^ b
  | 0x07 => if old.toInt ≤ b.toInt then old else b
  | 0x08 => if old.toNat ≤ b.toNat then old else b
  | 0x09 => if old.toInt ≤ b.toInt then b else old
  | 0x0A => if old.toNat ≤ b.toNat then b else old
  | 0x0B => b
  | _ => word (fAdd .f32 rmRNE 0 (old.toNat % 2 ^ 32) (b.toNat % 2 ^ 32)).1

/-- The size of an AMO: 4 for AMO.fadd (R168). -/
def amoSize (fn : Nat) : Nat := if fn = 0x0C then 4 else 8

/-- A plain access at its home: marked first, then performed. -/
def State.plainly (s : State) (plain : Bool) (w : Who) (region loc n : Nat) (write : Bool) (go : State → State × Vec) :
    HomeAns × State :=
  if plain then
    match s.markLines w region write (s.markable loc n) with
    | (.ok s', _) => (.done (go s').2, (go s').1)
    | (.conflict y, l) => (.refused cRace l y.info, s)
    | (.full y, _) => (.full y, s)
  else (.done (go s).2, (go s).1)

/-- A 64-bit result as a value. -/
def wide (w : Word) : Vec := w.zeroExtend 128

/-- One access at its home in one indivisible step (R143, R163, R168, R169). -/
def State.perform (s : State) (plain : Bool) (w : Who) (region : Nat) (b : OpBody) (loc : Nat) : HomeAns × State :=
  match b with
  | .load n => s.plainly plain w region loc n false fun s => (s, BitVec.ofNat 128 (s.read loc n))
  | .store kind n data =>
    s.plainly plain w region loc n true fun s =>
      let s := (s.write loc n data.toNat).cleanse loc n
      (if kind = 2 then s.changeFull loc true else s, 0)
  | .fullEmpty fn data =>
    let full := s.full loc
    match fn with
    | 0 => if full then (.done (wide (s.rd64 loc)), s) else (.notReady, s)
    | 1 => if full then (.done (wide (s.rd64 loc)), s.changeFull loc false) else (.notReady, s)
    | 2 => if full then (.notReady, s) else (.done 0, ((s.wr64 loc data).cleanse loc 8).changeFull loc true)
    | 3 => (.done (if full then 1 else 0), s.changeFull loc false)
    | _ => (.done (if full then 1 else 0), s)
  | .amo fn b =>
    let old := word (s.read loc (amoSize fn))
    (.done (wide old), s.write loc (amoSize fn) (amoValue fn old b).toNat)
  | .cas expected new =>
    let old := s.rd64 loc
    (.done (wide old), if old = expected then s.wr64 loc new else s)
  | _ => (.done 0, s)

/-- The bytes that an access touches (R144). -/
def OpBody.size : OpBody → Nat
  | .load n => n
  | .store _ n _ => n
  | .amo fn _ => amoSize fn
  | .park _ _ _ => 192
  | .member _ => 64
  | .arrive _ _ _ => 64
  | .stc _ _ form => form.length
  | .ldx _ _ => 16
  | .dxsplit ws _ => 8 * ws.length
  | _ => 8

/-- Whether an area of the machine keeps an access of a job away from a location (R12, R240, R280). -/
def State.locProtected (s : State) (job loc n : Nat) : Bool :=
  if 2 ^ 42 ≤ loc then storeProtected ((loc + n - 1 - 2 ^ 42) % 2 ^ 21)
  else if 2 ^ 40 ≤ loc then s.poolRangeProtected job ((loc - 2 ^ 40) / 2 ^ 20) ((loc - 2 ^ 40) % 2 ^ 20) n
  else false

/-! ## Ranges of the issuing core's own pool (R115) -/

/-- The first byte of a range of SELF addresses that fails, ascending: past the pool, or protected. -/
def State.firstBad (s : State) (job core off : Nat) : Nat → Option Trap
  | 0 => none
  | n + 1 =>
    if Config.poolBytes ≤ off then some (exact cBounds (word off) 0)
    else if s.poolProtected job core off then some (exact cProtect (word off) 0)
    else s.firstBad job core (off + 1) n

/-- The check of a whole range as an LNEST operand (R115). -/
def State.rangeTrap (s : State) (core : Nat) (a : Word) (n e : Nat) : Option Trap :=
  if n = 0 then none
  else if bits a 63 20 ≠ 0 then some (exact cBounds a 0)
  else if bits a 19 0 % e ≠ 0 then some (exact cMisalign a 0)
  else s.firstBad (s.jobOf core) core (bits a 19 0) n

end Sys2Proof.Machine
end

