-- ==== Sys2Proof/Machine/Group.lean ====
section
/-!
DEFINITION. Groups (R198-R201): the descriptor, JOIN and LEAVE, an arrival, and the completion of a phase, each in one step at the
descriptor's home.
-/
namespace Sys2Proof.Machine

open Sys2Proof

/-- MEMBERS, ARRIVED, EPOCH, NM1, NAN and MAXB of the descriptor at a location (R198). -/
def State.grpMembers (s : State) (l : Nat) : Nat := s.read l 4
def State.grpArrived (s : State) (l : Nat) : Nat := s.read (l + 4) 4
def State.grpEpoch (s : State) (l : Nat) : Nat := s.read (l + 8) 4
def State.grpNm1 (s : State) (l : Nat) : Nat := bits (s.rd64 (l + 8)) 35 32
def State.grpNan (s : State) (l : Nat) : Bool := bit (s.rd64 (l + 8)) 36
def State.grpMaxb (s : State) (l : Nat) : Nat := bits (s.rd64 (l + 16)) 30 0

/-- The result of a phase (R201): the F32 maximum and the E8 scale. -/
def phaseResult (nan : Bool) (maxb nm1 : Nat) : Nat × Nat :=
  if nan then (0x7FC00000, 0xFF)
  else
    match fval .f32 maxb with
    | .fin _ m e =>
      if m = 0 then (0, 0x7F)
      else
        let k : Int := (log2 m : Int) + e + 129 - ((nm1 : Int) + 1)
        (maxb, (max 0 (min 254 k)).toNat)
    | .inf _ => (0x7F800000, 0xFF)
    | .nan => (0x7FC00000, 0xFF)

/-- Re-creates the parked arrivals of a chain of at most `n`, from an entry on (R201). -/
def State.wakeChain (s : State) (src job gen : Nat) (r epoch : Word) : Nat → Word → State
  | 0, _ => s
  | n + 1, e =>
    if e = 0 then s
    else
      match s.unitLoc job (bits e 47 0) with
      | none => s
      | some l =>
        let next := s.rd64 (l + 56)
        let v := if s.gmaxers.contains (l, job) then r else epoch
        let s := { s with gmaxers := s.gmaxers.filter (· != (l, job)) }
        ((s.claim l v).sendRecreate src (s.recordHome l) job gen e).wakeChain src job gen r epoch n next

/-- The parked arrivals of other parts at a descriptor are woken (R201, R345). -/
def State.wakePeers (s : State) (l job : Nat) (r epoch : Word) : State :=
  let mine := s.peerArrivals.filter fun p => p.desc == l && p.job == job
  { s with peerArrivals := s.peerArrivals.filter fun p => !(p.desc == l && p.job == job)
           out := s.out ++ mine.map fun p => Outgoing.wake p.dev p.tag (if p.gmax then r else epoch) }

/-- The completion of a phase (R201): the result word, the epoch, and the state after. -/
def State.completePhase (s : State) (l job gen : Nat) : Word × Word × State :=
  let (mx, e) := phaseResult (s.grpNan l) (s.grpMaxb l) (s.grpNm1 l)
  let r := word (e * 2 ^ 32 + mx)
  let epoch := s.grpEpoch l
  let head := s.rd64 (l + 24)
  let s := (s.wakeChain (4096 + (homeOf l).num) job gen r (word epoch) (s.grpArrived l) head).wakePeers l job r (word epoch)
  let s := s.wrWords (l + 24) [0, 0, word (e * 2 ^ 32 + mx)]
  let s := (s.write (l + 4) 4 0).write (l + 8) 4 (epoch + 1)
  let s := s.wr64 (l + 8) (s.rd64 (l + 8) &&& ~~~(word (2 ^ 36)))
  (r, word epoch, s.write (l + 16) 4 (s.read (l + 16) 4 / 2 ^ 31 * 2 ^ 31))

/-- JOIN and LEAVE at the descriptor's home (R199). -/
def State.performMember (s : State) (l job gen : Nat) (leave : Bool) : HomeAns × State :=
  let n := s.grpMembers l
  if leave then
    if n = 0 then (.done (wide (-1)), s)
    else
      let s := s.write l 4 (n - 1)
      let s := if 0 < s.grpArrived l ∧ n - 1 ≤ s.grpArrived l then (s.completePhase l job gen).2.2 else s
      (.done (BitVec.ofNat 128 (n - 1)), s)
  else if n = 0xFFFFFFFF then (.done (wide (-1)), s)
  else (.done (BitVec.ofNat 128 (n + 1)), s.write l 4 (n + 1))

/-- The count of an arrival and its contribution (R200). -/
def State.countArrival (s : State) (l : Nat) (gmax : Option (BitVec 32)) : State :=
  let s := s.write (l + 4) 4 (s.grpArrived l + 1)
  match gmax with
  | none => s
  | some c =>
    if isNaN .f32 c.toNat then s.wr64 (l + 8) (s.rd64 (l + 8) ||| word (2 ^ 36))
    else
      let w := s.rd64 (l + 16)
      s.wr64 (l + 16) (setBits w 30 0 (max (bits w 30 0) (c.toNat % 2 ^ 31)))

/-- Appends a parked arrival at TAIL, chained through AUX (R200). -/
def State.chainArrival (s : State) (l job : Nat) (e : Word) : State :=
  let tail := s.rd64 (l + 32)
  let s := if tail = 0 then s.wr64 (l + 24) e
    else
      match s.unitLoc job (bits tail 47 0) with
      | some t => s.wr64 (t + 56) e
      | none => s
  s.wr64 (l + 32) e

end Sys2Proof.Machine
end

