-- ==== Sys2Proof/Machine/Access.lean ====
section
/-!
DEFINITION. How an access of a thread goes to its home (R146-R156): what holds it at the core, the journal of posted stores
(R149-R151), leaving the core, the answer, and the packed form of STC and LDX (R172).
-/
namespace Sys2Proof.Machine

open Sys2Proof

/-! ## What orders what -/

/-- Whether a body is a memory access, which a release waits for (R154). -/
def OpBody.isAccess : OpBody → Bool
  | .load _ | .store _ _ _ | .fullEmpty _ _ | .amo _ _ | .cas _ _ | .stc _ _ _ | .ldx _ _ | .member _ | .tref _
  | .dxsplit _ _ => true
  | b => b.isList

/-- Whether an operation is an acquire: an ordered operation that reads, a fence, or a work-list operation with a result (R145, R156,
R283). -/
def Op.acquires (o : Op) : Bool :=
  (o.body.isList && o.dst.isSome) || (o.ord == .acquire || o.ord == .seqcst) &&
    match o.body with
    | .store _ _ _ | .stc _ _ _ => false
    | _ => true

/-- Whether an operation is a release: an ordered operation that writes, a fence, a message-plane or a work-list operation (R145,
R156, R182, R283). -/
def Op.releases (o : Op) : Bool :=
  o.body.isMessage || o.body.isList ||
    ((o.ord == .release || o.ord == .seqcst) &&
      match o.body with
      | .load _ | .ldx _ _ => false
      | .fullEmpty fn _ => fn != 0 && fn != 4
      | _ => true)

/-- Whether an address names the issuing core's own pool (R22). -/
def inOwnPool (core : Nat) (a : Word) : Bool :=
  isSelf a || (bits a 63 61 == 1 && bits a 59 53 == xOf core && bits a 52 46 == yOf core)

/-- Whether an operation writes to its core's own pool beside its address: LDX and a batch of WLPOPB do (R174, R287). -/
def OpBody.writesPool : OpBody → Bool
  | .ldx _ _ | .wlpopb _ _ | .popped _ _ _ => true
  | _ => false

/-- Whether a home of an operation lies in a scope (R153): a PEER address that names this device lies on it. -/
def State.inScope (s : State) (o : Op) : FScope → Bool
  | .dom => true
  | .dev => !isPeer o.addr || bits o.addr 57 48 == s.devnum || o.body.writesPool
  | .core => inOwnPool o.ctx.core o.addr || o.body.writesPool

/-- The locations of the bytes of a range of addresses, as ranges: those of another part stand above every location of this one, and a range
of DEVICE addresses may go on in a second page. -/
def State.ranges (s : State) (core : Nat) (a : Word) (n : Nat) : List (Nat × Nat) :=
  match s.place core a with
  | .ok (.peer dev va) => [(2 ^ 60 + dev * 2 ^ 48 + va, n)]
  | .ok (.device va) =>
    let m := min n (2 ^ 16 - va % 2 ^ 16)
    let part (va n : Nat) : List (Nat × Nat) := if n = 0 then [] else ((s.locOf (s.jobOf core) va).map fun l => (l, n)).toList
    part va m ++ part (va + m) (n - m)
  | _ => ((s.addrLoc core a).map fun l => (l, n)).toList

/-- The longest packed form (R172): 4,096 elements of 8 bytes. -/
def packMost : Nat := 16 + 512 + 4096 * 8

/-- The ranges of locations that an operation reads or writes; of a packed form to be read, as far as one can reach. -/
def State.footprint (s : State) (o : Op) : List (Nat × Nat) :=
  match o.body with
  | .tref _ =>
    s.ranges o.ctx.core o.addr o.body.size ++ s.ranges o.ctx.core (countAddr (s.nodeWord o.addr 2) (s.nodeWord o.addr 3)) 8
  | .ldx dst cap => (poolLoc o.ctx.core (bits dst 19 0), bits cap 31 0) :: s.ranges o.ctx.core o.addr packMost
  | b => s.ranges o.ctx.core o.addr b.size

/-- Whether two ranges share a byte. -/
def overlaps (a b : Nat × Nat) : Bool := decide (a.1 < b.1 + b.2) && decide (b.1 < a.1 + a.2)

/-- Whether two operations touch a common byte (R146). -/
def State.clash (s : State) (p o : Op) : Bool :=
  (s.footprint p).any fun a => (s.footprint o).any fun b => overlaps a b

/-- The operations of the same thread that were issued before an operation. -/
def State.before (s : State) (o : Op) : List Op := (s.ops.takeWhile fun p => p.id != o.id).filter fun p => p.thread == o.thread

/-- Whether an earlier access is still to be performed, accepted or refused (R154). -/
def Op.unsettled (p : Op) : Bool := p.body.isAccess && p.reason == 0

/-- Whether an operation holds the thread's later accesses at the core: an acquire, or a fence, that is not performed (R155, R170). -/
def Op.bars (p : Op) : Bool := (p.acquires || p.body == .fence) && !p.performed

/-- The home of an operation's first byte, as far as it is known at its core. -/
def State.opHome (s : State) (o : Op) : Home :=
  match s.addrLoc o.ctx.core o.addr with
  | some l => homeOf l
  | none => .stack 0

/-- Whether two accesses go to one home on different planes, where the mesh does not keep their order (R146, R331): one of the two is a work-list
operation. -/
def State.crosses (s : State) (p o : Op) : Bool :=
  p.body.isList != o.body.isList && o.body.isAccess && p.unsettled && s.opHome p == s.opHome o

/-- Whether an operation is held at its core: an earlier acquire or fence is unperformed (R155, R170), an earlier access
to a common byte, or to the same home on another plane, is not settled (R146), or an earlier operation of the total order is unperformed
(R156). -/
def State.held (s : State) (o : Op) : Bool :=
  (s.before o).any fun p =>
    p.bars || s.crosses p o || (o.body.isAccess && p.unsettled && s.clash p o) || (p.ord == .seqcst && o.ord == .seqcst && !p.performed)

/-- Whether the accesses that a context is to make to its own pool in its slots are held back (R146, R155, R170): an acquire or a fence of its
thread is unperformed, or an access to that pool is not settled. -/
def State.poolHeld (s : State) (c : CtxId) : Bool :=
  (s.opsOf c).any fun p =>
    p.bars || (p.unsettled && (s.footprint p).any fun r => homeOf r.1 == .pool c.core)

/-- Whether the accesses that a release waits for have been settled (R154 item 1). -/
def State.settled (s : State) (o : Op) : Bool :=
  !((s.before o).any fun p => p.unsettled && s.inScope p o.scope)

/-- Whether marks that a release clears are still set (R154 item 2). -/
def State.marksLeft (s : State) (o : Op) : Bool :=
  (s.marks.any fun m => m.named o.ctx o.region o.scope) || s.peerLog.any fun m => m.named o.ctx o.region o.scope

/-- Whether a release may be performed, once its marks are cleared. -/
def State.mayRelease (s : State) (o : Op) : Bool := !o.releases || s.settled o

/-! ## Leaving the core -/

/-- Whether a core is not there for a job's messages (R183): it holds another job, or the job is switched out. -/
def State.jobAway (s : State) (job core : Nat) : Bool := (s.job job).sched == .switchedOut || (s.core core).owner != some job

/-- Whether an operation of a continuation stays at its core because its job stands still: the job is quiesced or switched out (R314, R317). -/
def State.stopped (s : State) (o : Op) : Bool :=
  o.record.isSome && ((s.job o.job).sched == .quiesced || s.jobAway o.job o.ctx.core)

/-- The core whose sequencer a message-plane operation goes to, or its home, as the end of its path (R183). -/
def State.opTarget (s : State) (o : Op) : Nat :=
  match o.body with
  | .send t _ _ _ => t
  | .taskset t _ _ _ _ => t
  | _ =>
    match s.place o.ctx.core o.addr with
    | .ok (.peer dev _) => 2 ^ 20 + dev
    | _ => (s.opHome o).num

/-- The step that an operation takes where it arrives. -/
def OpBody.arrival : OpBody → Instr
  | .taskset _ _ _ _ _ => .tasksetAtTarget
  | .resume _ => .resumeAtHome
  | .park _ _ _ => .parkAtHome
  | .arrive _ _ _ => .groupArrival
  | .nseal => .nsealAtHome
  | .nkill => .nkillAtHome
  | .relink _ => .relinkAtHome
  | .link _ => .netJoin
  | .wlinit => .wlinitAtHome
  | .wlpush _ => .wlpushAtHome
  | .wlinsu _ => .wlinsuAtHome
  | .wlpopb _ _ => .wlpopbAtHome
  | .wldrain => .wldrainAtHome
  | .icinv _ => .invalidateComplete
  | .tlbinv _ => .invalidateComplete
  | .repart => .repartApply
  | .killj => .killjComplete
  | .cancelj => .canceljComplete
  | _ => .homeAccess

/-- The plane that carries an operation (R331). -/
def OpBody.plane (b : OpBody) : Nat :=
  match b with
  | .arrive _ _ _ => planeMessage
  | _ => if b.isMessage || b.isLink || b.isList then planeMessage else planeRequest

/-- The path of an operation from its core to its home or target, whose order is kept (R146, R183, R332). -/
def State.opPath (s : State) (o : Op) : Path := ⟨o.body.plane, o.ctx.core, s.opTarget o⟩

/-- The path of an answer from the home of a location to an operation's core (R331, R332). -/
def Op.backPath (o : Op) (loc : Nat) : Path := ⟨planeResponse, (homeOf loc).num, o.ctx.core⟩

/-- The operation leaves its core for its home or target (R146, R183, R332), or for the island when it goes to another device
(R345). -/
def State.leave (s : State) (o : Op) : State :=
  let home := s.opHome o
  let path : Path := s.opPath o
  match o.body with
  | .send t ch nw p =>
    let (lat, s) := s.latency (typical o.ctx.core (.pool t) + s.slow o.ctx.core (.pool t))
    (s.setOp { o with left := true }).later (lat / 2) (some path) .messageArrive
      (.msg { job := o.job, gen := o.gen, src := o.ctx.core, target := t, body := .start ch nw p, op := some o.id,
              via := o.ctx.core })
  | .taskset t _ _ _ _ =>
    let (lat, s) := s.latency (typical o.ctx.core (.pool t) + s.slow o.ctx.core (.pool t))
    (s.setOp { o with left := true }).later (lat / 2) (some path) .tasksetAtTarget (.num o.id)
  | _ =>
    let (lat, s) := s.latency (typical o.ctx.core home + s.slow o.ctx.core home)
    match s.place o.ctx.core o.addr with
    | .ok (.peer _ _) =>
      (s.setOp { o with left := true, loc := some (2 ^ 60 + bits o.addr 57 0) }).later (lat / 2)
        (some path) .peerRequest (.peer (.outgoing o.id))
    | .ok (.pool c off) =>
      (s.setOp { o with left := true, loc := some (poolLoc c off) }).later (lat / 2) (some path) o.body.arrival (.num o.id)
    | .ok (.store k off) =>
      (s.setOp { o with left := true, loc := some (storeLoc k off) }).later (lat / 2) (some path) o.body.arrival (.num o.id)
    | _ => (s.setOp { o with left := true }).later (lat / 2) (some path) o.body.arrival (.num o.id)

/-- Whether an earlier operation on the message plane from this core to the same target has not left yet (R183, R215). -/
def State.behind (s : State) (o : Op) : Bool :=
  o.body.plane == planeMessage &&
    (s.ops.takeWhile fun p => p.id != o.id).any fun p =>
      p.body.plane == planeMessage && p.ctx.core == o.ctx.core && !p.left && s.opTarget p == s.opTarget o

/-- The operation with its marks cleared leaves as soon as nothing holds it; otherwise it is looked at again in the next
cycle. -/
def State.tryLeave (s : State) (o : Op) (again : Instr) : State :=
  if s.held o || !s.mayRelease o || s.behind o || s.stopped o then s.later 1 none again (.num o.id)
  else if o.releases && s.marksLeft o then (s.later 0 none .markClear (.num o.id)).later 1 none again (.num o.id)
  else s.leave o

/-- Issues an operation that is not posted: it stays outstanding until its home answers. -/
def State.launch (s : State) (o : Op) : State :=
  let o := { o with id := s.nextId }
  (s.addOp o).tryLeave o .homeAccess

/-- The register that a long operation makes pending. -/
def Ctx.pendDst (x : Ctx) : Option Reg → Ctx
  | some r => x.setPend r
  | none => x

/-! ## The journal -/

/-- The first free journal index from the one after the entry taken last, wrapping from 63 to 0 (R151). -/
def freeJournal (used : List Nat) (from' : Nat) : Nat → Option Nat
  | 0 => none
  | n + 1 => if used.contains (from' % 64) then freeJournal used (from' + 1) n else some (from' % 64)

/-- The waiting entry that a plain store merges into (R151): no later operation of the thread orders the two, neither one that touches a
common byte (R146) nor an acquire or a fence (R155, R170). -/
def State.mergeInto (s : State) (o : Op) : Option Op :=
  let mine := s.opsOf o.ctx
  let fits (p : Op) : Bool :=
    p.jidx.isSome && !p.left && p.plain && p.reason == 0 && p.addr == o.addr && p.body.size == o.body.size &&
      !(mine.any fun q => decide (p.id < q.id) && (q.bars || (q.body.isAccess && s.clash q o)))
  if o.plain then (mine.reverse.find? fits) else none

/-- Posts a store (R149): it merges, takes an entry, or holds its context STALLED; `go` then goes on. A merged entry names the later store as
its instruction (log entry 100) and keeps the region of the earlier one: DESIGN CHOICE (log entry 124). -/
def State.post (s : State) (o : Op) (go : State → State) : State :=
  match s.mergeInto o with
  | some p => go (s.setOp { p with body := o.body, pc := o.pc, word := o.word })
  | none =>
    let co := s.core o.ctx.core
    match freeJournal ((s.journal o.ctx.core).filterMap (·.jidx)) co.jnext 64 with
    | none => s.setCtx o.ctx { s.ctx o.ctx with st := .stalled }
    | some i =>
      let o := { o with id := s.nextId, jidx := some i }
      go (((s.setCore o.ctx.core { co with jnext := (i + 1) % 64 }).addOp o).later 1 none .journalLeave (.num o.id))

/-- Contexts that a full journal or command queue held back try again (R8, R27). -/
def State.unstall (s : State) (core : Nat) : State :=
  (s.coreCtxs core).foldl (fun s c =>
    if (s.ctx c).st = .stalled then s.setCtx c { s.ctx c with st := .running } else s) s

/-! ## The packed form (R172) -/

/-- The bytes of an element type by number. -/
def tyBytes (t : Nat) : Nat := ((ETy.byNum t).map ETy.bytes).getD 1

/-- The bytes of the mask of a packed form. -/
def packMask (count : Nat) : Nat := 16 * ((count + 127) / 128)

/-- LEN of a packed form (R172). -/
def packLen (count nnz e : Nat) : Nat := 16 + packMask count + 16 * ((nnz * e + 15) / 16)

/-- Cuts a list of bytes into elements of `e` bytes. -/
def elements (e : Nat) : Nat → List Byte → List (List Byte)
  | 0, _ => []
  | n + 1, bs => bs.take e :: elements e n (bs.drop e)

/-- The number of a list of bits, lowest first. -/
def bitsNat : List Bool → Nat
  | [] => 0
  | b :: bs => (if b then 1 else 0) + 2 * bitsNat bs

/-- The packed form of `count` elements of type `ty` (R172). -/
def packForm (ty count : Nat) (src : List Byte) : List Byte :=
  let e := tyBytes ty
  let els := elements e count src
  let on := els.map fun x => x.any (· != 0)
  let vals := (els.filter fun x => x.any (· != 0)).flatten
  let nnz := (on.filter id).length
  let len := packLen count nnz e
  leBytes 8 (count + ty * 2 ^ 16 + 2 ^ 20 + nnz * 2 ^ 32) ++ leBytes 8 len ++ leBytes (packMask count) (bitsNat on)
    ++ vals ++ List.replicate (len - 16 - packMask count - vals.length) 0

/-! ## The hardware's tables in the system area (R12) -/

/-- Word `i` of the journal entry that an operation holds (R150). -/
def Op.journalWord (o : Op) (i : Nat) : Word :=
  match o.body with
  | .store kind n d =>
    match i with
    | 0 => o.addr
    | 1 => d.truncate 64
    | 2 => (d >>> 64).truncate 64
    | _ =>
      let st := if o.reason ≠ 0 then 3 else if o.left then 2 else 1
      Machine.word (bits o.pc 47 2 * 2 ^ 18 + o.ctx.k * 2 ^ 14 + o.reason * 2 ^ 9 + o.ord.code.toNat * 2 ^ 7 + kind * 2 ^ 5
        + (if kind = 0 then log2 n else 0) * 2 ^ 3 + bitAt o.mx 2 + st)
  | _ => 0

/-- Word `i` of a wait-table entry (R194). -/
def State.waitWord (s : State) (core n i : Nat) : Word :=
  match mget none (s.core core).waits n with
  | none => 0
  | some e =>
    match i with
    | 0 => e.addr
    | 1 =>
      let turns := match s.op e.op with
        | some o => if e.parked then 0 else (o.deadline - s.cycle) / ctxCount (s.core core).partword
        | none => 0
      word (turns * 2 ^ 16 + e.ctx * 2 ^ 10 + e.dreg * 16 + e.fn * 4 + if e.parked then 2 else 1)
    | 2 => e.data
    | _ => 0

/-- Word `i` of a dispatch-ring entry (R184). -/
def State.ringWord (s : State) (core n i : Nat) : Word :=
  match mget none (s.core core).ring n with
  | none => if i = 0 then 3 else 0
  | some e =>
    let prio := min 3 (e.base + (s.cycle - e.time) / 4096)
    let ws := inboxWords e.time prio { job := e.job, gen := e.gen, src := 0, target := 0, body := e.body, op := none, via := 0 }
    if i = 1 then word (jobid e.job e.gen * 2 ^ 16 + e.sender) else ws.getD i 0

/-- A word of a core's system area that the hardware keeps in its own tables: the journal, the wait table, the dispatch ring (R12). -/
def State.tableWord (s : State) (core off : Nat) : Option Word :=
  let o := off - sysBase
  if off < sysBase + 0x400 ∨ sysBase + 0x4800 ≤ off then none
  else if o < 0xC00 then
    some (match (s.journal core).find? fun p => p.jidx == some ((o - 0x400) / 32) with
      | some p => p.journalWord (o % 32 / 8)
      | none => 0)
  else if o < 0x1000 then some (s.waitWord core ((o - 0xC00) / 32) (o % 32 / 8))
  else if o < 0x2800 then none
  else some (s.ringWord core ((o - 0x2800) / 64) (o % 64 / 8))

/-- Whether a range of locations lies where the system area of a pool shows the hardware's tables. -/
def inTables (loc n : Nat) : Bool :=
  decide (2 ^ 40 ≤ loc) && decide (loc < 2 ^ 42) && decide ((loc - 2 ^ 40) % 2 ^ 20 < sysBase + 0x4800)
    && decide (sysBase + 0x400 < (loc - 2 ^ 40) % 2 ^ 20 + n)

/-- The memory with the words of a range as the hardware's tables hold them, for an access that reads them (R12); a store there changes
nothing that the tables hold (log entry 22). -/
def State.shown (s : State) (loc n : Nat) : State :=
  if inTables loc n then
    let core := (loc - 2 ^ 40) / 2 ^ 20
    (wordsOf loc n).foldl (fun t w =>
      match s.tableWord core ((8 * w - 2 ^ 40) % 2 ^ 20) with
      | some v => t.wr64 (8 * w) v
      | none => t) s
  else s

/-- The bytes of a range as an access reads them. -/
def State.seenBytes (s : State) (loc n : Nat) : List Byte := (s.shown loc n).readBytes loc n

/-! ## Accesses of many pieces -/

/-- The location of the bytes that an access of a job reaches, with the checks of R23, R12, R240 and R362 and a translation of DEVICE
addresses, or the cause and the address of the fault. A home on a die in OFF or RESET answers ENDPOINT_DOWN (R339, log entry 34). -/
def State.reachBy (s : State) (tr : Nat → Except Nat Nat) (core job : Nat) (a : Word) (size : Nat) : Except (Nat × Word) Nat :=
  let served (loc : Nat) (kept : Bool) : Except (Nat × Word) Nat :=
    if s.homeDown loc then .error (cEndpoint, a) else if kept then .error (cProtect, a) else .ok loc
  match s.place core a with
  | .error t => .error (t.cause, a)
  | .ok (.pool c off) => served (poolLoc c off) (s.poolRangeProtected job c off size)
  | .ok (.store k off) => served (storeLoc k off) (storeProtected (off + size - 1))
  | .ok (.peer _ _) => .error (cEndpoint, a)
  | .ok (.device va) =>
    match tr va with
    | .error c => .error (c, a)
    | .ok pa => served pa (s.granuleRetired pa size)

/-- What an access of a core's threads or engines reaches: through the TLB of its cluster; cause 0 says that it waits for a walk (R328, R329). -/
def State.reach (s : State) (core job : Nat) (n : Need) (a : Word) (size : Nat) : Except (Nat × Word) Nat :=
  s.reachBy (fun va => s.pageAt (clusterOf core) job va n) core job a size

/-- What an access of the hardware's own units reaches: they walk for each access at once. -/
def State.reachNow (s : State) (core job : Nat) (n : Need) (a : Word) (size : Nat) : Except (Nat × Word) Nat :=
  s.reachBy (fun va => s.walkTo job va n) core job a size

/-- A fault that an operation's `reach` has answered is taken: the next access there is walked again (R328). -/
def State.reachFault (s : State) (o : Op) (a : Word) : State := s.spent (clusterOf o.ctx.core) o.job a

/-- The miss of an access of a core's threads or engines that waits for a walk. -/
def State.missAt (s : State) (core job : Nat) (n : Need) (a : Word) : State := s.addMiss (clusterOf core) job (bits a 47 0) [n]

/-- The locations of the 16-byte pieces of a range. -/
def State.pieces (s : State) (core job : Nat) (n : Need) (a : Word) : Nat → Except (Nat × Word) (List Nat)
  | 0 => .ok []
  | k + 1 => do
    let l ← s.reach core job n a 16
    let ls ← s.pieces core job n (a + 16) k
    return l :: ls

/-- The bytes at a list of 16-byte pieces. -/
def State.gather16 (s : State) (ls : List Nat) : List Byte := ls.flatMap fun l => s.seenBytes l 16

/-- Writes bytes to a list of 16-byte pieces. -/
def State.scatter16 (s : State) : List Nat → List Byte → State
  | [], _ => s
  | l :: ls, bs => ((s.writeBytes l (bs.take 16)).cleanse l 16).scatter16 ls (bs.drop 16)

/-- The writes of STC (R173): plain 16-byte writes, all marked, none where one is refused. -/
def State.performStc (s : State) (o : Op) (form : List Byte) : HomeAns × State :=
  match s.pieces o.ctx.core o.job .write o.addr (form.length / 16) with
  | .error (0, a) => (.walks a, s)
  | .error (c, a) => (.refused c 0 0, s.reachFault o a)
  | .ok ls =>
    match s.markLines o.who o.region true (ls.flatMap fun l => s.markable l 16).eraseDups with
    | (.ok s', _) => (.done (BitVec.ofNat 128 form.length), s'.scatter16 ls form)
    | (.conflict y, l) => (.refused cRace l y.info, s)
    | (.full y, _) => (.full y, s)

/-- The elements that LDX writes (R174): the value of each set mask bit in turn, and 0 for the rest. -/
def expandElements (e : Nat) : Nat → List Bool → List (List Byte) → List Byte
  | 0, _, _ => []
  | n + 1, true :: ms, v :: vs => v ++ expandElements e n ms vs
  | n + 1, true :: ms, [] => List.replicate e 0 ++ expandElements e n ms []
  | n + 1, _ :: ms, vs => List.replicate e 0 ++ expandElements e n ms vs
  | n + 1, [], vs => List.replicate e 0 ++ expandElements e n [] vs

/-- LDX at its home (R174). It reads the whole form before it writes the first element, also where its destination overlaps the form: DESIGN CHOICE
(log entry 125). An element of less than 8 bytes merges into a poisoned word (R358). -/
def State.performLdx (s : State) (o : Op) (dst cap : Word) : HomeAns × State :=
  match s.pieces o.ctx.core o.job .read o.addr 1 with
  | .error (0, a) => (.walks a, s)
  | .error (c, a) => (.refused c 0 0, s.reachFault o a)
  | .ok hs =>
    let hdr := word (leNat (s.gather16 hs))
    let len := leNat ((s.gather16 hs).drop 8) % 2 ^ 32
    let count := bits hdr 15 0
    let ty := bits hdr 19 16
    let nnz := bits hdr 47 32
    let e := tyBytes ty
    let ok := bits hdr 23 20 == 1 && decide (ty ≤ 10) && decide (1 ≤ count) && decide (count ≤ 4096) && decide (nnz ≤ count)
      && len == packLen count nnz e
    let who := o.who
    if !ok then
      match s.markLines who o.region false (hs.flatMap fun l => s.markable l 16) with
      | (.ok s', _) => (.done (wide (-1)), s')
      | (.conflict y, l) => (.refused cRace l y.info, s)
      | (.full y, _) => (.full y, s)
    else if bits dst 19 0 % e ≠ 0 then (.refused cMisalign 0 0, s)
    else
      match s.pieces o.ctx.core o.job .read o.addr (len / 16) with
      | .error (0, a) => (.walks a, s)
      | .error (c, a) => (.refused c 0 0, s.reachFault o a)
      | .ok ls =>
       match (ls.filterMap fun l => s.poisoned l 16).head? with
       | some p => (.lost p, s)
       | none =>
        let all := s.gather16 ls
        let n := min count (bits cap 31 0 / e)
        let mask := (all.drop 16).take (packMask count) |>.flatMap fun b => (List.range 8).map b.getLsbD
        let vals := elements e nnz (all.drop (16 + packMask count))
        let dest := poolLoc o.ctx.core (bits dst 19 0)
        match s.markLines who o.region false (ls.flatMap fun l => s.markable l 16).eraseDups with
        | (.ok s1, _) =>
          match s1.markLines who o.region true (if n = 0 then [] else s1.markable dest (n * e)) with
          | (.ok s2, _) =>
            match if e < 8 then s2.poisoned dest (n * e) else none with
            | some p => (.lost p, s)
            | none => (.done (BitVec.ofNat 128 count), (s2.writeBytes dest (expandElements e n mask vals)).cleanse dest (n * e))
          | (.conflict y, l) => (.refused cRace l y.info, s)
          | (.full y, _) => (.full y, s)
        | (.conflict y, l) => (.refused cRace l y.info, s)
        | (.full y, _) => (.full y, s)

/-- One step at the home of an operation of this device. -/
def State.performOp (s : State) (o : Op) (loc : Nat) : HomeAns × State :=
  match s.consumed o.body loc o.body.size with
  | some l => (.lost l, s)
  | none =>
  match o.body with
  | .stc _ _ form => s.performStc o form
  | .ldx dst cap => s.performLdx o dst cap
  | .member leave => s.performMember loc o.job o.gen leave
  | b =>
    if inTables loc b.size then
      (((s.shown loc b.size).perform o.plain o.who o.region b loc).1, (s.perform o.plain o.who o.region b loc).2)
    else s.perform o.plain o.who o.region b loc

/-! ## Issue -/

/-- Whether an operation counts against the four of R123: its latency is that of a home other than the issuer's own pool. -/
def fallibleAt (a : Word) : Bool := !isSelf a

/-- The fallible operations, or another class of operations, that a context has outstanding. -/
def State.countOps (s : State) (c : CtxId) (p : Op → Bool) : Nat := ((s.opsOf c).filter p).length

/-- An instruction that waits as R46 states before it can be issued: the context stays at it in MARKER. -/
def State.wait (s : State) (c : CtxId) : State := s.marker c

/-- The checks of an access at issue (R144, R147, R148): form, mesh and rectangle; alignment; and for a SELF address the
protected areas. -/
def State.checkAccess (s : State) (core : Nat) (a : Word) (size : Nat) : Except Trap Place :=
  match s.place core a with
  | .error t => .error t
  | .ok p =>
    if a.toNat % size ≠ 0 then .error (exact cMisalign a 0)
    else if isSelf a && s.poolRangeProtected (s.jobOf core) core (bits a 19 0) size then .error (exact cProtect a 0)
    else .ok p

/-- The address that a refusal names (R174): the destination for the MISALIGN of LDX, else the address of the operation. -/
def Op.refusedAddr (o : Op) (cause : Nat) : Word :=
  match o.body with
  | .ldx dst _ => if cause = cMisalign then dst else o.addr
  | _ => o.addr

/-- The checks of R23, with the protected areas for a SELF address, and then of an alignment. -/
def State.checkThen (s : State) (core : Nat) (a : Word) (al size : Nat) : Option Trap :=
  match s.place core a with
  | .error t => some t
  | .ok _ =>
    if isSelf a && s.poolRangeProtected (s.jobOf core) core (bits a 19 0) size then some (exact cProtect a 0)
    else if a.toNat % al ≠ 0 then some (exact cMisalign a 0)
    else none

/-- TRAPVAL of a refused access to the issuer's own pool (R159, R174): the line's SELF offset for RACE. -/
def State.refusedAt (_ : State) (o : Op) (cause line : Nat) : Word :=
  if cause = cRace then word (line * 64 - poolLoc o.ctx.core 0) else o.refusedAddr cause

/-- Issues an access to the issuer's own pool at once (R149): performed in its issue cycle, its result due after 5 cycles. One for whose mark there is
no room, or one of whose pages is still to be walked, stays at its instruction (R160, R329). -/
def State.performSelf (s : State) (o : Op) (go : State → State) : Except Trap State :=
  let s := if o.releases then s.clearMarks o.ctx o.region o.scope else s
  match s.performOp o (poolLoc o.ctx.core (bits o.addr 19 0)) with
  | (.done v, s') =>
    match o.body with
    | .store _ _ _ => .ok (go s')
    | _ =>
      let o := { o with id := s'.nextId, body := .result v 0, performed := true }
      .ok (go ((s'.addOp o).later Config.latLocal none .longResultReturn (.answer o.id none)))
  | (.refused c l info, _) =>
    .error (exact c (s.refusedAt o c l) info)
  | (.notReady, s') =>
    let on := s'.canBlock o.ctx
    let o := { o with id := s'.nextId, left := true, loc := some (poolLoc o.ctx.core (bits o.addr 19 0)), blocking := on }
    let s' := if on then s'.setCtx o.ctx ((s'.ctx o.ctx).reach s'.cycle) else s'
    .ok (go ((s'.addOp o).later 1 none .feRetry (.num o.id)))
  | (.full w, s') =>
    match o.body with
    | .store _ _ _ => .ok ((s'.askRelease w).post o go)
    | _ => .ok (s.askRelease w)
  | (.walks a, _) => .ok (s.missAt o.ctx.core o.job o.body.need a)
  | (.lost l, s') => .ok (s'.lose o.job (lossAt o.ctx o.pc o.addr l))

/-- Whether a fallible operation waits as R46 states before it is issued (R123): four operations are outstanding or stand unreported in the
fault list of four entries, and the wait has something to end with. -/
def State.fallibleFull (s : State) (c : CtxId) : Bool :=
  decide (4 ≤ s.countOps c (fun p => p.fallible) + ((s.ctx c).faults.filter fun f => !f.reported && !f.reissued).length)
    && (s.outstanding c || (s.ctx c).faultTrap.isSome)

/-- That wait: in MARKER while an operation is outstanding, and else the trap of the oldest entry of the fault list. -/
def State.fallibleWait (s : State) (c : CtxId) : State := if s.outstanding c then s.wait c else s.faultFirst c s

/-- Whether an access to the issuer's own pool cannot be performed in its issue cycle: an earlier access to that pool is unsettled (R146, R395), or
its order holds it back (R154, R155, R170). -/
def State.selfHeld (s : State) (c : CtxId) (o : Op) : Bool := s.poolHeld c || s.held o || !s.mayRelease o

/-- A plain access to the own pool waits at its instruction, in MARKER while an operation is outstanding, as R46 lays down. -/
def State.selfWait (s : State) (c : CtxId) : State := if s.outstanding c then s.wait c else s

/-- Issues an access whose address has been checked: a posted store, an access to the issuer's own pool at once, or an operation
that goes to its home (R149); a fifth fallible operation waits (R123). The context then goes on. An access to its own pool that its order holds back
(R146, R155) goes there as an operation; one that checks marks waits at its instruction until it can be performed, so that its RACE is exact
(R147, log entry 20). -/
def State.accessChecked (s : State) (c : CtxId) (o : Op) : Except Trap State :=
  let turns := (s.ctx c).feretry.toNat * ctxCount (s.core c.core).partword
  let region (s : State) : State :=
    if o.releases then s.setCtx c { s.ctx c with region := (s.ctx c).region + 1 } else s
  let go (s : State) : State := (region s).retire c fun x => x.pendDst o.dst
  let probe := { o with id := s.nextId }
  match o.body with
  | .store _ _ _ =>
    let quiet := !((s.opsOf c).any fun p =>
      ((p.acquires || p.releases) && !p.performed) || (p.jidx.isSome && !p.left && p.reason == 0))
    if isSelf o.addr && quiet && !s.selfHeld c probe then s.performSelf o go else .ok (s.post o go)
  | _ =>
    let o := { o with fallible := fallibleAt o.addr, deadline := s.cycle + turns }
    if o.fallible && s.fallibleFull c then .ok (s.fallibleWait c)
    else if isSelf o.addr && !s.selfHeld c probe then s.performSelf o go
    else if isSelf o.addr && o.plain then .ok (s.selfWait c)
    else .ok (go (s.launch o))

/-- Issues an access (R148): checked first. -/
def State.access (s : State) (c : CtxId) (o : Op) : Except Trap State :=
  match s.checkAccess c.core o.addr o.body.size with
  | .error t => .error t
  | .ok _ => s.accessChecked c o

end Sys2Proof.Machine
end

