-- ==== Sys2Proof/Machine/Waits.lean ====
section
/-!
DEFINITION. The steps of operations that are outstanding: results and faults that return (R43, R123, R401), the journal's steps
(R151, R124), marks and fences (R154, R160, R170), the end of a marker wait (R46, R54, R165), and the waits on full/empty words
(R164-R167, R194-R197).
-/
namespace Sys2Proof.Machine

open Sys2Proof

/-! ## Records of continuations that hold operations (R401) -/

/-- The slot of a register in the record at a location, when its maps name it (R189). -/
def State.slotOf (s : State) (l : Nat) : Reg → Option Nat
  | .g n => if bit (s.rd64 (l + 8)) n then some (l + 64 + 8 * (maskRegs n (s.rd64 (l + 8))).length) else none
  | .v n =>
    let vm := word (bits (s.rd64 (l + 16)) 31 0)
    if bit vm n then
      some (l + 64 + 8 * (maskRegs 64 (s.rd64 (l + 8))).length + 16 * (maskRegs n vm).length)
    else none

/-- A continuation made at a marker is re-created as soon as it holds its results (R47, R401). -/
def State.wakeMarker (s : State) (job gen : Nat) (rec : Word) : State :=
  match s.recordLoc job rec with
  | some l =>
    if s.runnable rec && bits (s.rd64 (l + 16)) 62 59 == 7 && s.read l 1 % 4 == 1 then
      (s.claim l (s.rd64 (l + 56))).sendRecreate (s.recordHome l) (s.recordHome l) job gen rec
    else s
  | none => s

/-- Changes the fault list that stays with a continuation at its home core (R123, R401), and FLT of its record with it (R189). -/
def State.setParked (s : State) (core job : Nat) (r : Word) (f : List FaultEntry → List FaultEntry) : State :=
  let co := s.core core
  let old := (co.parked.find? fun p => p.record == r).getD ⟨r, [], none⟩
  let new : Parked := { old with faults := f old.faults }
  let rest := co.parked.filter fun p => p.record != r
  let s := s.setCore core { co with parked := if new.faults.isEmpty && new.due.isNone then rest else rest ++ [new] }
  match s.recordLoc job r with
  | some l => s.wr64 (l + 16) (setBits (s.rd64 (l + 16)) 47 47 (if new.faults.isEmpty then 0 else 1))
  | none => s

/-- The fault list once the re-issue of one of its entries has completed without a fault (R127). -/
def settledFaults (fs : List FaultEntry) : List FaultEntry := fs.filter fun f => !f.reissued

/-- An operation that is a re-issue has completed: its entry leaves the fault list of its thread or continuation (R127). -/
def State.settleReplay (s : State) (o : Op) : State :=
  if !o.replay then s
  else
    match o.record with
    | some r => s.setParked o.ctx.core o.job r settledFaults
    | none =>
      let x := s.ctx o.ctx
      if x.thread = o.thread then s.setCtx o.ctx { x with faults := settledFaults x.faults } else s

/-- An operation without a result is complete (R182): its continuation is re-created once it waits for nothing more (R307, R401). -/
def State.finishOp (s : State) (o : Op) : State :=
  let s := (s.dropOp o.id).settleReplay o
  match o.record with
  | some r => s.wakeMarker o.job o.gen r
  | none => s

/-- The flags that a result sets when it is written (R90). -/
def OpBody.flags : OpBody → BitVec 9
  | .result _ fl => fl
  | _ => 0

/-- The result of an operation whose thread holds its context: written, with its flags, and its pending bit cleared (R43,
R90). -/
def State.deliverTo (s : State) (o : Op) (v : Vec) : State :=
  let x := s.ctx o.ctx
  let fl := o.body.flags
  let s := s.dropOp o.id
  if x.thread = o.thread then
    let x := match o.dst with
      | some r => (x.setReg r v).clearPend r
      | none => x
    let faults := if o.replay then settledFaults x.faults else x.faults
    s.setCtx o.ctx { x with fcsr := x.fcsr ||| fl, faults := faults }
  else s

/-- The writes of a batch into its buffer (R287): plain writes of the thread that mark their lines and are never refused. -/
def State.writeBatch (s : State) (o : Op) (buf : Nat) (items : List Word) : State :=
  if items.isEmpty then s
  else
    let lines := linesOf (poolLoc o.ctx.core buf) (8 * items.length)
    let who := o.who
    let mine := s.marks.filter fun m => !(m.who == who && m.region == o.region && lines.contains m.line)
    ({ s with marks := mine ++ lines.map fun l => ({ line := l, who := who, region := o.region, write := true } : Mark) }).wrWords (poolLoc o.ctx.core buf) items

/-- LONG_RESULT_RETURN (R43): the result is written, after the batch of a WLPOPB (R287), or kept for the record of its continuation. -/
def execLongResultReturn (s : State) : Out :=
  match s.arg with
  | .answer id v =>
    match s.op id with
    | none => .next s
    | some o =>
      let res := match v, o.body with
        | some v, _ => v
        | none, .result v _ => v
        | none, .popped _ _ n => wide n
        | none, _ => 0
      let s := match o.body with
        | .popped buf items _ => (s.writeBatch o buf items).unmark o
        | _ => s
      if o.record.isSome then
        .next ((s.setOp { o with body := .result res o.body.flags, performed := true }).later 0 none .continuationResultFill (.num id))
      else .next (s.deliverTo o res)
  | _ => .next s

/-- CONTINUATION_RESULT_FILL (R401): a result is written into the record's slot for its register, or discarded; its flags are set in the
FCSR of the record (R90, R189). -/
def execContinuationResultFill (s : State) : Out :=
  match s.arg with
  | .num id =>
    match s.op id with
    | none => .next s
    | some o =>
      match o.record, o.body with
      | some r, .result v fl =>
        let s := (s.dropOp id).settleReplay o
        let s := match s.recordLoc o.job r with
          | some l => if fl = 0 then s else s.wr64 (l + 24) (s.rd64 (l + 24) ||| word (fl.toNat * 2 ^ 32))
          | none => s
        let s := match s.recordLoc o.job r, o.dst with
          | some l, some d =>
            match s.slotOf l d, d with
            | some at', .g _ => s.wr64 at' (v.truncate 64)
            | some at', .v _ => s.wrWords at' [v.truncate 64, (v >>> 64).truncate 64]
            | none, _ => s
          | _, _ => s
        .next (s.wakeMarker o.job o.gen r)
      | _, _ => .next s
  | _ => .next s

/-- A fault list of four entries with one more (R123): where it is full, its oldest reported entry makes room; refusals of work-list operations,
of which eight may be outstanding (R283), are all kept until they are reported (log entry 99). -/
def appendFault (fs : List FaultEntry) (f : FaultEntry) : List FaultEntry :=
  let fs := if fs.length < 4 then fs
    else match fs.findIdx? (·.reported) with
      | some i => fs.eraseIdx i
      | none => fs
  fs ++ [f]

/-- A fault list that takes the fault of an operation (R123): a re-issue that faults again makes its entry unreported, in its place; any other
operation gets a new entry. -/
def takeFault (o : Op) (cause : Nat) (addr : Word) (entry : FaultEntry) (fs : List FaultEntry) : List FaultEntry :=
  if o.replay then fs.map fun f => if f.reissued then { f with reissued := false, reported := false, cause := cause, addr := addr } else f
  else appendFault fs entry

/-- FALLIBLE_OP_FAULT (R123, R401): the fault list takes the operation, the destination keeps its old value. The entry of a continuation is
marked as its record's INTRAP is. -/
def execFallibleOpFault (s : State) : Out :=
  match s.arg with
  | .fault id cause addr =>
    match s.op id with
    | none => .next s
    | some o =>
      let x := s.ctx o.ctx
      let s := s.dropOp id
      let entry (inTrap : Bool) : FaultEntry :=
        { op := { o with left := false, loc := none, performed := false, record := none, replay := false },
          addr := addr, cause := cause, inTrap := inTrap, reported := false, order := 0, reissued := false }
      match o.record with
      | some r =>
        let inTrap := match s.recordLoc o.job r with
          | some l => bit (s.rd64 (l + 16)) 50
          | none => false
        .next ((s.setParked o.ctx.core o.job r (takeFault o cause addr (entry inTrap))).wakeMarker o.job o.gen r)
      | none =>
        if x.thread ≠ o.thread then .next s
        else
          let x := match o.dst with
            | some d => x.clearPend d
            | none => x
          .next (s.setCtx o.ctx { x with faults := takeFault o cause addr (entry x.intrap) x.faults })
  | _ => .next s

/-! ## Marks -/

/-- MARK_CLEAR (R154, R170): a release clears its marks once the accesses before it are settled; a fence is performed when its
conditions hold, and is looked at again in the next cycle until then. -/
def execMarkClear (s : State) : Out :=
  match s.arg with
  | .num id =>
    match s.op id with
    | none => .next s
    | some o =>
      let clear (s : State) : State := if o.releases then s.clearMarks o.ctx o.region o.scope else s
      match o.body with
      | .fence =>
        let reads := (s.before o).any fun p =>
          !p.performed && s.inScope p o.scope &&
            match p.body with
            | .store _ _ _ => false
            | b => b.isAccess
        let sc := o.ord == .seqcst && (s.before o).any fun p => p.ord == .seqcst && !p.performed
        if (o.acquires && reads) || sc || !s.mayRelease o then .next (s.later 1 none .markClear (.num id))
        else
          let t := clear s
          .next (if o.releases && t.marksLeft o then t.later 1 none .markClear (.num id) else t.dropOp id)
      | _ => .next (if s.mayRelease o then clear s else s)
  | _ => .next s

/-- IMPLICIT_RELEASE_REQUEST (R160): the context makes an implicit release before its next instruction: its marks are cleared. -/
def execImplicitReleaseRequest (s : State) : Out :=
  match s.arg with
  | .ctx c => .next (s.clearMarks c (s.ctx c).region .dom)
  | _ => .next s

/-! ## The journal -/

/-- JOURNAL_LEAVE (R151, R154): a waiting entry leaves the core once nothing holds it. -/
def execJournalLeave (s : State) : Out :=
  match s.arg with
  | .num id =>
    match s.op id with
    | none => .next s
    | some o => if o.left then .next s else .next (s.tryLeave o .journalLeave)
  | _ => .next s

/-- JOURNAL_ACCEPT (R151): the entry is free; contexts held by a full journal try again (R27). -/
def execJournalAccept (s : State) : Out :=
  match s.arg with
  | .num id =>
    match s.op id with
    | none => .next s
    | some o => .next ((s.dropOp id).unstall o.ctx.core)
  | _ => .next s

/-- JOURNAL_REFUSE (R124): the entry is held with its reason until its JOURNAL trap returns. -/
def execJournalRefuse (s : State) : Out :=
  match s.arg with
  | .pair id cause =>
    match s.op id with
    | none => .next s
    | some o =>
      let s := s.setOp { o with reason := cause, performed := true }
      let x := s.ctx o.ctx
      .next (if x.thread = o.thread ∧ x.st = .stalled then s.setCtx o.ctx { x with st := .running } else s)
  | _ => .next s

/-! ## Blocking points -/

/-- Whether a thread can become a continuation where it stands (R124, R215, R306, R142): its rewrite list is empty, its journal
entries and link operations are settled, no instruction of R142 is outstanding, and other parts have cleared its marks (R154). A thread with a refused
entry that it has not reported stays in MARKER, and takes JOURNAL once its own blocking operation has completed: DESIGN CHOICE (log entry 122). -/
def State.mayBlock (s : State) (c : CtxId) : Bool :=
  let x := s.ctx c
  x.rewrites.isEmpty && !((s.opsOf c).any fun o =>
    o.body.isLink || o.body.isSystem || (o.jidx.isSome && (o.reason == 0 || (!o.reported && !x.intrap))))
    && !(s.peerLog.any fun m => m.ctx == c)

/-- The destination register and WV that a word wait leaves in its record (R189, R197). -/
def Op.wakeReg (o : Op) : Nat × Bool :=
  match o.dst with
  | some r => (r.num, r != .g 0)
  | none => (0, false)

/-- The thread of a context becomes a continuation of a kind in a pool entry (R190), the entry named; none when the pool is
empty. -/
def State.intoPool (s : State) (c : CtxId) (kind : Nat) (pc : Word) (wreg : Nat) (wv : Bool) : Option (Word × State) :=
  match s.takeEntry (s.jobOf c.core) with
  | none => none
  | some (e, s) =>
    match s.unitLoc (s.jobOf c.core) (bits e 47 0) with
    | none => none
    | some l => some (e, s.becomeRecord c e l (s.liveSpec c 1 kind pc wreg wv))

/-- Frees a wait-table entry (R194). -/
def State.freeWait (s : State) (core i : Nat) : State :=
  let co := s.core core
  s.setCore core { co with waits := mset none co.waits i none }

/-- The first free wait-table entry of a core. -/
def Core.freeEntry (co : Core) : Option Nat := (List.range 32).find? fun i => (mget none co.waits i).isNone

/-- MARKER_WAIT_END (R46, R54, R47, R165): the wait ends in a slot in which nothing is outstanding: a fault is reported first, then
the cause that was found, or the instruction issues in this slot. A thread whose word wait was answered "parked" becomes a
continuation of KIND 1 in its wait-table slot. -/
def execMarkerWaitEnd (s : State) : Out :=
  match s.arg with
  | .ctx c =>
    let x := s.ctx c
    if x.st ≠ .marker then .next s
    else if !s.outstanding c then
      match x.faultTrap with
      | some (t, fs) => .next ((s.setCtx c { x with faults := fs }).takeTrap c t)
      | none =>
        match x.trapDue with
        | some t => .next (s.takeTrap c t)
        | none => .next { s.setCtx c { x with st := .running, blocked := false } with slots := c.core :: s.slots }
    else
      match (s.opsOf c).find? fun o => o.parked && o.widx.isSome with
      | none => .next s
      | some o =>
        let i := o.widx.getD 0
        let co := s.core c.core
        if !s.mayBlock c then .next s
        else
          match mget none co.waits i with
          | none => .next s
          | some e =>
            let (wreg, wv) := o.wakeReg
            let s := (s.dropOp o.id).setCore c.core { co with waits := mset none co.waits i (some { e with parked := true }) }
            .next (s.becomeRecord c (coreAddr c.core (sysBase + 0x1000 + 192 * i)) (slotLoc c.core i)
              (s.liveSpec c 1 1 x.pc wreg wv))
  | _ => .next s

/-- What a thread that finds no pool entry does beside waiting (R190): the monitor is told; poison that the pool's step has read loses the job
(R358). -/
def State.poolFails (s : State) (c : CtxId) : State :=
  match s.poolSpoiled (s.jobOf c.core) with
  | some l => s.lose (s.jobOf c.core) (lossAt c (s.ctx c).pc (s.job (s.jobOf c.core)).poolBase l)
  | none => s.tellExhausted c.core

/-- POOL_RETRY (R190): a context that waits for a pool entry tries again each wheel turn: its instruction is executed again once
the pool holds an entry. -/
def execPoolRetry (s : State) : Out :=
  match s.arg with
  | .ctx c =>
    let x := s.ctx c
    match x.busy with
    | .poolWait _ =>
      match s.takeEntry (s.jobOf c.core) with
      | some _ => .next (s.setCtx c { x with st := .running, busy := .idle })
      | none =>
        .next ((s.poolFails c).later (ctxCount (s.core c.core).partword) none .poolRetry (.ctx c))
    | _ => .next s
  | _ => .next s

/-- A context waits for a pool entry in MARKER (R190). -/
def State.poolWait (s : State) (c : CtxId) (kind : Nat) : State :=
  ((s.setCtx c { s.ctx c with st := .marker, busy := .poolWait kind }).poolFails c).later
    (ctxCount (s.core c.core).partword) none .poolRetry (.ctx c)

/-! ## Full/empty waits -/

/-- Whether a body is a posted store; one without a journal entry had its entry freed while it was in flight (R127), and nothing hears of it. -/
def OpBody.isStore : OpBody → Bool
  | .store _ _ _ => true
  | _ => false

/-- The first answer "not ready" or "empty" is a blocking point of the thread that holds its context (R306), unless its rewrite list is not
empty or its journal holds an unsettled entry; the watchdog counts from it (R308). -/
def State.firstNotReady (s : State) (o : Op) : State :=
  let x := s.ctx o.ctx
  if o.record.isNone && x.thread == o.thread && !o.blocking && s.canBlock o.ctx then
    (s.setOp { o with blocking := true }).setCtx o.ctx (x.reach s.cycle)
  else s

/-- Whether the thread's later accesses wait for an operation's result to return, and not only for its step: those of a work-list operation with
a result (R283). -/
def Op.awaited (o : Op) : Bool := o.body.isList && o.dst.isSome

/-- The answer of a home on its way to the core (R43, R151): a result, a refusal, "not ready", or room that is awaited at the home, where
later accesses of the core wait behind it (R146, R160). -/
def State.answer (s : State) (o : Op) (a : HomeAns) : State :=
  let lat := (typical o.ctx.core (homeOf (o.loc.getD 0)) + 1) / 2
  let back := some (o.backPath (o.loc.getD 0))
  match a with
  | .done v =>
    let s := s.setOp { o with performed := !o.awaited, body := if o.jidx.isSome then o.body else .result v 0 }
    if o.jidx.isSome then s.later lat back .journalAccept (.num o.id)
    else s.later lat back .longResultReturn (.answer o.id none)
  | .refused cause _ _ =>
    if o.jidx.isSome then s.later lat back .journalRefuse (.pair o.id cause)
    else if o.body.isStore then s.dropOp o.id
    else s.later lat back .fallibleOpFault (.fault o.id cause (o.refusedAddr cause))
  | .notReady => (s.firstNotReady o).later lat back .feRetry (.num o.id)
  | .full w => (s.askRelease w).again 2 (some (s.opPath o)) .homeAccess (.num o.id)
  | .walks a => (s.missAt o.ctx.core o.job o.body.need a).again 1 (some (s.opPath o)) .homeAccess (.num o.id)
  | .lost l => s.lose o.job (lossAt o.ctx o.pc o.addr l)

/-- The thread of a wait on a word (KIND 2) or a list (KIND 5) becomes a continuation in a pool entry, and its park request names the
entry (R165, R195, R288); none while it cannot. -/
def State.parkInPool (s : State) (o : Op) (kind : Nat) : Option State :=
  let x := s.ctx o.ctx
  if x.thread ≠ o.thread ∨ !s.mayBlock o.ctx ∨ x.busy ≠ .idle ∨ (x.st ≠ .running ∧ x.st ≠ .marker) then none
  else
    let (wreg, wv) := o.wakeReg
    match (s.setOp { o with thread := 0 }).intoPool o.ctx kind x.pc wreg wv with
    | none => none
    | some (e, s) => some (s.setOp { o with thread := 0, widx := none, wrec := some e })

/-- FE_RETRY (R164, R165, R167, R216): in the thread's next slot the operation is sent again, or a park request is sent when its turns are
spent or its thread is to be pre-empted; both travel as the operation did (R331, R332). One of a continuation stays at its core while a hold is in
force there or its job is away (R313, R315). -/
def execFeRetry (s : State) : Out :=
  match s.arg with
  | .num id =>
    match s.op id with
    | none => .next s
    | some o =>
      let x := s.ctx o.ctx
      let co := s.core o.ctx.core
      let turn := ctxCount co.partword
      let wait := (o.ctx.k + turn - s.cycle % turn) % turn
      let half := typical o.ctx.core (homeOf (o.loc.getD 0)) / 2
      let path := some (s.opPath o)
      let resend (s : State) : State := s.later half path .homeAccess (.num id)
      let due := decide (o.deadline ≤ s.cycle) || (co.held && x.st == .marker)
      if o.record.isSome then .next (if co.held || s.jobAway o.job o.ctx.core then s.later turn none .feRetry (.num id) else resend s)
      else if x.thread ≠ o.thread then .next (s.dropOp id)
      else if wait ≠ 0 then .next (s.later wait none .feRetry (.num id))
      else if !due || !x.rewrites.isEmpty then .next (resend s)
      else
        match co.freeEntry, o.body with
        | some i, .fullEmpty fn data =>
          let e : WaitEntry := { addr := o.addr, ctx := o.ctx.k, dreg := (o.wakeReg).1, fn := fn, parked := false, data := data, op := id }
          .next (((s.setCore o.ctx.core { co with waits := mset none co.waits i (some e) }).setOp { o with widx := some i }).later
            half path .feParkRequest (.num id))
        | _, _ =>
          match s.parkInPool o 2 with
          | some s => .next (s.later half path .feParkRequest (.num id))
          | none =>
            let s := if s.canBlock o.ctx then s.askPeers o.ctx x.region .dom else s
            .next (resend (if (s.takeEntry o.job).isNone then s.poolFails o.ctx else s))
  | _ => .next s

/-- How many waiters that name a wait-table entry a home records (R195). -/
def Home.waiterRoom : Home → Nat
  | .pool _ => 64
  | .store _ => 256
  | .stack _ => 8192

/-- The overflow cell of a waiter whose thread stands in a pool entry, appended to the home's list (R195, R196). -/
def State.fillCell (s : State) (o : Op) (e : Word) (fn : Nat) (data : Word) : State :=
  let home := homeOf (o.loc.getD 0)
  let last := (s.waiters.filter fun w => w.record.isSome && homeOf w.loc == home).getLast?
  let s := match last with
    | some w =>
      match s.cellLoc w with
      | some l => s.wr64 (l + 24) (e + 192)
      | none => s
    | none => s
  match s.recordLoc o.job e with
  | some l =>
    s.wrWords (l + 192) [o.addr, data,
      word (s.waiterSeq % 2 ^ 32 * 2 ^ 32 + o.gen % 1024 * 2 ^ 14 + o.job * 2 ^ 8 + (o.wakeReg).1 * 4 + fn), 0, 0, 0, 0, 0]
  | none => s

/-- A park request is refused at a home that does not operate (R339, log entry 34): the operation faults; a thread that stands in a pool entry takes
the fault into its list and is re-created with its destination unchanged (R123). -/
def State.parkRefused (s : State) (o : Op) : State :=
  match o.wrec with
  | none =>
    let s := match o.widx with
      | some i => s.freeWait o.ctx.core i
      | none => s
    s.answer { o with widx := none } (.refused cEndpoint 0 0)
  | some r =>
    let s := s.dropOp o.id
    match s.recordLoc o.job r with
    | none => s
    | some q =>
      let f : FaultEntry := { op := { o with left := false, loc := none, wrec := none }, addr := o.addr, cause := cEndpoint,
                              inTrap := bit (s.rd64 (q + 16)) 50, reported := false, order := 0, reissued := false }
      let s := s.setParked o.ctx.core o.job r (takeFault o cEndpoint o.addr f)
      let s := s.wr64 (q + 16) (setBits (s.rd64 (q + 16)) 46 46 0)
      (s.claim q 0).sendRecreate o.ctx.core (s.recordHome q) o.job o.gen r

/-- FE_PARK_REQUEST (R164, R165, R195): in one step the home performs the operation or records the waiter. A request to another part goes
out (R345), and the pair of an operation and a number stands for that part's answer "parked". -/
def execFeParkRequest (s : State) : Out :=
  match s.arg with
  | .pair id _ =>
    match s.op id with
    | none => .next s
    | some o => .next (s.setOp { o with parked := true })
  | .num id =>
    match s.op id with
    | none => .next s
    | some o =>
      if 2 ^ 60 ≤ o.loc.getD 0 then .next (s.later 0 none .peerRequest (.peer (.outgoing id)))
      else
      match o.loc, o.body with
      | some l, .fullEmpty fn data =>
        if s.homeDown l then .next (s.parkRefused o)
        else
        match s.perform false o.who o.region o.body l, o.wrec with
        | (.done v, s), some r =>
          match s.recordLoc o.job r with
          | some q => .next (((s.dropOp id).claim q (v.truncate 64)).sendRecreate (4096 + (homeOf l).num) (s.recordHome q) o.job o.gen r)
          | none => .next (s.dropOp id)
        | (.done v, s), none =>
          let s := match o.widx with
            | some i => s.freeWait o.ctx.core i
            | none => s
          .next (s.answer { o with widx := none } (.done v))
        | (_, s), wrec =>
          let mine := s.waiters.filter fun w => w.index.isSome && homeOf w.loc == homeOf l
          let w : Waiter := { loc := l, seq := s.waiterSeq, fn := fn, data := data, job := o.job, gen := o.gen,
                              core := o.ctx.core, index := o.widx, record := wrec, op := id, peer := none }
          let add (s : State) : State := { s with waiters := s.waiters ++ [w], waiterSeq := s.waiterSeq + 1 }
          match wrec with
          | some r => .next ((add (s.fillCell o r fn data)).dropOp id)
          | none =>
            if (homeOf l).waiterRoom ≤ mine.length then
              .next (s.later (typical o.ctx.core (homeOf l) / 2) (some (o.backPath l)) .feNoRoom (.num id))
            else .next (add (s.setOp { o with parked := true }))
      | _, _ => .next s
  | _ => .next s

/-- FE_NO_ROOM (R195): the thread becomes a continuation of KIND 2, and the request is sent again naming the pool entry; an empty
pool is tried again each wheel turn. Where the thread is a continuation already, by another operation, the operation gives up its entry and is sent
again as it was (R401). -/
def execFeNoRoom (s : State) : Out :=
  match s.arg with
  | .num id =>
    match s.op id with
    | none => .next s
    | some o =>
      let turn := ctxCount (s.core o.ctx.core).partword
      let half := typical o.ctx.core (homeOf (o.loc.getD 0)) / 2
      let leaveEntry (s : State) : State := match o.widx with
        | some i => s.freeWait o.ctx.core i
        | none => s
      if o.record.isSome then
        .next (leaveEntry ((s.setOp { o with widx := none }).later half (some (s.opPath o)) .homeAccess (.num id)))
      else if (s.ctx o.ctx).thread ≠ o.thread then .next (leaveEntry (s.dropOp id))
      else
      match s.parkInPool o 2 with
      | some s' => .next ((leaveEntry s').later half (some (s.opPath o)) .feParkRequest (.num id))
      | none =>
        let s := if (s.takeEntry o.job).isNone then s.poolFails o.ctx else s
        .next (s.later turn none .feNoRoom (.num id))
  | _ => .next s

/-- The job that left a core with the wait-table entry of an operation when it was switched out (R314), and the address of the word. -/
def State.savedWait (s : State) (core i id : Nat) : Option (Nat × Word) :=
  s.saves.findSome? fun sv =>
    match sv.cores.find? fun p => p.1 == core with
    | none => none
    | some p =>
      match mget none p.2.waits i with
      | none => none
      | some e => if e.op = id then some (sv.job, e.addr) else none

/-- The source of the path on which the wake of a word at an address comes to a core: the word's home (R184, R197). -/
def State.wakeSource (s : State) (core job : Nat) (a : Word) : Nat :=
  match s.recordLoc job a with
  | some l => 4096 + (homeOf l).num
  | none => core

/-- The message that wakes a wait-table entry of a job at a core (R197), for a word at an address. -/
def State.sendWake (s : State) (a : Word) (core job gen i : Nat) (v : Word) : State :=
  let src := s.wakeSource core job a
  s.later 0 (some ⟨planeMessage, src, core⟩) .messageArrive
    (.msg { job := job, gen := gen, src := senderOf src, target := core, body := .wake i v, op := none, via := src })

/-- The wake of an operation whose job has been switched out goes on to the job's inbox (R315). -/
def State.wakeAway (s : State) (core i id : Nat) (v : Word) : State :=
  match s.savedWait core i id with
  | none => s
  | some (job, a) => s.sendWake a core job (s.job job).gen i v

/-- FE_WAKE (R167, R197): the wake of a waiter finds its thread in its context, or parked in its wait-table slot; the wake of a
switched-out job goes to its inbox (R315). -/
def execFeWake (s : State) : Out :=
  match s.arg with
  | .wake core i id v =>
    match mget none (s.core core).waits i with
    | none =>
      .next (s.wakeAway core i id v)
    | some e =>
      if e.op ≠ id then
        .next (s.wakeAway core i id v)
      else if e.parked then
        .next (s.sendWake e.addr core (s.jobOf core) (s.core core).gen i v)
      else
        match s.op id with
        | none => .next (s.freeWait core i)
        | some o =>
          if o.record.isSome then
            .next (((s.freeWait core i).setOp { o with body := .result (wide v) 0, performed := true }).later 0 none
              .continuationResultFill (.num id))
          else .next ((s.freeWait core i).deliverTo o (wide v))
  | _ => .next s

end Sys2Proof.Machine
end

