-- ==== Sys2Proof/Machine/Curve.lean ====
section
/-!
DEFINITION. Ductus keys (R292-R302): the interleaving of coordinates, the control word, boxes, the next key of a box, the cover of a box by
ranges, and cells.
-/
namespace Sys2Proof.Machine

open Sys2Proof

/-! ## Keys (R292) -/

/-- The bits of an axis. -/
def axisBits (d : Nat) : Nat := 63 / d

/-- The field of axis `a` in a key of `d` axes: bit b is bit d·b + a of the key. -/
def axisOf (d a key : Nat) : Nat := bitsNat ((List.range (axisBits d)).map fun b => key.testBit (d * b + a))

/-- The fields of a key, axis 0 first. -/
def fieldsOf (d key : Nat) : List Nat := (List.range d).map fun a => axisOf d a key

/-- The key of a list of fields. -/
def keyOf (d : Nat) (fs : List Nat) : Nat :=
  bitsNat ((List.range (axisBits d)).flatMap fun b => (List.range d).map fun a => (fs.getD a 0).testBit b)

/-- Whether a key is valid for `d` axes. -/
def keyOk (d key : Nat) : Bool := decide (key < 2 ^ (d * axisBits d))

/-! ## Boxes (R298) -/

/-- Whether a key lies in the box of two corners, both included. -/
def inBox (d lo hi key : Nat) : Bool :=
  (List.range d).all fun a => decide (axisOf d a lo ≤ axisOf d a key) && decide (axisOf d a key ≤ axisOf d a hi)

/-- A box with a low corner above its high corner on some axis. -/
def emptyBox (d lo hi : Nat) : Bool := (List.range d).any fun a => decide (axisOf d a hi < axisOf d a lo)

/-- Whether a run of 2^n keys, aligned, shares a key with a box, and whether it lies wholly inside it. -/
def meetsBox (d lo hi base n : Nat) : Bool :=
  let last := base + 2 ^ n - 1
  (List.range d).all fun a => decide (axisOf d a lo ≤ axisOf d a last) && decide (axisOf d a base ≤ axisOf d a hi)
def insideBox (d lo hi base n : Nat) : Bool := inBox d lo hi base && inBox d lo hi (base + 2 ^ n - 1)

/-- The least key of a box at or above a target, in the aligned run of 2^n keys from a base on (R299). -/
def leastFrom (d lo hi target : Nat) : Nat → Nat → Option Nat
  | 0, base => if target ≤ base ∧ inBox d lo hi base then some base else none
  | n + 1, base =>
    if base + 2 ^ (n + 1) ≤ target ∨ !meetsBox d lo hi base (n + 1) then none
    else (leastFrom d lo hi target n base).orElse fun _ => leastFrom d lo hi target n (base + 2 ^ n)

/-- A run of keys put after those found so far, the latest first, joined to it when it follows on. -/
def joinRun (a b : Nat) : List (Nat × Nat) → List (Nat × Nat)
  | (p, q) :: r => if q + 1 = a then (p, b) :: r else (a, b) :: (p, q) :: r
  | [] => [(a, b)]

/-- The runs of the cells of 2^`cell` keys that meet a box, within an aligned run of 2^n keys from a base on, put after those found so
far; no more are looked for once there are more than `cap` (R300). -/
def runsIn (d lo hi cell cap : Nat) : Nat → Nat → List (Nat × Nat) → List (Nat × Nat)
  | 0, base, acc => if cap < acc.length then acc else if inBox d lo hi base then joinRun base base acc else acc
  | n + 1, base, acc =>
    if cap < acc.length ∨ !meetsBox d lo hi base (n + 1) then acc
    else if n + 1 ≤ cell ∨ insideBox d lo hi base (n + 1) then joinRun base (base + 2 ^ (n + 1) - 1) acc
    else runsIn d lo hi cell cap n (base + 2 ^ n) (runsIn d lo hi cell cap n base acc)

/-- runs(U_L) of a box, ascending; more than `cap` of them may be cut short. -/
def boxRuns (d lo hi level cap : Nat) : List (Nat × Nat) :=
  (runsIn d lo hi (d * level) cap (d * axisBits d) 0 []).reverse

/-- The keys of a box. -/
def boxSize (d lo hi : Nat) : Nat := (List.range d).foldl (fun p a => p * (axisOf d a hi + 1 - axisOf d a lo)) 1

/-- The keys in a list of runs. -/
def runsSize (rs : List (Nat × Nat)) : Nat := rs.foldl (fun n r => n + (r.2 + 1 - r.1)) 0

/-- The least level at which at most `n` ranges cover a box, and those ranges (R300). -/
def coverBox (d lo hi n : Nat) : Nat × List (Nat × Nat) :=
  match (List.range (axisBits d + 1)).find? fun l => decide ((boxRuns d lo hi l n).length ≤ n) with
  | some l => (l, boxRuns d lo hi l n)
  | none => (axisBits d, boxRuns d lo hi (axisBits d) n)

/-! ## The control word (R293, R294) -/

def dxAxes (w : Word) : Nat := bits w 2 0 + 1
def dxTrap (w : Word) : Bool := bit w 3
def dxMask (w : Word) : Nat := bits w 6 4
def dxSigned (w : Word) : Bool := bit w 7
def dxHigh (w : Word) : Bool := bit w 8
def dxLevel (w : Word) : Nat := bits w 14 9
def dxRanges (w : Word) : Nat := bits w 23 16 + 1

/-- Registers by number, in ascending order. -/
def regRange (from' n : Nat) : List Reg := (List.range n).map fun i => .g (from' + i)

/-- Inserts a register into an ascending list. -/
def insertReg (r : Reg) : List Reg → List Reg
  | [] => [r]
  | x :: xs => if r.num ≤ x.num then r :: x :: xs else x :: insertReg r xs

/-- A curve instruction (R294): g[B] is read first and the control word is checked, then its other registers, ascending, and the keys it names;
its effect follows. -/
def formDx (o : KABD) (s : State) (level : Bool) (implied : Nat → List Reg) (keys : Ctx → List Word) (eff : Nat → Word → Effect) : Out :=
  s.issue ⟨o.s, none, [gr o.b]⟩ fun s c =>
    let x := s.ctx c
    let w := x.getG o.b.toNat
    let d := dxAxes w
    if bits w 63 24 ≠ 0 ∨ bit w 15 ∨ 6 < d ∨ (level ∧ axisBits d < dxLevel w) then .error (exact cBounds w 0)
    else
      match regTrap (s.core c.core).partword x ((gr o.a :: gr o.d :: implied d).foldr insertReg []) with
      | some t => .error t
      | none =>
        match (keys x).find? fun k => !keyOk d k.toNat with
        | some k => .error (exact cBounds k 0)
        | none => eff d w s c

/-- g[B+i]. -/
def dxB (o : KABD) (x : Ctx) (i : Nat) : Word := x.getG (o.b.toNat + i)

/-- A curve instruction that writes g[D], short. -/
def formDxG (o : KABD) (s : State) (level : Bool) (implied : List Reg) (keys : Ctx → List Word) (f : Nat → Word → Ctx → Word) : Out :=
  formDx o s level (fun _ => implied) keys fun d w s c => .ok (s.retire c fun x => x.setG o.d.toNat (f d w x))

/-! ## The instructions -/

/-- The mask of axes that overflow. -/
def axisMask (ov : List Bool) : Nat := bitsNat ov

/-- The end of DXENC, DXADD and DXSUB: the trap of TRP, or the flags and the key (R295, R297). -/
def dxResult (o : KABD) (w : Word) (ov : List Bool) (key : Nat) (value : Word) (s : State) (c : CtxId) : Except Trap State :=
  if dxTrap w && ov.any id then .error (exact cDxOverflow value (word (axisMask ov)))
  else .ok (s.retire c fun x => (x.setM (dxMask w) (BitVec.ofNat 16 (axisMask ov))).setG o.d.toNat (word key))

/-- DXENC (R295). -/
def execDxenc (o : KABD) (s : State) : Out :=
  formDx o s false (fun d => regRange o.a.toNat d) (fun _ => []) fun d w s c =>
    let b := axisBits d
    let cs := (List.range d).map fun a => (s.ctx c).getG (o.a.toNat + a)
    let ov := cs.map fun v =>
      if dxSigned w then decide (v.toInt < -(2 ^ (b - 1))) || decide ((2 : Int) ^ (b - 1) ≤ v.toInt) else decide (2 ^ b ≤ v.toNat)
    let key := keyOf d (cs.map fun v => v.toNat % 2 ^ b)
    dxResult o w ov key (word key) s c

/-- DXDEC (R296). -/
def execDxdec (o : KABD) (s : State) : Out :=
  formDx o s false (fun d => regRange o.d.toNat d) (fun x => [x.getG o.a.toNat]) fun d _ s c =>
    let key := ((s.ctx c).getG o.a.toNat).toNat
    .ok (s.retire c fun x => (List.range d).foldl (fun x a => x.setG (o.d.toNat + a) (word (axisOf d a key))) x)

/-- The step of each axis of a key by an offset key (R297): the overflows and the fields. -/
def dxStep (d : Nat) (sub : Bool) (key off : Nat) : List (Bool × Nat) :=
  (List.range d).map fun a =>
    let b := axisBits d
    let st := sextN (axisOf d a off) b
    let t : Int := if sub then (axisOf d a key : Int) - st else axisOf d a key + st
    (decide (t < 0) || decide ((2 : Int) ^ b ≤ t), toBitsN t b)

/-- DXADD and DXSUB (R297). -/
def formDxStep (o : KABD) (sub : Bool) (s : State) : Out :=
  formDx o s false (fun _ => regRange (o.b.toNat + 1) 1) (fun x => [x.getG o.a.toNat, dxB o x 1]) fun d w s c =>
    let x := s.ctx c
    let key := x.getG o.a.toNat
    let r := dxStep d sub key.toNat (dxB o x 1).toNat
    dxResult o w (r.map (·.1)) (keyOf d (r.map (·.2))) key s c

/-- DXADD. -/
def execDxadd (o : KABD) (s : State) : Out := formDxStep o false s

/-- DXSUB. -/
def execDxsub (o : KABD) (s : State) : Out := formDxStep o true s

/-- DXIN (R298). -/
def execDxin (o : KABD) (s : State) : Out :=
  formDxG o s false (regRange (o.b.toNat + 1) 2) (fun x => [x.getG o.a.toNat, dxB o x 1, dxB o x 2]) fun d _ x =>
    if inBox d (dxB o x 1).toNat (dxB o x 2).toNat (x.getG o.a.toNat).toNat then 1 else 0

/-- What DXNEXT writes (R299). -/
def dxNext (d lo hi pos : Nat) : Word :=
  if emptyBox d lo hi then wordI (-1)
  else
    match leastFrom d lo hi (pos + 1) (d * axisBits d) 0 with
    | some k => word k
    | none => wordI (-1)

/-- DXNEXT (R299): long, 4 cycles. -/
def execDxnext (o : KABD) (s : State) : Out :=
  formDx o s false (fun _ => regRange (o.b.toNat + 1) 2) (fun x => [dxB o x 1, dxB o x 2]) fun d _ s c =>
    let x := s.ctx c
    let v := dxNext d (dxB o x 1).toNat (dxB o x 2).toNat (x.getG o.a.toNat).toNat
    .ok (s.longResult c (firstWord (.dxnext o)) (gr o.d) (wide v) Config.latMul)

/-- The words of DXSPLIT's list and its result (R300). -/
def dxSplit (d lo hi n : Nat) : List Word × Word :=
  if emptyBox d lo hi then ([], 0)
  else
    let (l, rs) := coverBox d lo hi n
    let sup := if runsSize rs = boxSize d lo hi then 0 else 1
    (rs.flatMap fun r => [word r.1, word r.2], word (sup * 2 ^ 31 + l * 2 ^ 16 + rs.length))

/-- The writes of DXSPLIT at the issuer's own pool: plain writes that mark their lines (R300). -/
def State.performSplit (s : State) (o : Op) (ws : List Word) (count : Word) : HomeAns × State :=
  let loc := poolLoc o.ctx.core (bits o.addr 19 0)
  match s.markLines o.who o.region true (if ws.isEmpty then [] else s.markable loc (8 * ws.length)) with
  | (.ok s', _) => (.done (wide count), (s'.wrWords loc ws).cleanse loc (8 * ws.length))
  | (.conflict y, l) => (.refused cRace l y.info, s)
  | (.full y, _) => (.full y, s)

/-- DXSPLIT (R300): the list is checked as an LNEST operand and written in the issue cycle, as a plain access to the own pool that waits at its
instruction while its order or a full mark table holds it back (R147, R160, log entry 20); the result returns after the latency of the pool. -/
def execDxsplit (o : KABD) (s : State) : Out :=
  formDx o s false (fun _ => regRange (o.b.toNat + 1) 2) (fun x => [dxB o x 1, dxB o x 2]) fun d w s c =>
    let x := s.ctx c
    let a := x.getG o.a.toNat
    match s.rangeTrap c.core a (16 * dxRanges w) 16 with
    | some t => .error t
    | none =>
      let (ws, r) := dxSplit d (dxB o x 1).toNat (dxB o x 2).toNat (dxRanges w)
      let p := s.newOp c (firstWord (.dxsplit o)) a (.dxsplit ws r) (some (gr o.d))
      let go (s : State) : State := s.retire c fun x => x.setPend (gr o.d)
      if s.selfHeld c p then .ok (s.selfWait c)
      else
        match s.performSplit p ws r with
        | (.done v, s) =>
          let q := { p with id := s.nextId, body := .result v 0, performed := true }
          .ok (go ((s.addOp q).later Config.latLocal none .longResultReturn (.answer q.id none)))
        | (.refused cause l info, _) => .error (exact cause (s.refusedAt p cause l) info)
        | (.full y, s) => .ok (s.askRelease y)
        | (_, s) => .ok (go s)

/-- DXLEV (R301). -/
def execDxlev (o : KABD) (s : State) : Out :=
  formDxG o s false (regRange (o.b.toNat + 1) 1) (fun x => [x.getG o.a.toNat, dxB o x 1]) fun d _ x =>
    let h (k : Word) (l : Nat) : Nat := k.toNat / 2 ^ (d * l)
    word (((List.range (axisBits d + 1)).find? fun l => h (x.getG o.a.toNat) l == h (dxB o x 1) l).getD (axisBits d))

/-- DXCELL (R301). -/
def execDxcell (o : KABD) (s : State) : Out :=
  formDxG o s true [] (fun x => [x.getG o.a.toNat]) fun d w x =>
    let u := 2 ^ (d * dxLevel w)
    word ((x.getG o.a.toNat).toNat / u * u + if dxHigh w then u - 1 else 0)

/-- DXCMP (R301). -/
def execDxcmp (o : KABD) (s : State) : Out :=
  formDxG o s true (regRange (o.b.toNat + 1) 1) (fun x => [x.getG o.a.toNat, dxB o x 1]) fun d w x =>
    let a := (x.getG o.a.toNat).toNat / 2 ^ (d * dxLevel w)
    let b := (dxB o x 1).toNat / 2 ^ (d * dxLevel w)
    if a < b then wordI (-1) else if a = b then 0 else 1

end Sys2Proof.Machine
end

