-- ==== Sys2Proof/Machine/Subs.lean ====
section
/-!
DEFINITION. What a core holds of a subscription (R241, R243, R245): the fields of its descriptor, its ring tags, the tiles dealt to it and
the pop of a slot.
-/
namespace Sys2Proof.Machine

open Sys2Proof

/-! ## The descriptor (R241) -/

def Sub.w (x : Sub) (i : Nat) : Word := x.words.getD i 0
def Sub.base (x : Sub) : Word := x.w 0
def Sub.trows (x : Sub) : Nat := bits (x.w 1) 63 32
def Sub.tcols (x : Sub) : Nat := bits (x.w 1) 31 0
def Sub.sn (x : Sub) : Nat := bits (x.w 2) 58 56
def Sub.stores (x : Sub) : Bool := bit (x.w 2) 53
def Sub.ductus (x : Sub) : Bool := bit (x.w 2) 52
def Sub.elem (x : Sub) : Nat := 2 ^ bits (x.w 2) 50 48
def Sub.rstride (x : Sub) : Nat := bits (x.w 2) 47 0
def Sub.tr (x : Sub) : Nat := bits (x.w 3) 63 48
def Sub.tc (x : Sub) : Nat := bits (x.w 3) 47 32
def Sub.slotBytes (x : Sub) : Nat := 16 * bits (x.w 3) 31 16
def Sub.ringSlots (x : Sub) : Nat := bits (x.w 3) 13 8 + 1
def Sub.tb (x : Sub) : Nat := bits (x.w 3) 5 0
def Sub.lendMax (x : Sub) : Nat := bits (x.w 4) 55 48
def Sub.blk (x : Sub) : Nat := bits (x.w 4) 47 32
def Sub.ring (x : Sub) : Nat := bits (x.w 4) 19 0
def Sub.rectH (x : Sub) : Nat := bits (x.w 5) 30 24
def Sub.rectW (x : Sub) : Nat := bits (x.w 5) 22 16
def Sub.corner (x : Sub) : Nat := bits (x.w 5) 14 0

/-- The tile grid (R243). -/
def Sub.gridR (x : Sub) : Nat := (x.trows + x.tr - 1) / x.tr
def Sub.gridC (x : Sub) : Nat := (x.tcols + x.tc - 1) / x.tc
def Sub.tiles (x : Sub) : Nat := x.gridR * x.gridC

/-- How a subscription is known to its events: its issuing core and CT. -/
def Sub.id (x : Sub) : Nat := x.core * 64 + x.ct

/-- The word with the ring tags of a subscription. -/
def Sub.ringTags (x : Sub) : Word := word ((2 ^ x.ringSlots - 1) * 2 ^ x.tb)

/-- Whether a core has a part of a subscription. -/
def Sub.has (x : Sub) (core : Nat) : Bool := x.parts.any fun p => p.core == core

/-- The subscription of a number on a core (R245). -/
def State.subOn (s : State) (core sn : Nat) : Option Sub := s.subs.find? fun x => x.sn == sn && x.has core

/-! ## Dealing (R243) -/

/-- The tiles of a rank below a tile number. -/
def Sub.countBelow (x : Sub) (rank i : Nat) : Nat :=
  let cyc := x.parts.length * x.blk
  i / cyc * x.blk + min x.blk (i % cyc - rank * x.blk)

/-- How many tiles are dealt to a rank in all. -/
def Sub.dealt (x : Sub) (rank : Nat) : Nat := x.countBelow rank x.tiles - x.countBelow rank x.first

/-! ## Slots -/

/-- The address that RINGPOP returns for a slot (R245). -/
def Sub.slotAddr (x : Sub) (core : Nat) (t : Placed) : Word :=
  match t.lent with
  | some o => paddrOf (storeLoc (clusterOf core) o)
  | none => word (x.ring + x.slotBytes * (t.k % x.ringSlots))

/-- Replaces a subscription, known by its core and CT. -/
def State.setSub (s : State) (x : Sub) : State := { s with subs := s.subs.map fun y => if y.id = x.id then x else y }

/-- Replaces a subscriber of a subscription. -/
def Sub.setPart (x : Sub) (p : Part) : Sub := { x with parts := x.parts.map fun q => if q.core = p.core then p else q }

/-- The controller looks for a tile to place, unless it is about to (R244). -/
def State.feedKick (s : State) (x : Sub) : State :=
  if s.agenda.any fun d => d.what == .feedTilePlace && d.arg == .num x.id then s
  else s.later 1 (bulkPath (2 ^ 22 + x.id)) .feedTilePlace (.num x.id)

/-! ## Popping (R245) -/

/-- What RINGPOP finds: a result with the state after, or nothing yet. -/
def State.pop (s : State) (core sn : Nat) : Option (Word × State) :=
  match s.subOn core sn with
  | none => some (wordI (-1), s)
  | some x =>
    match x.parts.zipIdx.find? fun (p, _) => p.core == core with
    | none => some (wordI (-1), s)
    | some (p, r) =>
      if x.stopped || decide (x.dealt r ≤ p.popped) then some (0, s)
      else
        match p.slots.find? fun t => t.k == p.popped && !t.popped with
        | none => none
        | some t =>
          let co := s.core core
          let b := word (2 ^ (x.tb + t.k % x.ringSlots))
          let s := s.setCore core { co with tags := co.tags &&& ~~~b }
          let p' := { p with popped := p.popped + 1, slots := p.slots.map fun u => if u.k = t.k then { u with popped := true } else u }
          some (x.slotAddr core t, (s.setSub (x.setPart p')).feedKick x)

end Sys2Proof.Machine
end

