-- ==== Sys2Proof/Machine/Tags.lean ====
section
/-!
DEFINITION. The tags of a core (R231-R236): taking a tag, setting it, the scan of the tag-waiter list, and what software reads and
writes of TAGS and TAGFAULT.
-/
namespace Sys2Proof.Machine

open Sys2Proof

/-- The word with bit `t` set. -/
def tagBit (t : Nat) : Word := word (2 ^ t)

/-- The bits of the cycle in which engines set them: TAGS and TAGFAULT (R21, R131). -/
def State.freshTags (s : State) (core : Nat) : Word × Word :=
  let f := (s.core core).fresh
  if f.1 = s.cycle then f.2 else (0, 0)

/-- The tags that are ready: set or faulted (R233). -/
def Core.ready (co : Core) : Word := co.tags ||| co.tagfault

/-- Whether the condition of a tag waiter holds (R233). -/
def TagWaiter.holds (w : TagWaiter) (ready : Word) : Bool :=
  w.ring.isNone && (if w.all then ready &&& w.mask == w.mask else ready &&& w.mask != 0)

/-- Claims the record of a waiter, with its result, and sends its re-creation on its core; a saturated tag in the result of a tag wait sets
MXSAT (R234, R267). -/
def State.wakeTagged (s : State) (core : Nat) (w : TagWaiter) (r : Word) : State :=
  let job := s.jobOf core
  match s.recordLoc job w.record with
  | none => s
  | some l =>
    let sat := w.ring.isNone && r &&& (s.core core).satTags != 0
    let s := if sat then s.wr64 (l + 16) (s.rd64 (l + 16) ||| word (2 ^ 49)) else s
    (s.claim l r).sendRecreate core core job (s.core core).gen w.record

/-- What a waiter of the list receives now, with the state after: a tag wait whose condition holds, or a RINGPOP that finds a result. -/
def State.tagOwed (s : State) (core : Nat) (w : TagWaiter) : Option (Word × State) :=
  match w.ring with
  | some sn => s.pop core sn
  | none => if w.holds (s.core core).ready then some ((s.core core).ready &&& w.mask, s) else none

/-- The waiters of a core in recorded order: each that has what it waits for leaves the list and is re-created with it; a RINGPOP clears its
ring tag before the next is looked at (R234, R245). -/
def State.wakeTags (s : State) (core : Nat) : List TagWaiter → State
  | [] => s
  | w :: ws =>
    match s.tagOwed core w with
    | none => s.wakeTags core ws
    | some (r, s) =>
      let co := s.core core
      ((s.setCore core { co with tagWaiters := co.tagWaiters.filter fun u => u.record != w.record }).wakeTagged core w r).wakeTags core ws

/-- The core goes through its tag-waiter list in recorded order (R234); the records of a cancelled job stay. -/
def State.scanTags (s : State) (core : Nat) : State :=
  if (s.job (s.jobOf core)).st == .cancelled then s else s.wakeTags core (s.core core).tagWaiters

/-- Takes ownership of a tag at issue, clearing its bits and its saturation mark; an owned tag is refused with the register that
holds it (R231, R267). -/
def State.takeTag (s : State) (core t : Nat) (held : Word) : Except Trap State :=
  let co := s.core core
  if bit co.owned t then .error (exact cBounds held 0)
  else
    .ok (s.setCore core { co with owned := co.owned ||| tagBit t, tags := co.tags &&& ~~~(tagBit t),
                                  tagfault := co.tagfault &&& ~~~(tagBit t), satTags := co.satTags &&& ~~~(tagBit t) })

/-- Records that an engine set bits of TAGS and TAGFAULT in this cycle. -/
def State.freshen (s : State) (core : Nat) (tags faults : Word) : State :=
  let f := s.freshTags core
  s.setCore core { s.core core with fresh := (s.cycle, f.1 ||| tags, f.2 ||| faults) }

/-- An engine sets a tag (R231, R232); `frees` says that the work that owned it is complete. -/
def State.setTag (s : State) (core t : Nat) (frees : Bool) : State :=
  let co := s.core core
  let s := s.setCore core { co with tags := co.tags ||| tagBit t,
                                    owned := if frees then co.owned &&& ~~~(tagBit t) else co.owned }
  (s.freshen core (tagBit t) 0).scanTags core

/-- An engine sets TAGFAULT for a tag (R231); a refused matrix command frees it (R268). -/
def State.setTagFault (s : State) (core t : Nat) (frees : Bool) : State :=
  let co := s.core core
  let s := s.setCore core { co with tagfault := co.tagfault ||| tagBit t, tags := if frees then co.tags &&& ~~~(tagBit t) else co.tags,
                                    owned := if frees then co.owned &&& ~~~(tagBit t) else co.owned }
  (s.freshen core 0 (tagBit t)).scanTags core

/-- A tag becomes free with both bits clear (R274), or with TAGFAULT cleared alone where it stays owned (R239). -/
def State.dropTag (s : State) (core t : Nat) (frees : Bool) : State :=
  let co := s.core core
  s.setCore core { co with tagfault := co.tagfault &&& ~~~(tagBit t), tags := if frees then co.tags &&& ~~~(tagBit t) else co.tags,
                           owned := if frees then co.owned &&& ~~~(tagBit t) else co.owned }

/-- What a CSR read of TAGS or of TAGFAULT returns: sets of its own cycle are not seen (R131). -/
def State.readTags (s : State) (core : Nat) (fault : Bool) : Word :=
  let co := s.core core
  let f := s.freshTags core
  if fault then co.tagfault &&& ~~~f.2 else co.tags &&& ~~~f.1

/-- A software write of TAGS or TAGFAULT (R21, R236): only free tags change, a set of this cycle is kept, and a set bit is followed by
a scan. -/
def State.writeTags (s : State) (core : Nat) (fault : Bool) (w : Word) : State :=
  let co := s.core core
  let f := s.freshTags core
  let new (live fresh : Word) : Word := (live &&& co.owned) ||| (w &&& ~~~co.owned) ||| (live &&& fresh)
  (if fault then s.setCore core { co with tagfault := new co.tagfault f.2 }
   else s.setCore core { co with tags := new co.tags f.1 }).scanTags core

/-- TAGCLR's clear of TAGS and TAGFAULT where a mask names free tags (R21, R235). -/
def State.clearTags (s : State) (core : Nat) (mask : Word) : State :=
  let co := s.core core
  let f := s.freshTags core
  let m := mask &&& ~~~co.owned
  s.setCore core { co with tags := co.tags &&& ~~~(m &&& ~~~f.1), tagfault := co.tagfault &&& ~~~(m &&& ~~~f.2) }

end Sys2Proof.Machine
end

