-- ==== Sys2Proof/Machine/EngineAccess.lean ====
section
/-!
DEFINITION. How an engine reaches memory (R232, R237, R250): aligned pieces at their homes, without marks and without changing a
full/empty bit; pieces of other parts; and the paused-work table (R238).
-/
namespace Sys2Proof.Machine

open Sys2Proof

/-! ## Pieces -/

/-- Where a piece stands: a location of this part, or an address of another. -/
inductive Spot where
  | mem (loc : Nat)
  | peer (dev va : Nat)
deriving DecidableEq, Repr

/-- A fault of an engine's access: the cause and the address. -/
abbrev EFault := Nat × Word

/-- The piece of `n` bytes at an address that an engine reaches for a command of a job and core: the checks of R23, R12, R240, R326 and of
peer reachability, or the fault; cause 0 says that it waits for a walk. `unit` is the cluster or the feed controller that translates, or
none where the walk is not shown. -/
def State.spotAt (s : State) (unit : Option Nat) (core job : Nat) (need : Need) (a : Word) (n : Nat) : Except EFault (Spot × State) :=
  match s.place core a with
  | .ok (.peer dev va) =>
    if !s.peerUp dev then .error (cEndpoint, a)
    else
      let s' := { s with freeCount := s.freeCount + 1 }
      match Config.peerAnswer s.freeCount % 4 with
      | 0 => .ok (.peer dev va, s')
      | 1 => .error (cPage, a)
      | 2 => .error (cProtect, a)
      | _ => .error (cEndpoint, a)
  | _ =>
    let page (va : Nat) : Except Nat Nat := match unit with
      | some k => s.pageAt k job va need
      | none => s.walkTo job va need
    match s.reachBy page core job a n with
    | .ok l => .ok (.mem l, s)
    | .error e => .error e

/-- The pieces of a list of addresses, each of `n` bytes; the first fault stops. -/
def State.spotsAt (s : State) (unit : Option Nat) (core job : Nat) (need : Need) (n : Nat) : List Word → Except EFault (List Spot × State)
  | [] => .ok ([], s)
  | a :: as =>
    match s.spotAt unit core job need a n with
    | .error e => .error e
    | .ok (p, s) =>
      match s.spotsAt unit core job need n as with
      | .error e => .error e
      | .ok (ps, s) => .ok (p :: ps, s)

/-- The pieces that an engine of a core's cluster reaches, through its TLB (R328). -/
def State.spots (s : State) (core job : Nat) (need : Need) (n : Nat) (as : List Word) : Except EFault (List Spot × State) :=
  s.spotsAt (some (clusterOf core)) core job need n as

/-- The first poisoned word that reading the pieces consumes (R358). -/
def State.spoiled (s : State) (n : Nat) (ps : List Spot) : Option Nat :=
  if s.poison.isEmpty then none
  else (ps.filterMap fun p => match p with | .mem l => s.poisoned l n | .peer _ _ => none).head?

/-- The first poisoned word of the pieces at a list of addresses, with its address. -/
def State.spoiledOf (s : State) (n : Nat) (as : List Word) (ps : List Spot) : Option (Word × Nat) :=
  if s.poison.isEmpty then none
  else ((as.zip ps).filterMap fun (a, p) => match p with | .mem l => (s.poisoned l n).map fun w => (a, w) | .peer _ _ => none).head?

/-- Reads the pieces in order, as R12 shows them; what another part holds is open. -/
def State.readSpots (s : State) (n : Nat) : List Spot → List Byte × State
  | [] => ([], s)
  | .mem l :: ps =>
    let (bs, t) := s.readSpots n ps
    (s.seenBytes l n ++ bs, t)
  | .peer dev va :: ps =>
    let got := (List.range n).map fun i => Config.freeByte (s.freeCount * 2 ^ 48 + i)
    let (bs, t) := { s with freeCount := s.freeCount + 1, out := s.out ++ [Outgoing.engine dev va false got] }.readSpots n ps
    (got ++ bs, t)

/-- Writes the pieces in order; full/empty bits stay as they are (R232). -/
def State.writeSpots (s : State) (n : Nat) : List Spot → List Byte → State
  | [], _ => s
  | .mem l :: ps, bs => ((s.writeBytes l (bs.take n)).cleanse l n).writeSpots n ps (bs.drop n)
  | .peer dev va :: ps, bs => { s with out := s.out ++ [Outgoing.engine dev va true (bs.take n)] }.writeSpots n ps (bs.drop n)

/-- The addresses of the pieces of `n` bytes of a range from an address on. -/
def pieceAddrs (a : Word) (n count : Nat) : List Word := (List.range count).map fun i => a + word (n * i)

/-- A word that the manual does not state, and the count after it. -/
def State.openWord (s : State) : Word × State := (Config.openWord s.freeCount, { s with freeCount := s.freeCount + 1 })

/-- Whether a range of a core's pool lies in its scratchpad (R12). -/
def inSpad (w : BitVec 32) (off n : Nat) : Bool :=
  decide ((partSys w + 1 + partAcc w) * 4096 ≤ off) && decide (off + n ≤ (partSys w + 1 + partAcc w + partSpad w) * 4096)

/-! ## Paused work (R238) -/

/-- The tag that a copy, gather or scatter names (R237, R249). -/
def Cmd.tag (c : Cmd) : Nat :=
  match c.kind with
  | .copy => bits (c.words.getD 2 0) 37 32
  | .gather | .scatter => bits (c.words.getD 2 0) 50 45
  | .mxa | .mxrun => bits (c.words.getD 0 0) 63 58
  | _ => 0

/-- Whether the paused-work table of a core has room. -/
def State.pauseRoom (s : State) (core : Nat) : Bool := decide ((s.core core).paused.length < 8)

/-- Work stops on a fault: its tag's TAGFAULT bit is set, and it enters the paused-work table of its core. -/
def State.pause (s : State) (cmd : Cmd) (f : EFault) (done : Nat) : State :=
  let core := cmd.ctx.core
  let co := s.core core
  ((s.spent (clusterOf core) cmd.job f.2).setCore core { co with paused := co.paused ++ [{ cmd := cmd, cause := f.1, addr := f.2, done := done }] }).setTagFault core cmd.tag false

/-! ## The copy engine (R237) -/

/-- LEN of a copy. -/
def Cmd.copyLen (c : Cmd) : Nat := bits (c.words.getD 2 0) 31 0

/-- What a step of an engine's work ends in. -/
inductive Work where
  | done (s : State)
  | fault (f : EFault)
  | walks (a : Word) (n : Need)
  | lost (addr : Word) (loc : Nat)
deriving DecidableEq, Repr

/-- The end that a fault is; cause 0 is a page that is still to be walked. -/
def Work.ofFault (f : EFault) (n : Need) : Work := if f.1 = 0 then .walks f.2 n else .fault f

/-- Copies one chunk of a copy: all of it is read, then all of it is written. -/
def State.copyPiece (s : State) (cmd : Cmd) (off n : Nat) : Work :=
  let core := cmd.ctx.core
  let src := cmd.words.getD 0 0 + word off
  let dst := cmd.words.getD 1 0 + word off
  match s.spots core cmd.job .read 8 (pieceAddrs src 8 (n / 8)) with
  | .error f => .ofFault f .read
  | .ok (rs, s1) =>
    match s1.spoiled 8 rs with
    | some l => .lost src l
    | none =>
      match s1.spots core cmd.job .write 8 (pieceAddrs dst 8 (n / 8)) with
      | .error f => .ofFault f .write
      | .ok (ws, s2) =>
        let (bs, s3) := s2.readSpots 8 rs
        .done (s3.writeSpots 8 ws bs)

/-- The engine's command in progress ends, and the next one begins. -/
def State.copyNext (s : State) (core : Nat) : State :=
  let co := s.core core
  let s := s.setCore core { co with copyq := co.copyq.drop 1 }
  if co.copyq.length ≤ 1 then s else s.later 1 (bulkPath core) .copyChunk (.num core)

/-- COPY_CHUNK (R237, R238): the copy engine copies the next 64 bytes of its command, and sets the tag after the last. -/
def execCopyChunk (s : State) : Out :=
  match s.arg with
  | .num core =>
    match (s.core core).copyq with
    | [] => .next s
    | (cmd, at') :: rest =>
      let len := cmd.copyLen
      if len ≤ at' then .next ((s.setTag core cmd.tag true).copyNext core)
      else
        let n := min 64 (len - at')
        match s.copyPiece cmd at' n with
        | .lost a l => .next (s.lose cmd.job (engineLoss (some core) a l))
        | .walks a need => .next ((s.missAt core cmd.job need a).later 1 (bulkPath core) .copyChunk (.num core))
        | .fault f =>
          if s.pauseRoom core then .next ((s.pause cmd f at').copyNext core)
          else .next (s.later 1 (bulkPath core) .copyChunk (.num core))
        | .done s =>
          if len ≤ at' + n then .next ((s.setTag core cmd.tag true).copyNext core)
          else .next ((s.setCore core { s.core core with copyq := (cmd, at' + n) :: rest }).later 1 (bulkPath core) .copyChunk (.num core))
  | _ => .next s

/-! ## The gather engine (R249-R251) -/

/-- CNT + 1, E, OFF and the index width of a gather or scatter. -/
def gatherCount (w : Word) : Nat := bits w 36 21 + 1
def gatherBytes (w : Word) : Nat := 4 * (bits w 43 37 + 1)
def gatherOff (w : Word) : Nat := bits w 20 0
def gatherIndexBytes (w : Word) : Nat := if bit w 44 then 8 else 4

/-- The address of an index's element. -/
def elementAddr (base : Word) (idx e : Nat) : Word := base + word (idx * e)

/-- The addresses of up to `n` entries from `j` on, the index list read in order (R250): those before what stops the reading. -/
def State.gatherAddrs (s : State) (cmd : Cmd) (j : Nat) : Nat → List Word × State × Option Work
  | 0 => ([], s, none)
  | n + 1 =>
    let w := cmd.words.getD 2 0
    let iw := gatherIndexBytes w
    let a := cmd.words.getD 0 0 + word (iw * j)
    match s.spots cmd.ctx.core cmd.job .read iw [a] with
    | .error f => ([], s, some (.ofFault f .read))
    | .ok (ps, s1) =>
      match s1.spoiled iw ps with
      | some l => ([], s, some (.lost a l))
      | none =>
        let (bs, s2) := s1.readSpots iw ps
        let (as, s3, stop) := s2.gatherAddrs cmd (j + 1) n
        (elementAddr (cmd.words.getD 1 0) (leNat bs) (gatherBytes w) :: as, s3, stop)

/-- GATHER's entries from `j` on, at their addresses: the entry at which it stops, and what stopped it. -/
def State.gatherSome (s : State) (cmd : Cmd) (k j : Nat) : List Word → Nat × State × Option Work
  | [] => (j, s, none)
  | a :: as =>
    let w := cmd.words.getD 2 0
    let e := gatherBytes w
    match s.spots cmd.ctx.core cmd.job .read 4 (pieceAddrs a 4 (e / 4)) with
    | .error f => (j, s, some (.ofFault f .read))
    | .ok (ps, s2) =>
      match s2.spoiled 4 ps with
      | some l => (j, s, some (.lost a l))
      | none =>
        let (bs, s3) := s2.readSpots 4 ps
        let at' := storeLoc k (gatherOff w + j * e)
        match s3.mergesPoison at' e with
        | some l => (j, s, some (.lost (paddrOf l) l))
        | none => ((s3.writeBytes at' bs).cleanse at' e).gatherSome cmd k (j + 1) as

/-- The lanes of two merged values of a scatter, as 4-byte numbers (R250). -/
def scatterLane (sop : Nat) (x y : Nat) : Nat :=
  match sop with
  | 1 => (x + y) % 2 ^ 32
  | 2 => (fAdd .f32 rmRNE 0 x y).1
  | 3 => if sextN x 32 ≤ sextN y 32 then y else x
  | _ => y

/-- Lane by lane. -/
def scatterLanes (sop : Nat) : List Byte → List Byte → List Byte
  | a :: b :: c :: d :: x, e :: f :: g :: h :: y =>
    leBytes 4 (scatterLane sop (leNat [a, b, c, d]) (leNat [e, f, g, h])) ++ scatterLanes sop x y
  | _, _ => []

/-- Merges the entries of a window with equal addresses, in list order (R250). -/
def mergeEntry (sop : Nat) (a : Word) (v : List Byte) : List (Word × List Byte) → List (Word × List Byte)
  | [] => [(a, v)]
  | (b, u) :: r => if a = b then (b, scatterLanes sop u v) :: r else (b, u) :: mergeEntry sop a v r

/-- What SCATTER needs of a page (R326): an add or a maximum reads as well. -/
def scatterNeed (sop : Nat) : Need := if sop = 0 then .write else .both

/-- The pieces of merged entries, all checked before one is written. -/
def State.scatterCheck (s : State) (cmd : Cmd) (e : Nat) : List (Word × List Byte) → Except EFault (List (List Spot × List Byte) × State)
  | [] => .ok ([], s)
  | (a, v) :: r =>
    match s.spots cmd.ctx.core cmd.job (scatterNeed (bits (cmd.words.getD 2 0) 53 52)) 4 (pieceAddrs a 4 (e / 4)) with
    | .error f => .error f
    | .ok (ps, s) =>
      match s.scatterCheck cmd e r with
      | .error f => .error f
      | .ok (qs, s) => .ok ((ps, v) :: qs, s)

/-- Applies the merged values (R250). -/
def State.scatterApply (s : State) (sop : Nat) : List (List Spot × List Byte) → State
  | [] => s
  | (ps, v) :: r =>
    let (old, s) := if sop = 0 then (v, s) else s.readSpots 4 ps
    (s.writeSpots 4 ps (if sop = 0 then v else scatterLanes sop old v)).scatterApply sop r

/-- SCATTER's window from entry `j` on, at its addresses. -/
def State.scatterWindow (s : State) (cmd : Cmd) (k j : Nat) (as : List Word) : Work :=
  let w := cmd.words.getD 2 0
  let e := gatherBytes w
  let sop := bits w 53 52
  let n := as.length
  let from' := storeLoc k (gatherOff w + j * e)
  match s.poisoned from' (n * e) with
  | some l => .lost (paddrOf l) l
  | none =>
    let vals := (List.range n).map fun i => s.readBytes (from' + i * e) e
    let merged := (as.zip vals).foldl (fun m (a, v) => mergeEntry sop a v m) []
    match s.scatterCheck cmd e merged with
    | .error f => .ofFault f (scatterNeed sop)
    | .ok (ps, s2) =>
      match (ps.filterMap fun q => if sop = 0 then
          (q.1.filterMap fun p => match p with | .mem l => s2.mergesPoison l 4 | .peer _ _ => none).head? else s2.spoiled 4 q.1).head? with
      | some l => .lost (paddrOf l) l
      | none => .done (s2.scatterApply sop ps)

/-- The job records of a cluster's gather engine: paused gathers and scatters of its cores (R251). -/
def State.gatherRecords (s : State) (k : Nat) : Nat :=
  ((clusterCores k).map fun c => ((s.core c).paused.filter fun p => p.cmd.kind != .copy).length).foldl (· + ·) 0

/-- Context J holds the addresses of the rest of its window; at the end of one, what its walks have answered is given up. -/
def State.setWindow (s : State) (k : Nat) (as : List Word) : State :=
  let cl := s.cluster k
  s.setCluster k { cl with window := as, walked := if as.isEmpty then cl.walked.filter fun w => w.cause != 0 else cl.walked }

/-- The addresses that a command brings into context J: those of the rest of the window in which it was paused, which its record holds behind
its cursor (R251). -/
def Cmd.saved (c : Cmd) : List Word := c.words.drop 4

/-- Context J's command ends, and the next one begins. -/
def State.gatherNext (s : State) (k : Nat) : State :=
  let cl := s.cluster k
  let s := (s.setCluster k { cl with gatherq := cl.gatherq.drop 1 }).setWindow k (((cl.gatherq.drop 1).head?.map (·.1.saved)).getD [])
  if cl.gatherq.length ≤ 1 then s else s.later 1 (bulkPath (4096 + k)) .gatherWindow (.num k)

/-- Context J goes on from an entry with the addresses of the rest of its window. -/
def State.gatherGo (s : State) (k : Nat) (cmd : Cmd) (j : Nat) (as : List Word) (dt : Nat) : State :=
  let s := s.setWindow k as
  (s.setCluster k { s.cluster k with gatherq := (cmd, j) :: (s.cluster k).gatherq.drop 1 }).later dt (bulkPath (4096 + k)) .gatherWindow (.num k)

/-- A window's entries have been done up to `j`, `n` of them in this step: the command ends, or its next window begins. -/
def State.gatherDone (s : State) (k : Nat) (cmd : Cmd) (j n : Nat) : State :=
  let w := cmd.words.getD 2 0
  if gatherCount w ≤ j then (s.setTag cmd.ctx.core cmd.tag true).gatherNext k
  else s.gatherGo k cmd j [] (max 1 ((n * gatherBytes w + 127) / 128))

/-- What stops a command in context J at an entry: a walk that it waits for, a fault that pauses it, the addresses of its window saved with its
cursor (R251), or poisoned data. -/
def State.gatherStop (s : State) (k : Nat) (cmd : Cmd) (j : Nat) (as : List Word) : Work → State
  | .walks a need => (s.missAt cmd.ctx.core cmd.job need a).gatherGo k cmd j as 1
  | .fault f => (s.pause { cmd with words := cmd.words.take 3 ++ word j :: as } f j).gatherNext k
  | .lost a l => s.lose cmd.job (engineLoss none a l)
  | .done t => t

/-- The window of GATHER from entry `j` on, its addresses known; `stop` is what ended the reading of its index list. -/
def State.gatherStep (s : State) (k : Nat) (cmd : Cmd) (j : Nat) (as : List Word) (stop : Option Work) : State :=
  match s.gatherSome cmd k j as, stop with
  | (i, s, some w), _ => s.gatherStop k cmd i (as.drop (i - j)) w
  | (i, s, none), some w => s.gatherStop k cmd i [] w
  | (i, s, none), none => s.gatherDone k cmd i as.length

/-- GATHER_WINDOW (R250, R251): the next window of 256 entries of the command in context J: its index list is read, and then its elements are
moved; no command goes on while eight are paused. -/
def execGatherWindow (s : State) : Out :=
  match s.arg with
  | .num k =>
    let cl := s.cluster k
    match cl.gatherq with
    | [] => .next s
    | (cmd, j) :: _ =>
      let n := min (256 - j % 256) (gatherCount (cmd.words.getD 2 0) - j)
      if 8 ≤ s.gatherRecords k || !s.pauseRoom cmd.ctx.core then .next (s.later 8 (bulkPath (4096 + k)) .gatherWindow (.num k))
      else
        match if cl.window.isEmpty then s.gatherAddrs cmd j n else (cl.window, s, none) with
        | (_, _, some (.walks a need)) => .next (s.gatherStop k cmd j [] (.walks a need))
        | (as, s, stop) =>
          match cmd.kind, stop with
          | .gather, _ => .next (s.gatherStep k cmd j as stop)
          | _, some w => .next (s.gatherStop k cmd j [] w)
          | _, none =>
            match s.scatterWindow cmd k j as with
            | .done s => .next (s.gatherDone k cmd (j + as.length) as.length)
            | w => .next (s.gatherStop k cmd j as w)
  | _ => .next s

/-- Context Y goes on with a request, which it has served once it has moved the bytes left, 128 a cycle (R251). -/
def State.serveY (s : State) (k : Nat) (y : YWork) (saved : List YWork) : State :=
  let n := y.left / 128 + 1
  (s.setCluster k { s.cluster k with yserve := some { y with due := s.cycle + n }, ysaved := saved }).later n none .gatherSystemSwitch
    (.pair k (s.cycle + n))

/-- GATHER_SYSTEM_SWITCH (R251): a system request enters context Y; that of another requester saves Y's state, with the bytes that it has left,
and takes its place, and one of the same requester follows on; when the request being served has been served, the state saved last is reloaded.
The bytes themselves are moved in the step that makes the request. -/
def execGatherSystemSwitch (s : State) : Out :=
  match s.arg with
  | .system k y =>
    let cl := s.cluster k
    match cl.yserve with
    | none => .next (s.serveY k y cl.ysaved)
    | some w =>
      let left := 128 * (w.due - s.cycle)
      if w.who = y.who then .next (s.serveY k { y with left := left + y.left } cl.ysaved)
      else .next (s.serveY k y ({ w with left := left } :: cl.ysaved))
  | .pair k due =>
    let cl := s.cluster k
    match cl.yserve with
    | none => .next s
    | some w =>
      if w.due ≠ due then .next s
      else
        match cl.ysaved with
        | [] => .next (s.setCluster k { cl with yserve := none })
        | v :: vs => .next (s.serveY k v vs)
  | _ => .next s

end Sys2Proof.Machine
end

