-- ==== Sys2Proof/Machine/Threads.lean ====
section
/-!
DEFINITION. Messages, threads and groups (R175-R202): TASKSET and TASKRD, SEND and SENDK, PARK and RESUME, JOIN and LEAVE, GBAR and
GMAX, the arrival of messages, and dispatch.
-/
namespace Sys2Proof.Machine

open Sys2Proof

/-! ## Issue on the message plane -/

/-- A message-plane operation (R182): a release of DEV scope, fallible; a fifth fallible operation waits (R123). -/
def State.sendOp (s : State) (c : CtxId) (w : IWord) (addr : Word) (b : OpBody) : State :=
  if s.fallibleFull c then s.fallibleWait c
  else
    let o := { s.newOp c w addr b none with fallible := true, scope := .dev }
    let s := s.launch o
    s.retire c fun x => { x with region := x.region + 1 }

/-- The core that bits 14:0 of a word name for TASKSET and SEND, with the faults of R177 and R180: TRAPVAL is the word. -/
def State.destCore (s : State) (core : Nat) (w : Word) : Except Trap Nat :=
  if bits w 14 14 = 0 then .error (exact cBounds w 0)
  else
    match coreOfField (bits w 14 0) with
    | none => .error (exact cMesh w 0)
    | some t => if s.inRect (s.jobOf core) t then .ok t else .error (exact cProtect w 0)

/-! ## TASKSET and TASKRD (R177, R178) -/

/-- Whether NG and NV of a task-table word are valid (R176). -/
def liveSetOk (w : Word) : Bool :=
  decide (bits w 8 4 ≤ 15) && decide (bits w 12 9 ≤ 8) && decide (bits w 8 4 + 2 * bits w 12 9 ≤ 16)

/-- TASKSET. -/
def execTaskset (o : KABD) (s : State) : Out :=
  s.issue ⟨o.s, none, [gr o.a, gr o.b, gr o.d]⟩ fun s c =>
    let x := s.ctx c
    let a := x.getG o.a.toNat
    let b := x.getG o.b.toNat
    let d := x.getG o.d.toNat
    let op := bits a 25 24
    if bits a 63 26 ≠ 0 ∨ bits a 23 22 ≠ 0 ∨ bits a 15 15 ≠ 0 ∨ op = 3 ∨ bits a 14 14 = 0 then .error (exact cBounds a 0)
    else if op = 0 ∧ (bits b 63 48 ≠ 0 ∨ bits b 1 0 ≠ 0) then .error (exact cBounds b 0)
    else if op = 0 ∧ !liveSetOk d then .error (exact cBounds d 0)
    else
      match s.destCore c.core a with
      | .error t => .error t
      | .ok t => .ok (s.sendOp c (firstWord (.taskset o)) a (.taskset t (bits a 21 16) op b d))

/-- One more message of a job dropped by its cancel (R140, R318). -/
def State.countDrop (s : State) (job : Nat) : State :=
  s.setJob job { s.job job with drop := (s.job job).drop + 1 }

/-- TASKSET_AT_TARGET (R177, R183): the entry changes in one step, and the operation is accepted. The inbox of a job that is away has no
entry for a TASKSET (R315): it is presented again until the job is back (log entry 103), as it is while the job is quiesced (R317); the
monitor's acts on every core. -/
def execTasksetAtTarget (s : State) : Out :=
  match s.arg with
  | .num id =>
    match s.op id with
    | none => .next s
    | some o =>
      match o.body with
      | .taskset t ch op b d =>
        if !s.stampOk o.job o.gen then .next (s.finishOp o)
        else if (s.job o.job).st == .cancelled && ((s.core t).cancelled || s.jobAway o.job t) then
          .next ((s.countDrop o.job).finishOp o)
        else if o.job ≠ 0 ∧ (s.jobAway o.job t ∨ (s.job o.job).sched = .quiesced) then
          .next (s.again 8 (some (s.opPath o)) .tasksetAtTarget (.num id))
        else
          let s := s.finishOp o
          let w1 := s.task t ch 1
          let keep := w1 &&& ~~~(word 0x1FFF)
          .next (match op with
            | 0 => s.wrWords (taskLoc t ch 0) [b, keep ||| word (bits d 12 0)]
            | 1 => s.wr64 (taskLoc t ch 1) (w1 ||| 4)
            | _ => s.wr64 (taskLoc t ch 1) (w1 &&& ~~~(4 : Word)))
      | _ => .next s
  | _ => .next s

/-- TASKRD (R178). -/
def execTaskrd (o : KAD) (s : State) : Out :=
  s.issue ⟨o.s, none, [gr o.a, gr o.d]⟩ fun s c =>
    let a := (s.ctx c).getG o.a.toNat
    .ok (s.longResult c (firstWord (.taskrd o)) (gr o.d) (wide (s.task c.core (bits a 5 0) (bits a 6 6))) Config.latLocal)

/-! ## SEND and SENDK (R179-R181) -/

/-- The bits of two numbers interleaved, the first taking bit 0 of each pair: the order key of R181. -/
def interleave : Nat → Nat → Nat → Nat
  | 0, _, _ => 0
  | n + 1, a, b => a % 2 + 2 * (b % 2) + 4 * interleave n (a / 2) (b / 2)

/-- The order key of a core in a job's rectangle (R181). -/
def State.orderKey (s : State) (job core : Nat) : Nat :=
  interleave 8 (xOf core - 4 * (s.job job).cx) (yOf core - 2 * (s.job job).cy)

/-- The core of a rank in ductus order (R181): the one with that many smaller keys. -/
def State.ductusCore (s : State) (job rank : Nat) : Option Nat :=
  let cores := s.rectCores job
  cores.find? fun c => (cores.filter fun d => decide (s.orderKey job d < s.orderKey job c)).length == rank

/-- The registers of a payload of `n` words from a field on (R180). -/
def payloadRegs (b : BitVec 6) (n : Nat) : List Reg := (List.range n).map fun i => .g (b.toNat + i)

/-- SEND and SENDK from the message word on (R180): the length, the payload's registers, the target. -/
def State.sendMessage (s : State) (c : CtxId) (w : IWord) (a : Word) (b : BitVec 6) (target : State → Except Trap (Option Nat)) :
    Except Trap State :=
  let n := bits a 26 24
  if bits a 63 27 ≠ 0 ∨ bits a 23 22 ≠ 0 ∨ bits a 15 15 ≠ 0 ∨ 4 < n then .error (exact cBounds a 0)
  else
    match regTrap (s.core c.core).partword (s.ctx c) (payloadRegs b n) with
    | some t => .error t
    | none =>
      match target s with
      | .error t => .error t
      | .ok none => .error (exact cBounds a 0)
      | .ok (some t) =>
        let co := s.core c.core
        if co.cancelled then
          let j := s.jobOf c.core
          .ok ((s.setJob j { s.job j with drop := (s.job j).drop + 1 }).retire c id)
        else
          let p := (List.range n).map fun i => (s.ctx c).getG (b.toNat + i)
          .ok (s.sendOp c w a (.send t (bits a 21 16) n p))

/-- SEND. -/
def execSend (o : KAB) (s : State) : Out :=
  s.issue ⟨o.s, none, [gr o.a]⟩ fun s c =>
    let a := (s.ctx c).getG o.a.toNat
    s.sendMessage c (firstWord (.send o)) a o.b fun s => (s.destCore c.core a).map some

/-- SENDK. Where g[D] and a payload register are both pending, field D is checked first, with field A, and the payload when the message word
has been read (R45, R180, log entry 104). -/
def execSendk (o : KABD) (s : State) : Out :=
  s.issue ⟨o.s, none, [gr o.a, gr o.d]⟩ fun s c =>
    let a := (s.ctx c).getG o.a.toNat
    let d := (s.ctx c).getG o.d.toNat
    s.sendMessage c (firstWord (.sendk o)) a o.b fun s =>
      if bits a 14 0 ≠ 0 ∨ bit d 63 then .error (exact cBounds a 0)
      else
        let job := s.jobOf c.core
        .ok (s.ductusCore job (bits d 62 0 * (s.rectCores job).length / 2 ^ 63))

/-! ## PARK and RESUME (R191, R192) -/

/-- Whether PARK, a barrier or TEND must wait where it stands: a journal entry or a link operation of the thread is not settled
(R124, R215). -/
def State.unsettledJournal (s : State) (c : CtxId) : Bool := (s.opsOf c).any (fun o => o.body.isLink) || s.journalOpen c

/-- Whether other parts have still to clear marks of a context's region (R154). -/
def State.peersOwe (s : State) (c : CtxId) (region : Nat) : Bool := s.peerLog.any fun m => m.named c region .dom

/-- A record address in a form that names it from every core (R193). -/
def absAddr (core : Nat) (a : Word) : Word := if isSelf a then coreAddr core (bits a 19 0) else a

/-- The maps of PARK that are refused (R191). TRAPVAL of more than 16 slots, for which the manual says "gm or vm", is gm (log entry 105). -/
def State.parkMapsTrap (s : State) (core : Nat) (gm vm : Word) : Option Trap :=
  let w := (s.core core).partword
  if bit gm 0 ∨ gm.toNat / 2 ^ classG w ≠ 0 then some (exact cBounds gm 0)
  else if bits vm 63 39 ≠ 0 ∨ bits vm 31 0 / 2 ^ classV w ≠ 0 then some (exact cBounds vm 0)
  else if 16 < popN 64 gm.toNat + 2 * popN 32 (bits vm 31 0) then some (exact cBounds gm 0)
  else none

/-- A context waits at an instruction for the answer of a home (R191, R200). -/
def State.homeWait (s : State) (c : CtxId) (o : Op) : State :=
  let id := s.nextId
  let s := s.launch o
  s.setCtx c { s.ctx c with st := .marker, busy := .homeWait id }

/-- The checks of a record or descriptor address: those of R23, and then 64-byte alignment. -/
def State.checkLine (s : State) (core : Nat) (a : Word) (size : Nat) : Option Trap := s.checkThen core a 64 size

/-- The release of PARK, a blocking point at its issue (R306): none is made when PARK is executed again after TRET (R191), or while it waits where
it stands. -/
def State.parkRelease (s : State) (c : CtxId) : State :=
  let x := s.ctx c
  if x.released.any fun r => r.1 == x.pc && (x.resumed || x.blocked) then s
  else (s.clearMarks c x.region .dom).setCtx c { x.reachOnce s.cycle true with released := some (x.pc, x.region) }

/-- PARK: settles, releases once, checks its operands, and sends the record to its home. -/
def execPark (o : KABD) (s : State) : Out :=
  s.issue ⟨true, none, [gr o.a, gr o.b, gr o.d] ++ if o.b = 0 then [] else [.g (o.b.toNat + 1)]⟩ fun s c =>
    let x := s.ctx c
    if !x.rewrites.isEmpty then .error (exact cProtect 0 0)
    else if s.unsettledJournal c then .ok s
    else
      let s := s.parkRelease c
      let a := x.getG o.a.toNat
      let gm := if o.b = 0 then 0 else x.getG o.b.toNat
      let vm := if o.b = 0 then 0 else x.getG (o.b.toNat + 1)
      if s.peersOwe c x.region then .ok s
      else
        match s.checkLine c.core a 192, s.parkMapsTrap c.core gm vm with
        | some t, _ => .ok (s.raise c t)
        | none, some t => .ok (s.raise c t)
        | none, none => .ok (s.homeWait c (s.newOp c (firstWord (.park o)) a (.park gm vm o.d.toNat) none))

/-- An exact trap of an instruction whose home has answered (R191, R200). -/
def State.homeTrap (s : State) (c : CtxId) (id : Nat) (t : Trap) : State :=
  (((s.dropOp id).setCtx c { s.ctx c with st := .running, busy := .idle }).raise c t)

/-- The instruction goes on in its context with a result in g[D] (R48, R191, R200). -/
def State.homeGo (s : State) (c : CtxId) (id : Nat) (d : Nat) (v : Word) : State :=
  let s := s.dropOp id
  s.setCtx c (({ s.ctx c with st := .running, busy := .idle, released := none }.setG d v).advance 1)

/-- An operation that finds its page untranslated waits for the walk, and arrives again (R329). -/
def State.walkFirst (s : State) (o : Op) (a : Word) : State :=
  (s.missAt o.ctx.core o.job .both a).again 1 (some (s.opPath o)) o.body.arrival (.num o.id)

/-- Poison in the bytes that a step of a job's thread reads at their home loses the job (R358); else the step goes on. -/
def State.unspoiled (s : State) (job : Nat) (c : CtxId) (a : Word) (l n : Nat) (go : Out) : Out :=
  match s.poisoned l n with
  | some q => .next (s.lose job (lossAt c (s.ctx c).pc a q))
  | none => go

/-- PARK_AT_HOME (R191): an early resume is consumed, a free record is written and parked, any other state is refused. For a record of
another part (R345) a value is its answer that an early resume was consumed, and a pair its answer "parked". -/
def execParkAtHome (s : State) : Out :=
  match s.arg with
  | .answer id (some v) =>
    match s.op id with
    | none => .next s
    | some o =>
      match o.body with
      | .park _ _ d => .next (s.homeGo o.ctx id d (v.truncate 64))
      | _ => .next s
  | .pair id _ =>
    match s.op id with
    | none => .next s
    | some o => .next ((((s.dropOp id).memberParks o.ctx o.addr).clearMarks o.ctx (s.ctx o.ctx).region .dom).freeCtx o.ctx)
  | .num id =>
    match s.op id with
    | none => .next s
    | some o =>
      match o.body with
      | .park gm vm d =>
        match s.reach o.ctx.core o.job .both o.addr 192 with
        | .error (0, a) => .next (s.walkFirst o a)
        | .error (c, _) => .next ((s.reachFault o o.addr).homeTrap o.ctx id (exact c o.addr 0))
        | .ok l =>
          s.unspoiled o.job o.ctx o.addr l 64 <|
          let state := s.read l 1 % 4
          if state = 3 then
            let v := s.rd64 (l + 56)
            .next (((s.wr64 (l + 56) 0).write l 1 (s.read l 1 / 4 * 4)).homeGo o.ctx id d v)
          else if state = 0 then
            let s := s.dropOp id
            let x := { s.ctx o.ctx with released := none }.advance 1
            let s := s.setCtx o.ctx x
            .next (s.becomeRecord o.ctx (absAddr o.ctx.core o.addr) l
              { state := 1, kind := 0, pc := x.pc, wreg := d, wv := d != 0, gm := gm, vm := vm, mm := bits vm 38 32 })
          else .next (s.homeTrap o.ctx id (exact cProtect o.addr 0))
      | _ => .next s
  | _ => .next s

/-- RESUME: checked exactly, then sent (R192). -/
def execResume (o : KAB) (s : State) : Out :=
  s.issue ⟨o.s, none, [gr o.a, gr o.b]⟩ fun s c =>
    let x := s.ctx c
    let a := x.getG o.a.toNat
    match s.checkLine c.core a 192 with
    | some t => .error t
    | none => .ok (s.sendOp c (firstWord (.resume o)) a (.resume (x.getG o.b.toNat)))

/-- Whether a RESUME is dropped where it arrives, because its job is cancelled (R140, R183): at the core whose pool holds the record once the
cancelled state has reached it, and at any other home from the cancel on. -/
def State.resumeCancelled (s : State) (job loc : Nat) : Bool :=
  match homeOf loc with
  | .pool c => (s.core c).cancelled || (s.job job).st == .cancelled && s.jobAway job c
  | _ => (s.job job).st == .cancelled

/-- Whether a RESUME is presented again where it arrives: the record's home is a pool or a store that its job has left (R183, log entry 103), or
the job is quiesced (R317). -/
def State.resumeWaits (s : State) (job loc : Nat) : Bool :=
  job != 0 && ((s.job job).sched == .quiesced ||
    match homeOf loc with
    | .pool c => s.jobAway job c
    | .store k => s.jobAway job (coreAt (4 * (k % 12)) (2 * (k / 12)))
    | .stack _ => false)

/-- RESUME_AT_HOME (R192, R193): in one step the record is claimed and its re-creation sent, or the value is left early, or the
resume is discarded. -/
def execResumeAtHome (s : State) : Out :=
  match s.arg with
  | .num id =>
    match s.op id with
    | none => .next s
    | some o =>
      match o.body with
      | .resume v =>
        if !s.stampOk o.job o.gen then .next (s.finishOp o)
        else
          match s.reach o.ctx.core o.job .both o.addr 192 with
          | .error (0, a) => .next (s.walkFirst o a)
          | .error (c, _) => .next ((s.reachFault o o.addr).later 1 none .fallibleOpFault (.fault id c o.addr))
          | .ok l =>
            if !s.resumeCancelled o.job l && s.resumeWaits o.job l then .next (s.again 8 (some (s.opPath o)) .resumeAtHome (.num id))
            else
            s.unspoiled o.job o.ctx o.addr l 64 <|
            let s := s.finishOp o
            let w2 := s.rd64 (l + 16)
            let state := s.read l 1 % 4
            if s.resumeCancelled o.job l then
              .next (s.setJob o.job { s.job o.job with drop := (s.job o.job).drop + 1 })
            else if state = 1 ∧ bits w2 62 59 = 0 then
              let target := if bit w2 48 && !bit w2 47 then o.ctx.core else s.recordHome l
              .next ((s.claim l v).sendRecreate o.ctx.core target o.job o.gen (absAddr o.ctx.core o.addr))
            else if state = 0 then .next ((s.wr64 (l + 56) v).write l 1 (s.read l 1 / 4 * 4 + 3))
            else .next s
      | _ => .next s
  | _ => .next s

/-! ## Groups (R199, R200) -/

/-- JOIN and LEAVE at issue. -/
def formMember (o : KAD) (leave : Bool) (w : IWord) (s : State) : Out :=
  s.issue ⟨o.s, none, [gr o.a, gr o.d]⟩ fun s c =>
    let a := (s.ctx c).getG o.a.toNat
    match s.checkLine c.core a 64 with
    | some t => .error t
    | none => s.accessChecked c (s.newOp c w a (.member leave) (some (gr o.d)))

/-- JOIN. -/
def execJoin (o : KAD) (s : State) : Out := formMember o false (firstWord (.join o)) s

/-- LEAVE. -/
def execLeave (o : KAD) (s : State) : Out := formMember o true (firstWord (.leave o)) s

/-- GBAR and GMAX: settle, release, take a pool entry and write the thread into it, and send the arrival (R200). -/
def State.arriveAt (s : State) (c : CtxId) (w : IWord) (a : Word) (d : Nat) (gmax : Option (BitVec 32)) : Except Trap State :=
  let x := s.ctx c
  if !x.rewrites.isEmpty then .error (exact cProtect 0 0)
  else if s.unsettledJournal c then .ok s
  else
    let s := s.clearMarks c x.region .dom
    if s.peersOwe c x.region then .ok s
    else
    match s.checkLine c.core a 64 with
    | some t => .ok (s.raise c t)
    | none =>
      match s.takeEntry (s.jobOf c.core) with
      | none => .ok (s.poolWait c 3)
      | some (e, s) =>
        let s := match s.unitLoc (s.jobOf c.core) (bits e 47 0) with
          | some l => s.wrWords l (recordWords c.core (x.advance 1) (s.liveSpec c 1 3 (x.advance 1).pc d true))
          | none => s
        .ok (s.homeWait c (s.newOp c w a (.arrive gmax e d) none))

/-- GBAR. -/
def execGbar (o : KAD) (s : State) : Out :=
  s.issue ⟨true, none, [gr o.a, gr o.d]⟩ fun s c =>
    s.arriveAt c (firstWord (.gbar o)) ((s.ctx c).getG o.a.toNat) o.d.toNat none

/-- GMAX. -/
def execGmax (o : KABD) (s : State) : Out :=
  s.issue ⟨true, none, [gr o.a, gr o.b, gr o.d]⟩ fun s c =>
    s.arriveAt c (firstWord (.gmax o)) ((s.ctx c).getG o.a.toNat) o.d.toNat (some (((s.ctx c).getG o.b.toNat).truncate 32))

/-- The thread of an arrival that is chained becomes the continuation in its pool entry (R200). -/
def State.parkArrival (s : State) (o : Op) (e : Word) (q d : Nat) : State :=
  let x := (s.ctx o.ctx).advance 1
  let s := s.setCtx o.ctx x
  s.becomeRecord o.ctx e q (s.liveSpec o.ctx 1 3 x.pc d true)

/-- GROUP_ARRIVAL (R200, R201): the arrival completes the phase and its thread goes on, or it is chained and its context becomes
FREE; a refused arrival gives its entry back and traps. For a descriptor of another part (R345) a value is its answer that the phase is
complete, and a pair its answer that the arrival is chained. -/
def execGroupArrival (s : State) : Out :=
  match s.arg with
  | .answer id (some v) =>
    match s.op id with
    | none => .next s
    | some o =>
      match o.body with
      | .arrive _ e d => .next ((s.returnEntry o.job e).homeGo o.ctx id d (v.truncate 64))
      | _ => .next s
  | .pair id _ =>
    match s.op id with
    | none => .next s
    | some o =>
      match o.body with
      | .arrive _ e d =>
        match s.unitLoc o.job (bits e 47 0) with
        | none => .next (s.dropOp id)
        | some q => .next ((s.dropOp id).parkArrival o e q d)
      | _ => .next s
  | .num id =>
    match s.op id with
    | none => .next s
    | some o =>
      match o.body with
      | .arrive gmax e d =>
        match s.reach o.ctx.core o.job .both o.addr 64 with
        | .error (0, a) => .next (s.walkFirst o a)
        | .error (c, _) => .next (((s.reachFault o o.addr).returnEntry o.job e).homeTrap o.ctx id (exact c o.addr 0))
        | .ok l =>
          s.unspoiled o.job o.ctx o.addr l 64 <|
          let s := s.countArrival l gmax
          if s.grpMembers l ≤ s.grpArrived l then
            let (r, epoch, s) := s.completePhase l o.job o.gen
            .next ((s.returnEntry o.job e).homeGo o.ctx id d (if gmax.isSome then r else epoch))
          else
            let s := s.dropOp id
            match s.unitLoc o.job (bits e 47 0) with
            | none => .next s
            | some q =>
              let s := s.parkArrival o e q d
              let s := s.chainArrival l o.job e
              .next { s with gmaxers := if gmax.isSome then (q, o.job) :: s.gmaxers else s.gmaxers }
      | _ => .next s
  | _ => .next s

/-! ## Messages at their target (R183-R185, R315) -/

/-- The sender's operation of an accepted or dropped message is complete (R182). -/
def State.sent (s : State) (m : Msg) : State :=
  match m.op with
  | some id =>
    match s.op id with
    | some o => s.finishOp o
    | none => s
  | none => s

/-- A message presented to its target (R183): dropped, stored in the job's inbox, refused, accepted, or answered "full" and
presented again, as it is where a job that is away has no inbox (log entry 103); a report or a tile-free message that its target refuses is
dropped (log entry 46). -/
def State.present (s : State) (m : Msg) : State :=
  let j := s.job m.job
  let co := s.core m.target
  let retry (s : State) : State := s.again 8 (some ⟨planeMessage, m.via, m.target⟩) .messageRetry (.msg m)
  if !s.stampOk m.job m.gen then s.sent m
  else if s.jobAway m.job m.target then
    if j.st == .cancelled then
      let s := (s.countDrop m.job).sent m
      if j.sched == .switchedOut then s.write (j.save + 16) 4 (s.read (j.save + 16) 4 + 1) else s
    else if j.save = 0 then retry s
    else
      match s.toInbox m with
      | some s => s.sent m
      | none => retry (s.write (j.save + 20) 4 (s.read (j.save + 20) 4 + 1))
  else if co.cancelled then (s.countDrop m.job).sent m
  else
    let closed := match m.body with
      | .start ch _ _ => s.taskEntry m.target ch == 0
      | _ => false
    if closed then
      match m.op with
      | some id =>
        match s.op id with
        | some o => s.later 1 none .fallibleOpFault (.fault id cProtect o.addr)
        | none => s
      | none => s
    else
      match s.accept m with
      | some s => s.sent m
      | none => retry s

/-- MESSAGE_ARRIVE (R183). -/
def execMessageArrive (s : State) : Out :=
  match s.arg with
  | .msg m => .next (s.present m)
  | _ => .next s

/-- MESSAGE_RETRY (R183): a message that was answered "full" is presented again. -/
def execMessageRetry (s : State) : Out :=
  match s.arg with
  | .msg m => .next (s.present m)
  | _ => .next s

/-! ## Dispatch (R186, R187, R193, R197) -/

/-- The current priority of a ring entry (R186). -/
def RingEntry.current (e : RingEntry) (now : Nat) : Nat := min 3 (e.base + (now - e.time) / 4096)

/-- The record of a ring entry. -/
def RingEntry.record (core : Nat) (e : RingEntry) : Option Word :=
  match e.body with
  | .start _ _ _ => none
  | .recreate r => some r
  | .wake i _ => some (coreAddr core (sysBase + 0x1000 + 192 * i))

/-- Whether a ring entry is ready (R186, R304, R401): its channel is not blocked, or its continuation holds its results; from the
8th cycle after acceptance. -/
def State.ready (s : State) (core : Nat) (e : RingEntry) : Bool :=
  decide (e.time + 8 ≤ s.cycle) &&
    match e.body, e.record core with
    | .start ch _ _, _ => !s.taskBlk core ch
    | _, some r => s.runnable r
    | _, none => true

/-- The context that an entry goes to (R186); a record of another part counts as one without CZ: DESIGN CHOICE (log entry 129). -/
def State.chooseCtx (s : State) (core : Nat) (e : RingEntry) : Option CtxId :=
  let free := (s.coreCtxs core).filter fun c => (s.ctx c).st == .free
  if !(s.core core).partword.getLsbD 0 then free.head?
  else
    let cz := match e.body with
      | .start ch _ _ => s.taskCz core ch
      | .recreate r =>
        match s.recordLoc e.job r with
        | some l => s.taskCz core (bits (s.rd64 (l + 16)) 58 53)
        | none => false
      | .wake i _ => s.taskCz core (bits (s.rd64 (slotLoc core i + 16)) 58 53)
    if e.current s.cycle = 3 && cz then free.head? else (free.filter fun c => c.k != 0).head?

/-- Of ring entries, the ready one of highest current priority, the one accepted first among equals (R186). -/
def State.bestEntry (s : State) (core : Nat) : List (Nat × Option RingEntry) → Option (Nat × RingEntry)
  | [] => none
  | (_, none) :: r => s.bestEntry core r
  | (i, some e) :: r =>
    match s.bestEntry core r with
    | none => if s.ready core e then some (i, e) else none
    | some (j, f) =>
      let better := decide (f.current s.cycle < e.current s.cycle)
        || (e.current s.cycle == f.current s.cycle && decide (e.order < f.order))
      if s.ready core e && better then some (i, e) else some (j, f)

/-- Removes an entry from a dispatch ring. -/
def State.dropEntry (s : State) (core i : Nat) : State :=
  let co := s.core core
  s.setCore core { co with ring := mset none co.ring i none }

/-- The entry that a dispatch event acts on, with the context it goes to; none while dispatch is held (R138, R313). -/
def State.dispatchee (s : State) (core i : Nat) : Option (RingEntry × Option CtxId) :=
  let co := s.core core
  match mget none co.ring i with
  | none => none
  | some e =>
    if co.held || co.repart.isSome || co.owner != some e.job || !s.ready core e then none
    else some (e, s.chooseCtx core e)

/-- The FROZEN context that a message of HANDLER_FETCH tells the monitor of, with its job in JOBID form (R128, R129, log entry 106). -/
def RingEntry.handles (e : RingEntry) (ch : Nat) (p : List Word) : Option (CtxId × Nat) :=
  if e.job = 0 ∧ ch = (Config.monitorChan cHandlerFetch).toNat ∧ p.length = 4 then
    (coreOfField (bits (p.getD 1 0) 14 0)).map fun core => (⟨core, bits (p.getD 1 0) 19 16⟩, bits (p.getD 0 0) 15 0)
  else none

/-- The context of a newly born thread (R29). -/
def State.birth (s : State) (c : CtxId) (e : RingEntry) (ch : Nat) (p : List Word) : State :=
  let old := s.ctx c
  let x : Ctx := { Ctx.init c.core c.k with
    st := .running, pc := s.taskEntry c.core ch, chan := ch, prio := e.current s.cycle, trapvec := (s.job e.job).trapvec,
    rndseed := old.rndseed, feretry := old.feretry, jobsel := old.jobsel, ctxsel := old.ctxsel, region := old.region + 1,
    thread := s.nextThread, since := s.cycle, notBefore := s.cycle + 16, handling := e.handles ch p,
    member := (s.job e.job).coset.contains (c.core, ch) }
  let x := ((((x.setG 1 (p.getD 0 0)).setG 2 (p.getD 1 0)).setG 3 (p.getD 2 0)).setG 4 (p.getD 3 0)).setG 5 (word e.sender)
  { s.setCtx c x with nextThread := s.nextThread + 1 }

/-- A start message of a co-resident set leaves the ring: one member fewer is still to start (R310). -/
def State.leaveCoset (s : State) (job core ch : Nat) : State :=
  let j := s.job job
  if j.coset.contains (core, ch) then s.setJob job { j with coset := j.coset.erase (core, ch) } else s

/-- DISPATCH_MESSAGE (R187): the thread is born, or the entry is discarded where the channel has ENTRY 0. -/
def execDispatchMessage (s : State) : Out :=
  match s.arg with
  | .pair core i =>
    match s.dispatchee core i with
    | some (e, ctx) =>
      match e.body with
      | .start ch _ p =>
        if s.taskEntry core ch = 0 then
          let w := s.task core ch 1
          .next ((s.dropEntry core i).wr64 (taskLoc core ch 1) (setBits w 47 32 (bits w 47 32 + 1)))
        else
          match ctx with
          | some c => .next (((s.dropEntry core i).birth c e ch p).leaveCoset e.job core ch)
          | none => .next s
      | _ => .next s
    | none => .next s
  | _ => .next s

/-- The first register of a record that lies beyond the class of the receiving core (R189). -/
def beyondClass (w : BitVec 32) (gm vm : Word) : Option Reg :=
  match (maskRegs 64 gm).find? fun n => decide (classG w ≤ n) with
  | some n => some (.g n)
  | none => ((maskRegs 32 vm).find? fun n => decide (classV w ≤ n)).map .v

/-- A member of a co-resident set holds a context again (R310). -/
def State.memberBack (s : State) (c : CtxId) (job : Nat) (rec : Word) : State :=
  let j := s.job job
  if j.comembers.contains rec then
    (s.setJob job { j with comembers := j.comembers.erase rec }).setCtx c { s.ctx c with member := true }
  else s

/-- A context takes up the continuation of a record with its words (R30, R193), which are read `lat` cycles after the dispatch: its fault list and
the journal entries that are held for it return to it, and a cause that was found before is still taken first (R54). -/
def State.recreateFrom (s : State) (c : CtxId) (e : RingEntry) (rec : Word) (w : List Word) (lat : Nat) : State :=
  let x := restoreCtx (s.ctx c) (ctxKey c) (s.job e.job).trapvec s.nextThread w
  let co := s.core c.core
  let faults := settledFaults ((co.parked.filter fun p => p.record == rec).map (·.faults)).flatten
  let vm := word (bits (w.getD 2 0) 31 0)
  let x := { x with since := s.cycle, notBefore := s.cycle + 16 + lat, faults := faults }
  let due := (co.parked.filter fun p => p.record == rec).findSome? (·.due)
  let beyond := (beyondClass co.partword (w.getD 1 0) vm).map fun r => exact cRegAllot (word r.num) r.kindInfo
  let x := match due.orElse fun _ => beyond with
    | some t => { x with st := .marker, trapDue := some t }
    | none => x
  let s := s.setCore c.core { co with parked := co.parked.filter fun p => p.record != rec }
  let s := { s with ops := s.ops.map fun (o : Op) =>
    if o.record == some rec && o.reason != 0 then { o with record := none, ctx := c, thread := s.nextThread } else o }
  { s.setCtx c x with nextThread := s.nextThread + 1 }.memberBack c e.job rec

/-- A context takes up the continuation of the record at a location: STATE becomes free (R193). -/
def State.recreate (s : State) (c : CtxId) (e : RingEntry) (rec : Word) (l : Nat) : State :=
  (s.recreateFrom c e rec (s.rdWords l 24) (typical c.core (homeOf l))).write l 1 (s.read l 1 / 4 * 4)

/-- Whether a record stands on another part. -/
def State.foreign (s : State) (rec : Word) : Bool := isPeer rec && bits rec 57 48 != s.devnum

/-- A context takes up the continuation of a record that stands on another part, whose words are open here: it is discarded where STATE is not
claimed, and else STATE becomes free there (R193). -/
def State.recreateForeign (s : State) (c : CtxId) (e : RingEntry) (rec : Word) : State :=
  let ws := (List.range 24).map fun i => Config.openWord (s.freeCount + i)
  let s := { s with freeCount := s.freeCount + 24 }
  if bits (ws.getD 0 0) 1 0 ≠ 2 then s
  else
    let t := s.recreateFrom c e rec ws (typical c.core (.stack 0))
    { t with out := t.out ++ [Outgoing.recordFree (bits rec 57 48) (bits rec 47 0)] }

/-- DISPATCH_RECREATION (R193): a claimed record is re-created, and a record of KIND 2 to 7 returns to the pool. -/
def execDispatchRecreation (s : State) : Out :=
  match s.arg with
  | .pair core i =>
    match s.dispatchee core i with
    | some (e, ctx) =>
      match e.body with
      | .recreate r =>
        if s.foreign r then
          match ctx with
          | none => .next s
          | some c => .next (if s.stampOk e.job e.gen then (s.dropEntry core i).recreateForeign c e r else s.dropEntry core i)
        else
        match s.recordLoc e.job r with
        | none =>
          .next (match if 3 ≤ bits r 63 61 then s.walkSpoiled e.job (bits r 47 0) else none with
            | some q => (s.dropEntry core i).lose e.job (lossAt ⟨core, 0⟩ 0 r q)
            | none => s.dropEntry core i)
        | some l =>
          if s.read l 1 % 4 ≠ 2 ∨ !s.stampOk e.job e.gen then .next (s.dropEntry core i)
          else
            match ctx with
            | none => .next s
            | some c =>
              let kind := bits (s.rd64 (l + 16)) 62 59
              let t := (s.dropEntry core i).recreate c e r l
              s.unspoiled e.job c r l 192 (.next (if 2 ≤ kind then t.returnEntry e.job r else t))
      | _ => .next s
    | none => .next s
  | _ => .next s

/-- DISPATCH_WAKE (R197): the slot of the wait-table entry is restored with its wake value, and the entry becomes free. A wake that came to an
inbox for an operation of a continuation (R315, R401) is its result. -/
def execDispatchWake (s : State) : Out :=
  match s.arg with
  | .pair core i =>
    match s.dispatchee core i with
    | some (e, ctx) =>
      match e.body with
      | .wake n v =>
        match ctx with
        | none => .next s
        | some c =>
          match mget none (s.core core).waits n with
          | some { parked := false, op, .. } => .next ((s.dropEntry core i).later 0 none .feWake (.wake core n op v))
          | _ =>
          let l := slotLoc core n
          let a := coreAddr core (sysBase + 0x1000 + 192 * n)
          let t := ((s.dropEntry core i).wr64 (l + 56) v).cleanse (l + 56) 8
          t.unspoiled e.job c a l 192 (.next ((t.recreate c e a l).freeWait core n))
      | _ => .next s
    | none => .next s
  | _ => .next s

end Sys2Proof.Machine
end

