-- ==== Sys2Proof/Machine/Feeds.lean ====
section
/-!
DEFINITION. Feeds (R241-R248): what a controller refuses, the order of tiles, dealing, releasing and write-back, faults and their
resumption, and the end of a subscription.
-/
namespace Sys2Proof.Machine

open Sys2Proof

/-! ## The descriptor (R241, R242) -/

/-- Whether a reserved field is set or a field breaks its limit (R241, R242). -/
def Sub.broken (x : Sub) : Bool :=
  bits (x.w 2) 63 59 != 0 || bits (x.w 2) 55 54 != 0 || bit (x.w 2) 51 || bits (x.w 3) 15 14 != 0 || bits (x.w 3) 7 6 != 0
    || bits (x.w 4) 63 56 != 0 || bits (x.w 4) 31 20 != 0 || bits (x.w 5) 63 31 != 0 || bit (x.w 5) 23 || bit (x.w 5) 15
    || x.trows == 0 || x.tcols == 0 || decide (4 < bits (x.w 2) 50 48) || x.base.toNat % x.elem != 0 || x.rstride % x.elem != 0
    || decide (x.rstride < x.tcols * x.elem) || x.tr == 0 || x.tc == 0
    || decide (bits (x.w 3) 31 16 < 1 + (x.tr * x.tc * x.elem + 15) / 16) || decide (64 < x.tb + x.ringSlots) || x.blk == 0
    || x.ring % 16 != 0 || x.rectH == 0 || x.rectW == 0

/-- The cores of the subscriber rectangle by rank (R243): ranked as R181 ranks a job rectangle. -/
def Sub.subscribers (x : Sub) : List Nat :=
  match coreOfField x.corner with
  | none => []
  | some c =>
    let cells := (List.range x.rectH).flatMap fun dy => (List.range x.rectW).map fun dx => (dx, dy)
    let key (p : Nat × Nat) : Nat := interleave 8 p.1 p.2
    let rank (p : Nat × Nat) : Nat := (cells.filter fun q => decide (key q < key p)).length
    (List.range cells.length).filterMap fun r =>
      (cells.find? fun p => rank p == r).map fun p => coreAt (xOf c + p.1) (yOf c + p.2)

/-- Whether the subscriber rectangle leaves the mesh or the job's rectangle (R242). -/
def State.subLeaves (s : State) (x : Sub) : Bool :=
  match coreOfField x.corner with
  | none => true
  | some c =>
    nbits x.corner 14 14 != 1 || decide (Config.meshW < xOf c + x.rectW) || decide (Config.meshH < yOf c + x.rectH)
      || x.subscribers.any fun d => !s.inRect x.job d

/-! ## Tiles (R243) -/

/-- The tiles of a square of side 2^b from a corner on that lie in the grid. -/
def Sub.inSquare (x : Sub) (b r c : Nat) : Nat := min (2 ^ b) (x.gridR - r) * min (2 ^ b) (x.gridC - c)

/-- The tile of rank `i` in a square of side 2^b, in ductus order: the quarters by (tr bit, tc bit). -/
def Sub.ductusTile (x : Sub) : Nat → Nat → Nat → Nat → Nat × Nat
  | 0, r, c, _ => (r, c)
  | b + 1, r, c, i =>
    let h := 2 ^ b
    let n0 := x.inSquare b r c
    let n1 := x.inSquare b r (c + h)
    let n2 := x.inSquare b (r + h) c
    if i < n0 then x.ductusTile b r c i
    else if i < n0 + n1 then x.ductusTile b r (c + h) (i - n0)
    else if i < n0 + n1 + n2 then x.ductusTile b (r + h) c (i - n0 - n1)
    else x.ductusTile b (r + h) (c + h) (i - n0 - n1 - n2)

/-- The row and column of a tile number. -/
def Sub.tileAt (x : Sub) (i : Nat) : Nat × Nat :=
  if x.ductus then x.ductusTile 32 0 0 i else (i / x.gridC, i % x.gridC)

/-- The tile numbered `k` of those dealt to a rank. -/
def Sub.tileOf (x : Sub) (rank k : Nat) : Nat :=
  let m := x.countBelow rank x.first + k
  (m / x.blk * x.parts.length + rank) * x.blk + m % x.blk

/-- The lowest tile that has not been dealt: NEXT. -/
def Sub.nextTile (x : Sub) : Nat :=
  x.parts.zipIdx.foldl (fun m (p, r) => if p.placed < x.dealt r then min m (x.tileOf r p.placed) else m) x.tiles

/-- The elements of a tile that lie inside the tensor: row, column and address (R244). -/
def Sub.cells (x : Sub) (i : Nat) : List (Nat × Nat × Word) :=
  let (tr, tc) := x.tileAt i
  (List.range (min x.tr (x.trows - tr * x.tr))).flatMap fun r =>
    (List.range (min x.tc (x.tcols - tc * x.tc))).map fun c =>
      (r, c, x.base + word ((tr * x.tr + r) * x.rstride + (tc * x.tc + c) * x.elem))

/-- Whether a tile passes the tensor's last row or column (R244). -/
def Sub.edge (x : Sub) (i : Nat) : Bool :=
  let (tr, tc) := x.tileAt i
  decide (x.trows < (tr + 1) * x.tr) || decide (x.tcols < (tc + 1) * x.tc)

/-- The header of a slot (R244). -/
def Sub.header (x : Sub) (rank k i : Nat) : List Word :=
  let (tr, tc) := x.tileAt i
  [word (i + (if x.edge i then 2 ^ 32 else 0) + (if k + 1 = x.dealt rank then 2 ^ 33 else 0)), word (tr * 2 ^ 32 + tc)]

/-! ## Slots and the reservoir (R240, R244) -/

/-- The reservoir of a job's clusters: its first offset. -/
def State.reservoir (s : State) (job : Nat) : Nat := 0x1FDF00 - 4096 * (s.job job).rsvb

/-- Ranges of a cluster's reservoir that are lent. -/
def State.lentRanges (s : State) (k : Nat) : List (Nat × Nat) :=
  s.subs.flatMap fun x => x.parts.flatMap fun p =>
    if clusterOf p.core = k then p.slots.filterMap fun t => t.lent.map fun o => (o, x.slotBytes) else []

/-- The lowest free offset of a reservoir for `n` bytes, from an offset on. -/
def firstFit (used : List (Nat × Nat)) (n : Nat) : Nat → Nat → Option Nat
  | 0, _ => none
  | fuel + 1, o =>
    if 0x1FDF00 < o + n then none
    else
      match used.find? fun u => overlaps u (o, n) with
      | none => some o
      | some u => firstFit used n fuel (u.1 + u.2)

/-- The location of a slot. -/
def Sub.slotLoc (x : Sub) (core : Nat) (t : Placed) : Nat :=
  match t.lent with
  | some o => storeLoc (clusterOf core) o
  | none => poolLoc core (x.ring + x.slotBytes * (t.k % x.ringSlots))

/-- Where tile `k` would go on a subscriber, when it may be placed (R244): an own slot, or a lent one. -/
def State.placeFor (s : State) (x : Sub) (p : Part) : Option (Option Nat) :=
  let k := p.placed
  if p.popped + x.ringSlots ≤ k then none
  else if !(p.slots.any fun t => t.lent.isNone && t.k % x.ringSlots == k % x.ringSlots) then some none
  else if x.lendMax ≤ (p.slots.filter fun t => t.lent.isSome).length then none
  else
    let used := s.lentRanges (clusterOf p.core)
    (firstFit used x.slotBytes (used.length + 1) (s.reservoir x.job)).map some

/-! ## Subscriptions in the state -/

/-- The feed controller that serves a job's address: that of the stack with its first byte (R242). -/
def State.feedOf (s : State) (job : Nat) (a : Word) : Nat := feedUnit (((s.locOf job (bits a 47 0)).map stackOf).getD 0)

/-- Every subscription looks for room in its reservoir again (R244). -/
def State.feedKicks (s : State) : State := s.subs.foldl State.feedKick s

/-- Where the controller writes words 6 and 7 of a descriptor: by the translation that its TLB holds (R328), or by a walk in the step itself, whose
walker is not shown (log entry 121). -/
def State.stateSpots (s : State) (x : Sub) : Except EFault (List Spot × State) :=
  let as := pieceAddrs (x.desc + 48) 8 2
  match s.spotsAt (some (s.feedOf x.job x.desc)) x.core x.job .write 8 as with
  | .error (0, _) => s.spotsAt none x.core x.job .write 8 as
  | r => r

/-- Writes words 6 and 7 of a descriptor (R241); a descriptor that cannot be reached keeps its old words. -/
def State.writeState (s : State) (x : Sub) (state reason next : Nat) (addr : Word) : State :=
  match s.stateSpots x with
  | .error _ => s
  | .ok (ps, s) => s.writeSpots 8 ps (leBytes 8 (state * 2 ^ 62 + reason % 64 * 2 ^ 56 + next % 2 ^ 32) ++ leBytes 8 addr.toNat)

/-- A subscription ends when every tile has been dealt, popped and released (R247), or, once UNSUB has stopped it, when no slot is
held. -/
def Sub.allGone (x : Sub) : Bool :=
  x.parts.zipIdx.all fun (p, r) => p.slots.isEmpty && (x.stopped || (decide (x.dealt r ≤ p.placed) && decide (x.dealt r ≤ p.popped)))

/-- Frees ring tags on a core. -/
def State.freeTags (s : State) (core : Nat) (m : Word) : State :=
  let co := s.core core
  s.setCore core { co with owned := co.owned &&& ~~~m, tags := co.tags &&& ~~~m, tagfault := co.tagfault &&& ~~~m }

/-- The end of a subscription, when it is over (R247). -/
def State.endSub (s : State) (id : Nat) : State :=
  match s.subs.find? fun x => x.id == id with
  | none => s
  | some x =>
    if !x.allGone then s
    else
      let s := s.writeState x 0 0 x.tiles 0
      let s := { s with subs := s.subs.filter fun y => y.id != id }
      let s := x.parts.foldl (fun s p => s.freeTags p.core x.ringTags) s
      let s := x.parts.foldl (fun s p => s.scanTags p.core) s
      (s.setTag x.core x.ct true).feedKicks

/-! ## Starting (R242) -/

/-- Whether the controller refuses a start (R242). -/
def State.subRefused (s : State) (x : Sub) : Bool :=
  x.broken || bits x.base 63 48 != 0x6000 || decide (2 ^ 32 - 1 < x.tiles) || s.subLeaves x ||
    x.subscribers.any fun c =>
      let co := s.core c
      !inSpad co.partword x.ring (x.ringSlots * x.slotBytes) || co.owned &&& x.ringTags != 0 || (s.subOn c x.sn).isSome

/-- The controller's reading of a descriptor (R242), UNCORRECTABLE where it is poisoned, by the walkers of the controller of the descriptor's own first byte, whose choice
only its timing shows. -/
def State.readDesc (s : State) (core job : Nat) (a : Word) : Except EFault (List Word × State) :=
  match s.spotsAt (some (s.feedOf job a)) core job .read 8 (pieceAddrs a 8 8) with
  | .error f => .error f
  | .ok (ps, s) =>
    match s.spoiled 8 ps with
    | some l => .error (cUncorrectable, paddrOf l)
    | none =>
      let (bs, s) := s.readSpots 8 ps
      .ok ((List.range 8).map fun i => word (leNat ((bs.drop (8 * i)).take 8)), s)

/-- What a descriptor that cannot be read does: poison in it loses the job (R358), and else as `other` says. -/
def State.unread (s : State) (job : Nat) (desc : Word) (f : EFault) (other : State) : State :=
  if f.1 = cUncorrectable then s.lose job { engineLoss none desc 0 with paddr := f.2 } else other

/-- A write-back of a tile (R246): every element inside the tensor, one access each. -/
def State.writeBack (s : State) (x : Sub) (core : Nat) (t : Placed) : Work :=
  let cells := x.cells t.tile
  let at' := x.slotLoc core t + 16
  let reads := cells.map fun (r, c, _) => at' + (r * x.tc + c) * x.elem
  match s.spotsAt (some (s.feedOf x.job x.base)) x.core x.job .write x.elem (cells.map fun q => q.2.2) with
  | .error f => .ofFault f .write
  | .ok (ps, s1) =>
    match (if s.poison.isEmpty then none else (reads.filterMap fun l => s1.poisoned l x.elem).head?) with
    | some l => .lost (paddrOf l) l
    | none => .done (s1.writeSpots x.elem ps (reads.flatMap fun l => s1.readBytes l x.elem))

/-- The controller of a subscription waits for a walk. -/
def State.feedMiss (s : State) (x : Sub) (a : Word) (n : Need) : State := s.addMiss (s.feedOf x.job x.base) x.job (bits a 47 0) [n]

/-- A tile has been read or written back: its controller has no more use for what its walks have answered for it. -/
def State.feedForget (s : State) (x : Sub) (tile : Nat) : State :=
  let k := s.feedOf x.job x.base
  let gone := ((x.cells tile).map fun q => regionOf (bits q.2.2 47 0)).eraseDups
  let cl := s.cluster k
  if cl.walked.isEmpty then s
  else s.setCluster k { cl with walked := cl.walked.filter fun w => w.job != x.job || !gone.contains w.region }

/-- A tile read or written back faults (R248): no tile from it on is dealt, STATE becomes faulted, and TAGFAULT bit CT is set. A failed
write-back is recorded with its subscriber. -/
def State.faultSub (s : State) (x : Sub) (i : Nat) (f : EFault) (failed : List Nat) : State :=
  let lim := min i x.limit
  let s := (s.spent (s.feedOf x.job x.base) x.job f.2).setSub { x with faulted := true, limit := lim, failed := x.failed ++ failed }
  (s.writeState x 2 f.1 lim f.2).setTagFault x.core x.ct false

/-- The subscription that a command of a core acts on, where there is one already. -/
def State.subOf (s : State) (core : Nat) (c : Cmd) : Option Sub :=
  match c.kind with
  | .ringrel => s.subOn core (bits (c.words.getD 0 0) 2 0)
  | _ => s.subs.find? fun x => x.core == core && x.desc == absAddr core (c.words.getD 0 0)

/-- The path of a command to the controller that performs it, which takes its commands one at a time, in the order in which they were accepted (R230,
R397): of a start, the controller that word 0 of its descriptor names. -/
def State.feedPath (s : State) (core : Nat) (c : Cmd) : Path :=
  let unit := match s.subOf core c, s.addrLoc core (c.words.getD 0 0) with
    | some x, _ => s.feedOf x.job x.base
    | none, some l => s.feedOf c.job (s.rd64 l)
    | none, none => feedUnit 0
  ⟨planeRequest, 2 ^ 16, unit⟩

/-- The path on which the releases of a subscriber that stand aside behind a failed write-back keep their order (R248). -/
def Sub.releases (x : Sub) (core : Nat) : Path := ⟨planeRequest, core, 2 ^ 22 + x.id⟩

/-- Whether a release of a subscriber must stand aside: a write-back of its failed, or a release stands aside already. The resume that performs the
write-back comes after it, so it does not hold up its controller. -/
def State.standsAside (s : State) (x : Sub) (core : Nat) : Bool :=
  x.failed.contains core || s.agenda.any fun d => d.path == some (x.releases core)

/-- The oldest held tile of a subscriber. -/
def Sub.oldest (x : Sub) (core : Nat) : Option Placed :=
  match x.parts.find? fun p => p.core == core with
  | none => none
  | some p => p.slots.find? (·.popped)

/-- A held tile of a subscriber is freed (R246): its subscription may end, and others may find room. -/
def State.freeTile (s : State) (x : Sub) (core : Nat) (t : Placed) : State :=
  let y := { x with parts := x.parts.map fun p => if p.core = core then { p with slots := p.slots.filter fun u => u.k != t.k } else p }
  ((s.setSub y).feedKicks).endSub y.id

/-- The release of the oldest held tile of a subscriber (R246): with WB, after its write-back, which may wait for a walk or fail. -/
def State.releaseTile (s : State) (x : Sub) (core : Nat) (c : Cmd) (path : Path) (arg : Arg) : State :=
  match x.oldest core with
  | none => s
  | some t =>
    if !bit (c.words.getD 0 0) 8 then s.freeTile x core t
    else
      match s.writeBack x core t with
      | .done s => (s.feedForget x t.tile).freeTile x core t
      | .walks a n => (s.feedMiss x a n).again 1 (some path) .feedRelease arg
      | .fault f => s.faultSub x t.tile f [core]
      | .lost a l => s.lose x.job (engineLoss none a l)

/-- The release with WB that the resume performs for a failed write-back (R248). -/
def Sub.redo (x : Sub) (core : Nat) : Cmd := ⟨.ringrel, ⟨core, 0⟩, x.job, x.gen, [word (x.sn + 2 ^ 8)]⟩

/-- The subscribers after a resume, by the words read last (log entry 115): a core that was one keeps its part, and another begins. -/
def Sub.resumed (x : Sub) : List Part :=
  x.subscribers.map fun d => (x.parts.find? fun p => p.core == d).getD { core := d, placed := 0, popped := 0, slots := [] }

/-- Ring tags are taken on a core, clear (R242). -/
def State.takeTags (s : State) (d : Nat) (m : Word) : State :=
  let co := s.core d
  s.setCore d { co with owned := co.owned ||| m, tags := co.tags &&& ~~~m, tagfault := co.tagfault &&& ~~~m }

/-- A core becomes a subscriber: the ring tags are taken there (R242). -/
def State.takeRing (s : State) (x : Sub) (d : Nat) : State := s.takeTags d x.ringTags

/-- The subscribers of a resume take the place of those before it: those that are new take the ring tags, those that are none any more
give theirs up, and one that stays changes the tags that are no more for those that are new (log entry 115). -/
def State.rejoin (s : State) (x y : Sub) : State :=
  let tags (z : Sub) (c : Nat) : Word := if z.has c then z.ringTags else 0
  let s := x.parts.foldl (fun s p => s.freeTags p.core (x.ringTags &&& ~~~tags y p.core)) s
  y.parts.foldl (fun s p => s.takeTags p.core (y.ringTags &&& ~~~tags x p.core)) s

/-- The failed write-backs of a subscription are performed, each before the releases that wait behind it (R248). -/
def State.redoAll (s : State) (x : Sub) : List Nat → State
  | [] => s
  | c :: cs => (s.again 1 (some (x.releases c)) .feedRelease (.aside (x.redo c))).redoAll x cs

/-- SUBSCRIPTION_START (R242, R248): the controller reads the descriptor, and refuses the subscription, starts it, or resumes it at
NEXT; a resume that cannot read it faults the subscription again at its limit (log entry 51). -/
def execSubscriptionStart (s : State) : Out :=
  match s.arg with
  | .cmd c =>
    let core := c.ctx.core
    let b := c.words.getD 1 0
    let ct := bits b 5 0
    let desc := absAddr core (c.words.getD 0 0)
    let wait (s : State) (a : Word) : State :=
      (s.addMiss (s.feedOf c.job desc) c.job (bits a 47 0) [.read]).again 1 (some (s.feedPath core c)) .subscriptionStart (.cmd c)
    if !s.stampOk c.job c.gen then .next s
    else if bit b 9 then
      match s.subs.find? fun x => x.core == core && x.ct == ct && x.desc == desc with
      | none => .next s
      | some x =>
        match s.readDesc core c.job desc with
        | .error (0, a) => .next (wait s a)
        | .error f => .next (s.unread c.job desc f (s.faultSub x x.limit f []))
        | .ok (ws, s) =>
          let y := { x with words := ws.take 6 ++ x.words.drop 6, faulted := false, failed := [] }
          let y := { y with limit := y.tiles, parts := y.resumed }
          let s := ((s.rejoin x y).setSub y).writeState y 1 0 y.nextTile 0
          .next (((s.redoAll y x.failed).feedKick y).endSub y.id)
    else
      match s.readDesc core c.job desc with
      | .error (0, a) => .next (wait s a)
      | .error f => .next (s.unread c.job desc f (s.setTagFault core ct true))
      | .ok (ws, s) =>
        let x : Sub := { desc := desc, words := ws, core := core, job := c.job, gen := c.gen, ct := ct, first := 0, limit := 0,
                         faulted := false, failed := [], stopped := false, parts := [] }
        if s.subRefused x then
          let (r, s) := s.openWord
          .next ((s.writeState x 3 (bits r 5 0) 0 0).setTagFault core ct true)
        else
          let parts := x.subscribers.map fun d => ({ core := d, placed := 0, popped := 0, slots := [] } : Part)
          let x := { x with parts := parts, first := min (c.words.getD 2 0).toNat x.tiles, limit := x.tiles }
          let s := x.subscribers.foldl (fun s d => s.takeRing x d) s
          let s := { s with subs := s.subs ++ [x] }
          .next (((s.writeState x 1 0 x.first 0).feedKick x).endSub x.id)
  | _ => .next s

/-! ## Dealing (R244) -/

/-- The next subscriber to receive a tile: among those with a place for their next tile below the limit, the one of the lowest tile. -/
def State.nextDeal (s : State) (x : Sub) : Option (Part × Nat × Option Nat) :=
  let ready := x.parts.zipIdx.filterMap fun (p, r) =>
    if p.placed < x.dealt r ∧ x.tileOf r p.placed < x.limit then (s.placeFor x p).map fun w => (p, r, w) else none
  ready.foldl (fun best q =>
    match best with
    | none => some q
    | some b => if x.tileOf q.2.1 q.1.placed < x.tileOf b.2.1 b.1.placed then some q else best) none

/-- Reads a tile and writes it into its slot with its header (R244). -/
def State.fillSlot (s : State) (x : Sub) (core rank : Nat) (t : Placed) : Work :=
  let at' := x.slotLoc core t
  let n := x.tr * x.tc * x.elem
  if x.stores then .done (s.wrWords at' (x.header rank t.k t.tile))
  else
    let cells := x.cells t.tile
    let as := cells.map fun q => q.2.2
    match s.spotsAt (some (s.feedOf x.job x.base)) x.core x.job .read x.elem as with
    | .error f => .ofFault f .read
    | .ok (ps, s) =>
      match s.spoiledOf x.elem as ps with
      | some (a, l) => .lost a l
      | none =>
        let (bs, s) := s.readSpots x.elem ps
        let s := (s.wrWords at' (x.header rank t.k t.tile)).writeBytes (at' + 16) (List.replicate n 0)
        let s := (cells.zip (elements x.elem cells.length bs)).foldl (fun s (q, v) => s.writeBytes (at' + 16 + (q.1 * x.tc + q.2.1) * x.elem) v) s
        .done (s.cleanse at' (16 + n))

/-- FEED_TILE_PLACE (R244, R248, R313): the controller places the next tile for which a subscriber has room, and sets its ring tag; none
while a hold is in force. -/
def execFeedTilePlace (s : State) : Out :=
  match s.arg with
  | .num id =>
    match s.subs.find? fun x => x.id == id with
    | none => .next s
    | some x =>
      if x.stopped || (s.core x.core).held then .next s
      else
        match s.nextDeal x with
        | none => .next s
        | some (p, r, w) =>
          let t : Placed := { k := p.placed, tile := x.tileOf r p.placed, lent := w, popped := false }
          match s.fillSlot x p.core r t with
          | .lost a l => .next (s.lose x.job (engineLoss none a l))
          | .walks a n => .next ((s.feedMiss x a n).later 1 (bulkPath (2 ^ 22 + id)) .feedTilePlace (.num id))
          | .fault f => .next ((s.faultSub x t.tile f []).feedKick x)
          | .done s =>
            let s := s.feedForget x t.tile
            let y := x.setPart { p with placed := p.placed + 1, slots := p.slots ++ [t] }
            let s := s.setSub y
            let s := if y.faulted then s else s.writeState y 1 0 y.nextTile 0
            let s := s.setTag p.core (x.tb + t.k % x.ringSlots) false
            .next (s.later (max 1 (x.slotBytes / 64)) (bulkPath (2 ^ 22 + id)) .feedTilePlace (.num id))
  | _ => .next s

/-- FEED_RELEASE (R246): a RINGREL reaches the controller. It stands aside while a failed write-back of that subscriber is still to be
performed. -/
def execFeedRelease (s : State) : Out :=
  match s.arg with
  | .cmd c =>
    match s.subOf c.ctx.core c with
    | none => .next s
    | some x =>
      if s.standsAside x c.ctx.core then .next (s.later 16 (some (x.releases c.ctx.core)) .feedRelease (.aside c))
      else .next (s.releaseTile x c.ctx.core c (s.feedPath c.ctx.core c) (.cmd c))
  | .aside c =>
    match s.subOf c.ctx.core c with
    | none => .next s
    | some x =>
      if x.failed.contains c.ctx.core then .next (s.again 16 (some (x.releases c.ctx.core)) .feedRelease (.aside c))
      else .next (s.releaseTile x c.ctx.core c (x.releases c.ctx.core) (.aside c))
  | _ => .next s

/-- UNSUB_ARRIVE (R247): dealing stops, ready tiles that have not been popped are discarded with their tags, and the subscription ends once
the held ones are released. -/
def execUnsubArrive (s : State) : Out :=
  match s.arg with
  | .cmd c =>
    let core := c.ctx.core
    match s.subs.find? fun x => x.core == core && x.desc == absAddr core (c.words.getD 0 0) with
    | none => .next s
    | some x =>
      let y := { x with stopped := true, parts := x.parts.map fun p => { p with slots := p.slots.filter (·.popped) } }
      let s := s.setSub y
      let s := x.parts.foldl (fun s p =>
        let gone := (p.slots.filter fun t => !t.popped).foldl (fun m t => m ||| tagBit (x.tb + t.k % x.ringSlots)) 0
        let co := s.core p.core
        (s.setCore p.core { co with tags := co.tags &&& ~~~gone }).scanTags p.core) s
      .next ((s.feedKicks).endSub x.id)
  | _ => .next s

end Sys2Proof.Machine
end

