-- ==== Sys2Proof/Machine/Matrix.lean ====
section
/-!
DEFINITION. The matrix engine of a cluster (R253-R268): its queue, the commands as it performs them, a run with its emit, and a command
that it refuses or that its failure abandons.
-/
namespace Sys2Proof.Machine

open Sys2Proof

/-! ## Words -/

/-- The number of blocks of `n` positions that `k` positions take. -/
def blocksOf (k n : Nat) : Nat := (k + n - 1) / n

/-- nb, N, K, CSTR, BASE and signedness of a registration word (R260). -/
def mxbPlanes (w : Word) : Nat := bits w 59 56 + 1
def mxbCols (w : Word) : Nat := bits w 55 49 + 1
def mxbK (w : Word) : Nat := bits w 48 37 + 1
def mxbStride (w : Word) : Nat := 16 * bits w 36 21
def mxbBase (w : Word) : Nat := bits w 20 0
def mxbSigned (w : Word) : Bool := bit w 60

/-- n, NA, rows, K and signedness of an MXA control word (R261). -/
def mxaPlanes (w : Word) : Nat := bits w 55 52 + 1
def mxaTaken (w : Word) : Nat := bits w 51 49 + 1
def mxaRows (w : Word) : Nat := bits w 48 42 + 1
def mxaK (w : Word) : Nat := bits w 41 32 + 1
def mxaSigned (w : Word) : Bool := bit w 56

/-- The fields of a run word (R263). -/
def runTag (w : Word) : Nat := bits w 63 58
def runSkips (w : Word) : Bool := bit w 56
def runClears (w : Word) : Bool := bit w 55
def runEmits (w : Word) : Bool := bit w 54
def runRows (w : Word) : Nat := bits w 53 47 + 1
def runCols (w : Word) : Nat := bits w 46 40 + 1
def runPa (w : Word) : Nat := bits w 39 37 + 1
def runPb (w : Word) : Nat := bits w 36 33 + 1
def runKa0 (w : Word) : Nat := bits w 32 28
def runKb0 (w : Word) : Nat := bits w 27 21
def runK (w : Word) : Nat := bits w 20 11 + 1
def runEoff (w : Word) : Nat := 16 * bits w 10 0

/-! ## Skip lists (R262) -/

/-- Whether block `b` of a list lies in a Z run; each entry is a pair of Z and L. -/
def skipsBlock : List (Bool × Nat) → Nat → Bool
  | [], _ => false
  | (z, l) :: r, b => if b < l then z else skipsBlock r (b - l)

/-- The entries of the skip list of a cursor, in a core's pool. -/
def State.skipList (s : State) (core : Nat) (cursor : Word) : List (Bool × Nat) :=
  (List.range (bits cursor 59 48)).map fun i =>
    let e := s.read (poolLoc core (bits cursor 19 0 + 2 * i)) 2
    (nbits e 15 15 == 1, nbits e 14 0)

/-- The blocks of a run that are skipped, by block (R264). -/
def State.runSkipped (s : State) (core : Nat) (w cursor : Word) : List Bool :=
  let l := if runSkips w then s.skipList core cursor else []
  (List.range (blocksOf (runK w) 32)).map fun b => skipsBlock l (bits cursor 47 32 + b)

/-! ## The queue (R253, R266) -/

/-- The cycles that a command takes once the engine starts it (R261, R266). -/
def State.mxCycles (s : State) (k : Nat) (c : Cmd) : Nat :=
  let w := c.words.getD 0 0
  let n := match c.kind with
    | .mxa =>
      let per := 16 * mxaTaken w * blocksOf (mxaK w) 128
      let cores := (List.range (mxaRows w)).map fun r => nbits (s.read (storeLoc k (bits (c.words.getD 1 0) 20 0 + 4 * r)) 4) 31 29
      let most := (List.range 8).foldl (fun m i => max m ((cores.filter (· == i)).length * per)) 0
      16 + (most + 63) / 64
    | .mxrun =>
      let nb := ((s.runSkipped c.ctx.core w (c.words.getD 1 0)).filter (!·)).length
      nb * runPa w * runPb w + 16
    | _ => 1
  if (s.cluster k).health = 1 then 2 * n else n

/-- The step that performs a command. -/
def CmdKind.mxStep : CmdKind → Instr
  | .mxmap => .mxmapPerform
  | .mxb => .mxbPerform
  | .mxa => .mxaPerform
  | _ => .mxrunPerform

/-- What the start of a command does to the engine: MXA begins by clearing LV (R261). -/
def Mx.begin (m : Mx) (kind : CmdKind) : Mx := if kind == .mxa then { m with lv := false } else m

/-- The engine takes its next command, when it is idle. -/
def State.mxStart (s : State) (k : Nat) : State :=
  let cl := s.cluster k
  match cl.mxq with
  | [] => s
  | c :: _ =>
    if cl.mxBusy then s
    else (s.setCluster k { cl with mxBusy := true, mx := cl.mx.begin c.kind }).later (s.mxCycles k c) (bulkPath (8192 + k)) c.kind.mxStep (.num k)

/-- Changes the engine's state. -/
def State.setMx (s : State) (k : Nat) (f : Mx → Mx) : State := s.setCluster k { s.cluster k with mx := f (s.cluster k).mx }

/-- Frees the tag of a command with TAGFAULT set (R268). -/
def State.mxFaultTag (s : State) (c : Cmd) : State :=
  match c.kind with
  | .mxa | .mxrun => s.setTagFault c.ctx.core c.tag true
  | _ => s

/-- What the failure of the engine leaves of its state when it abandons a command of a kind: MV, BV or LV stays 0 (R258, R268). -/
def Mx.abandon (m : Mx) (kind : CmdKind) : Mx :=
  match kind with
  | .mxmap => { m with mv := false }
  | .mxb => { m with bv := false }
  | .mxa => { m with lv := false }
  | _ => m

/-- A failed engine abandons a command with UNCORRECTABLE (R268). -/
def State.mxAbandon (s : State) (k : Nat) (c : Cmd) : State :=
  let (a, s) := s.openWord
  (s.setMx k fun m => { m.abandon c.kind with cause := cUncorrectable, faddr := a }).mxFaultTag c

/-- A command enters the engine's queue; a failed engine abandons it. -/
def State.mxEnqueue (s : State) (k : Nat) (c : Cmd) : State :=
  let cl := s.cluster k
  if cl.health = 2 then s.mxAbandon k c else (s.setCluster k { cl with mxq := cl.mxq ++ [c] }).mxStart k

/-- Whether the engine's queue has room. -/
def State.mxRoom (s : State) (k : Nat) : Bool := decide ((s.cluster k).mxq.length < 8)

/-- The command being performed ends. -/
def State.mxEnd (s : State) (k : Nat) : State :=
  let cl := s.cluster k
  (s.setCluster k { cl with mxq := cl.mxq.drop 1, mxBusy := false }).mxStart k

/-- A command that is refused or meets a fault is abandoned (R268). -/
def State.mxRefuse (s : State) (k : Nat) (c : Cmd) (cause : Nat) (addr : Word) : State :=
  ((s.setMx k fun m => { m with cause := cause, faddr := addr }).mxFaultTag c).mxEnd k

/-- The command that the engine performs, when its kind is the one named. -/
def State.mxHead (s : State) (k : Nat) (kind : CmdKind) : Option Cmd :=
  match (s.cluster k).mxq with
  | c :: _ => if (s.cluster k).mxBusy && c.kind == kind then some c else none
  | [] => none

/-- MXMAP_PERFORM (R259): MAP is replaced, and MV set. -/
def execMxmapPerform (s : State) : Out :=
  match s.arg with
  | .num k =>
    match s.mxHead k .mxmap with
    | none => .next s
    | some c => .next ((s.setMx k fun m => { m with map := c.words.drop 1, pitch := bits (c.words.getD 0 0) 5 0, mv := true }).mxEnd k)
  | _ => .next s

/-- MXB_PERFORM (R260): the word is stored as BREG without its weak bit, and BV set. -/
def execMxbPerform (s : State) : Out :=
  match s.arg with
  | .num k =>
    match s.mxHead k .mxb with
    | none => .next s
    | some c => .next ((s.setMx k fun m => { m with breg := setBits (c.words.getD 0 0) 63 63 0, bv := true }).mxEnd k)
  | _ => .next s

/-! ## MXA (R261) -/

/-- The planes of a row of `n` planes at a location: the top `take`, most significant first, each a number whose bit k is element k. -/
def State.planesAt (s : State) (loc n take k : Nat) : List Nat :=
  (List.range take).map fun p =>
    ((List.range (blocksOf k 128)).foldl (fun acc b => acc + s.read (loc + 16 * n * b + 16 * p) 16 * 2 ^ (128 * b)) 0) % 2 ^ k

/-- The pieces that such a read takes. -/
def planePieces (loc n take k : Nat) : List Nat :=
  (List.range take).flatMap fun p => (List.range (blocksOf k 128)).map fun b => loc + 16 * n * b + 16 * p

/-- The first poisoned word among pieces of `n` bytes. -/
def State.spoiledAt (s : State) (n : Nat) (ls : List Nat) : Option Nat :=
  if s.poison.isEmpty then none else (ls.filterMap fun l => s.poisoned l n).head?

/-- What gathering the rows of A ends in. -/
inductive Rows where
  | ok (rows : List (List Nat))
  | bad (cause : Nat) (addr : Word)
  | lost (addr : Word) (loc : Nat)
deriving DecidableEq, Repr

/-- The CLUSTER address of an offset in a cluster's store. -/
def storeAddr (k off : Nat) : Word := paddrOf (storeLoc k off)

/-- The latch rows from row `r` on, `n` of them, in index order. -/
def State.gatherRows (s : State) (k : Nat) (w : Word) (list r : Nat) : Nat → Rows
  | 0 => .ok []
  | n + 1 =>
    let at' := storeLoc k (list + 4 * r)
    match s.poisoned at' 4 with
    | some l => .lost (storeAddr k (list + 4 * r)) l
    | none =>
      let e := s.read at' 4
      let core := (clusterCores k).getD (nbits e 31 29) 0
      let off := nbits e 19 0
      let bytes := 16 * mxaPlanes w * blocksOf (mxaK w) 128
      if nbits e 28 20 ≠ 0 ∨ off % 16 ≠ 0 then .bad cBounds (storeAddr k (list + 4 * r))
      else if !inSpad (s.core core).partword off bytes then .bad cProtect (coreAddr core off)
      else
        match s.spoiledAt 16 (planePieces (poolLoc core off) (mxaPlanes w) (mxaTaken w) (mxaK w)) with
        | some l => .lost (coreAddr core off) l
        | none =>
          match s.gatherRows k w list (r + 1) n with
          | .ok rs => .ok (s.planesAt (poolLoc core off) (mxaPlanes w) (mxaTaken w) (mxaK w) :: rs)
          | x => x

/-- A matrix command consumes poisoned data: it is abandoned with UNCORRECTABLE, and the job is lost (R262, R268, R362). -/
def State.mxLose (s : State) (k : Nat) (c : Cmd) (a : Word) (l : Nat) : State :=
  ((s.mxRefuse k c cUncorrectable a)).lose c.job (engineLoss none a l)

/-- MXA_PERFORM (R261, R268). -/
def execMxaPerform (s : State) : Out :=
  match s.arg with
  | .num k =>
    match s.mxHead k .mxa with
    | none => .next s
    | some c =>
      let w := c.words.getD 0 0
      let s := s.setMx k fun m => { m with lv := false }
      match s.gatherRows k w (bits (c.words.getD 1 0) 20 0) 0 (mxaRows w) with
      | .bad cause a => .next (s.mxRefuse k c cause a)
      | .lost a l => .next (s.mxLose k c a l)
      | .ok rows =>
        let s := s.setMx k fun m => { m with latch := rows, lctl := word (bits w 56 32 * 2 ^ 32), lv := true }
        .next ((s.setTag c.ctx.core (runTag w) true).mxEnd k)
  | _ => .next s

/-! ## Runs (R264-R267) -/

/-- The weight of plane `p` of a prefix of `n` planes (R83). -/
def planeWeight (signed : Bool) (n p : Nat) : Int :=
  if p = 0 ∧ signed then -(2 ^ (n - 1) : Int) else (2 ^ (n - 1 - p) : Int)

/-- The sum of products of two prefixes over the positions of a mask (R254). -/
def planeDot (sa sb : Bool) (mask : Nat) (as bs : List Nat) : Int :=
  (as.zipIdx.map fun (a, p) =>
    (bs.zipIdx.map fun (b, q) =>
      planeWeight sa as.length p * planeWeight sb bs.length q * (popN 1024 (a &&& b &&& mask) : Int)).foldl (· + ·) 0).foldl (· + ·) 0

/-- A number with ones at the positions of the blocks that are not skipped. -/
def blockMask (kl : Nat) : Nat → List Bool → Nat
  | _, [] => 0
  | b, z :: zs => (if z then 0 else (2 ^ min 32 (kl - 32 * b) - 1) * 2 ^ (32 * b)) + blockMask kl (b + 1) zs

/-- A row of the latch as a run reads it: its top planes from K block KA0 on; a row past the latch's rows is 0. -/
def Mx.rowFor (m : Mx) (w : Word) (i : Nat) : List Nat :=
  ((m.latch.getD i []).take (runPa w)).map fun p => p / 2 ^ (32 * runKa0 w)

/-- A column of B as a run reads it (R257). -/
def State.columnFor (s : State) (k : Nat) (breg w : Word) (j : Nat) : List Nat :=
  if mxbCols breg ≤ j then []
  else
    (s.planesAt (storeLoc k (mxbBase breg + mxbStride breg * j)) (mxbPlanes breg) (runPb w) (mxbK breg)).map fun p =>
      p / 2 ^ (32 * runKb0 w)

/-- A sum in 32 bits, saturated, with whether it was (R264). -/
def saturate32 (v : Int) : BitVec 32 × Bool :=
  if v > 2 ^ 31 - 1 then (BitVec.ofNat 32 (2 ^ 31 - 1), true)
  else if v < -(2 ^ 31) then (BitVec.ofNat 32 (2 ^ 31), true)
  else (BitVec.ofInt 32 v, false)

/-- The sums after the run, row by row, and whether one saturated. -/
def accumulate (m : Mx) (w : Word) (mask : Nat) (cols : List (List Nat)) (acc : Map (BitVec 32)) : Map (BitVec 32) × Bool :=
  (List.range (runRows w)).foldl (fun st i =>
    let row := m.rowFor w i
    cols.zipIdx.foldl (fun (acc, sat) (col, j) =>
      let old : BitVec 32 := mget 0 acc (128 * i + j)
      let (v, z) := saturate32 (old.toInt + planeDot (mxaSigned m.lctl) (mxbSigned m.breg) mask row col)
      (mset 0 acc (128 * i + j) v, sat || z)) st) (acc, false)

/-- The fields of a map entry (R259). -/
def mapCore (e : Word) : Nat := bits e 63 61
def mapFirst (e : Word) : Nat := bits e 60 54
def mapCount (e : Word) : Nat := bits e 53 46
def mapArr (e : Word) : Nat := bits e 45 44
def mapTag (e : Word) : Nat := bits e 43 38
def mapOff (e : Word) : Nat := bits e 19 0

/-- The rows that a run writes by a map entry. -/
def mapRows (e : Word) (m : Nat) : Nat := min (mapCount e) (m - mapFirst e)

/-- Whether a run with EMIT would write a row past the accumulator area (R264). -/
def emitPasses (w : BitVec 32) (run : Word) (pitch : Nat) (map : List Word) : Bool :=
  map.any fun e =>
    let n := mapRows e (runRows run)
    n != 0 && decide (partAcc w * 4096 < mapOff e + runEoff run + (n - 1) * 16 * pitch + 4 * runCols run)

/-- Writes one row of sums at a location, 4 bytes each (R265). -/
def State.emitRow (s : State) (loc : Nat) (acc : Map (BitVec 32)) (i n : Nat) : State :=
  (List.range n).foldl (fun s j => s.write (loc + 4 * j) 4 (mget (0 : BitVec 32) acc (128 * i + j)).toNat) s

/-- The arrival of a map entry (R265): a tag, or a job message whose sender is the issuing core. -/
def State.emitArrival (s : State) (from' target : Nat) (e run : Word) (at' n : Nat) : State :=
  match mapArr e with
  | 1 => s.setTag target (mapTag e) false
  | 2 =>
    s.later 1 (some ⟨planeMessage, from', target⟩) .messageArrive
      (.msg { job := s.jobOf target, gen := (s.core target).gen, src := from', target := target,
              body := .start (mapTag e) 3 [word at', word (n * 256 + mapFirst e), run], op := none, via := from' })
  | _ => s

/-- The core to which a map entry sends its rows, and the offset of the first in its pool (R265). -/
def State.emitTo (s : State) (k : Nat) (run e : Word) : Nat × Nat :=
  let target := (clusterCores k).getD (mapCore e) 0
  (target, (partSys (s.core target).partword + 1) * 4096 + mapOff e + runEoff run)

/-- The first poisoned word that the emit of a run merges into with a write of 4 bytes (R358): the run is abandoned then (R268). -/
def State.emitSpoiled (s : State) (k : Nat) (run : Word) : Option Nat :=
  if s.poison.isEmpty || !runEmits run then none
  else
    let m := (s.cluster k).mx
    let pieces := m.map.flatMap fun e =>
      let (target, base) := s.emitTo k run e
      (List.range (mapRows e (runRows run))).flatMap fun r => (List.range (runCols run)).map fun j => poolLoc target (base + r * 16 * m.pitch) + 4 * j
    s.spoiledAt 4 pieces

/-- The emit of a run, entry by entry (R265). -/
def State.emit (s : State) (k from' : Nat) (run : Word) : State :=
  let m := (s.cluster k).mx
  m.map.foldl (fun s e =>
    if mapCount e = 0 then s
    else
      let (target, base) := s.emitTo k run e
      let n := mapRows e (runRows run)
      let s := (List.range n).foldl (fun s r => s.emitRow (poolLoc target (base + r * 16 * m.pitch)) m.accum (mapFirst e + r) (runCols run)) s
      s.emitArrival from' target e run base n) s

/-- Whether the engine refuses a run with BOUNDS (R264). -/
def State.runRefused (s : State) (k : Nat) (w : Word) : Bool :=
  let m := (s.cluster k).mx
  let part := (s.core ((clusterCores k).getD 0 0)).partword
  !m.lv || !m.bv || (runEmits w && !m.mv) || decide (mxaTaken m.lctl < runPa w) || decide (mxbPlanes m.breg < runPb w)
    || (runEmits w && (decide (16 * m.pitch < 4 * runCols w) || emitPasses part w m.pitch m.map))

/-- How many entries of a skip list the walk to block `b` reads (R262). -/
def entriesTo : List (Bool × Nat) → Nat → Nat
  | [], _ => 0
  | (_, l) :: r, b => if b < l then 1 else 1 + entriesTo r (b - l)

/-- The K blocks of B that a run reads (R264): those that are not skipped and begin below the registered K. -/
def State.runBlocks (s : State) (core : Nat) (breg w cursor : Word) : List Nat :=
  (s.runSkipped core w cursor).zipIdx.filterMap fun (z, i) =>
    if z || decide (mxbK breg ≤ 32 * (runKb0 w + i)) then none else some (runKb0 w + i)

/-- The pieces of B that a run reads (R254, R257): of each K block, the four bytes of each plane of each registered column. -/
def State.runPieces (s : State) (k : Nat) (c : Cmd) : List Nat :=
  let w := c.words.getD 0 0
  let b := (s.cluster k).mx.breg
  let blocks := s.runBlocks c.ctx.core b w (c.words.getD 1 0)
  (List.range (min (runCols w) (mxbCols b))).flatMap fun j => blocks.flatMap fun q => (List.range (runPb w)).map fun p =>
    storeLoc k (mxbBase b + mxbStride b * j) + 16 * mxbPlanes b * (q / 4) + 16 * p + 4 * (q % 4)

/-- The first poisoned word that a run consumes: in the entries of its skip list that it reads, or in B (R358, R262). -/
def State.runSpoiled (s : State) (k : Nat) (c : Cmd) : Option Nat :=
  if s.poison.isEmpty then none
  else
    let w := c.words.getD 0 0
    let cur := c.words.getD 1 0
    let last := bits cur 47 32 + blocksOf (runK w) 32 - 1
    let skip := if runSkips w then s.poisoned (poolLoc c.ctx.core (bits cur 19 0)) (2 * entriesTo (s.skipList c.ctx.core cur) last) else none
    skip.orElse fun _ => s.spoiledAt 4 (s.runPieces k c)

/-- MXRUN_PERFORM (R264-R268). -/
def execMxrunPerform (s : State) : Out :=
  match s.arg with
  | .num k =>
    match s.mxHead k .mxrun with
    | none => .next s
    | some c =>
      let w := c.words.getD 0 0
      if s.runRefused k w then
        let (a, s) := s.openWord
        .next (s.mxRefuse k c cBounds a)
      else
        match (s.runSpoiled k c).orElse fun _ => s.emitSpoiled k w with
        | some l => .next (s.mxLose k c (paddrOf (8 * (l / 8))) l)
        | none =>
          let m := (s.cluster k).mx
          let mask := blockMask (runK w) 0 (s.runSkipped c.ctx.core w (c.words.getD 1 0))
          let cols := (List.range (runCols w)).map (s.columnFor k m.breg w)
          let (acc, sat) := accumulate m w mask cols (if runClears w then [] else m.accum)
          let s := s.setMx k fun m => { m with accum := acc, sat := m.sat || sat }
          let s := if runEmits w then s.emit k c.ctx.core w else s
          let s := s.setMx k fun m => { m with runs := m.runs + 1 }
          let co := s.core c.ctx.core
          let s := if sat then s.setCore c.ctx.core { co with satTags := co.satTags ||| tagBit (runTag w) } else s
          .next ((s.setTag c.ctx.core (runTag w) true).mxEnd k)
  | _ => .next s

/-- MX_ENGINE_FAIL (R268, R361): MXHEALTH.STATE becomes 2; the command in progress and every queued one are abandoned with
UNCORRECTABLE. -/
def execMxEngineFail (s : State) : Out :=
  match s.arg with
  | .num k =>
    let cl := s.cluster k
    let s := cl.mxq.foldl (fun s c => s.mxAbandon k c) (s.setCluster k { cl with health := 2, mxq := [], mxBusy := false })
    let s := s.retireUnit 2 cUncorrectable k
    let dead (d : Due) : Bool := match d.what, d.arg with
      | .mxmapPerform, .num j => j == k
      | .mxbPerform, .num j => j == k
      | .mxaPerform, .num j => j == k
      | .mxrunPerform, .num j => j == k
      | _, _ => false
    .next { s with agenda := s.agenda.filter fun d => !dead d }
  | _ => .next s

/-- The cluster that a capability names (R273). -/
def capTarget (cap : Word) : Nat := 12 * bits cap 4 0 + bits cap 8 5

end Sys2Proof.Machine
end

