-- ==== Sys2Proof/Machine/Engines.lean ====
section
/-!
DEFINITION. Engine commands (R230, R231): their issue, the command queue, and the instructions of copies, feeds, tags and the gather
engine (R233-R252).
-/
namespace Sys2Proof.Machine

open Sys2Proof

/-! ## The command queue (R230) -/

/-- Whether a body is an engine command. -/
def OpBody.isCommand : OpBody → Bool
  | .command _ => true
  | _ => false

/-- The commands in the queue of a core, oldest first. -/
def State.commands (s : State) (core : Nat) : List Op := s.ops.filter fun o => o.ctx.core == core && o.body.isCommand

/-- The scope of a command's release: DOM when an address of it lies in the PEER space (R230). -/
def commandScope (addrs : List Word) : FScope := if addrs.any isPeer then .dom else .dev

/-- Whether the tag that a command names is owned, as a trap with the register that holds it (R231). -/
def State.tagOwned (s : State) (core : Nat) (tag : Option (Nat × Word)) : Option Trap :=
  match tag with
  | some (t, w) => if bit (s.core core).owned t then some (exact cBounds w 0) else none
  | none => none

/-- Issues a command that has passed its checks (R230, R231): an owned tag traps; a full queue holds the context; otherwise the tag is
taken and the command enters the queue. `go` changes the context as it goes on. -/
def State.command (s : State) (c : CtxId) (w : IWord) (kind : CmdKind) (words addrs : List Word) (weak : Bool) (tag : Option (Nat × Word))
    (go : Ctx → Ctx := id) : Except Trap State :=
  match s.tagOwned c.core tag with
  | some t => .error t
  | none =>
    let q := s.commands c.core
    if 2 ≤ q.length then .ok (s.setCtx c { s.ctx c with st := .stalled })
    else
      let s := match tag with
        | some (t, w) => match s.takeTag c.core t w with
          | .ok s => s
          | .error _ => s
        | none => s
      let cmd : Cmd := { kind := kind, ctx := c, job := s.jobOf c.core, gen := (s.core c.core).gen, words := words }
      let o := { s.newOp c w 0 (.command cmd) none with ord := if weak then .plain else .release, scope := commandScope addrs }
      let s := s.addOp o
      let s := if q.isEmpty then s.later 1 none .engineCommandLeave (.num c.core) else s
      .ok (s.retire c fun x => if weak then go x else { go x with region := x.region + 1 })

/-- Whether the engine of a command accepts another (R230, R238, R253). -/
def State.engineRoom (s : State) (core : Nat) (c : Cmd) : Bool :=
  match c.kind with
  | .copy => decide ((s.core core).copyq.length < 4) && s.pauseRoom core
  | .gather | .scatter => decide ((s.cluster (clusterOf core)).gatherq.length < 8) && s.pauseRoom core
  | .mxmap | .mxa | .mxb | .mxrun => s.mxRoom (clusterOf core)
  | _ => true

/-- The engine accepts a command (R230). -/
def State.engineAccept (s : State) (core : Nat) (c : Cmd) : State :=
  let k := clusterOf core
  let path : Option Path := some (s.feedPath core c)
  let at' := (c.words.getD 3 0).toNat
  match c.kind with
  | .copy =>
    let co := s.core core
    let s := s.setCore core { co with copyq := co.copyq ++ [(c, at')] }
    if co.copyq.isEmpty then s.later 1 (bulkPath core) .copyChunk (.num core) else s
  | .gather | .scatter =>
    let cl := s.cluster k
    let s := s.setCluster k { cl with gatherq := cl.gatherq ++ [(c, at')] }
    if cl.gatherq.isEmpty then (s.setWindow k c.saved).later 1 (bulkPath (4096 + k)) .gatherWindow (.num k) else s
  | .subscribe => s.later 90 path .subscriptionStart (.cmd c)
  | .unsub => s.later 90 path .unsubArrive (.cmd c)
  | .ringrel => s.later 90 path .feedRelease (.cmd c)
  | _ => s.mxEnqueue k c

/-- ENGINE_COMMAND_LEAVE (R230): the oldest command leaves once its release, where it makes one, is met and its engine has room; contexts that the
full queue held try again (R27). -/
def execEngineCommandLeave (s : State) : Out :=
  match s.arg with
  | .num core =>
    match s.commands core with
    | [] => .next s
    | o :: rest =>
      match o.body with
      | .command c =>
        let again (s : State) : State := s.later 1 none .engineCommandLeave (.num core)
        if o.releases && (s.held o || !s.mayRelease o) then .next (again s)
        else if o.releases && s.marksLeft o then .next (again (s.later 0 none .markClear (.num o.id)))
        else if !s.engineRoom core c then .next (again s)
        else
          let s := ((s.dropOp o.id).unstall core).engineAccept core c
          .next (if rest.isEmpty then s else again s)
      | _ => .next s
  | _ => .next s

/-! ## COPY and COPYR (R237, R239) -/

/-- Whether a range of a pool or a store passes its end (R237). -/
def passesEnd (a : Word) (n : Nat) : Bool :=
  match bits a 63 61 with
  | 0 | 1 => decide (Config.poolBytes < bits a 19 0 + n)
  | 2 => decide (Config.storeBytes < bits a 20 0 + n)
  | _ => false

/-- COPY (R237). -/
def execCopy (o : KABD) (s : State) : Out :=
  s.issue ⟨o.s, none, [gr o.a, gr o.b, gr o.d]⟩ fun s c =>
    let x := s.ctx c
    let w := x.getG o.d.toNat
    let src := x.getG o.a.toNat
    let dst := x.getG o.b.toNat
    let n := bits w 31 0
    if bits w 63 41 ≠ 0 ∨ bits w 39 38 ≠ 0 then .error (exact cBounds w 0)
    else if src.toNat % 8 ≠ 0 then .error (exact cMisalign src 0)
    else if dst.toNat % 8 ≠ 0 then .error (exact cMisalign dst 0)
    else if n % 8 ≠ 0 then .error (exact cBounds w 0)
    else
      match s.place c.core src, s.place c.core dst with
      | .error t, _ => .error t
      | _, .error t => .error t
      | .ok _, .ok _ =>
        if passesEnd src n || passesEnd dst n then .error (exact cBounds w 0)
        else s.command c (firstWord (.copy o)) .copy [src, dst, w] [src, dst] (bit w 40) (some (bits w 37 32, w))

/-- The kind of paused work that COPYR reports (R239). -/
def CmdKind.pausedCode : CmdKind → Nat
  | .copy => 0
  | .gather => 1
  | _ => 2

/-- COPYR (R239). -/
def execCopyr (o : KAD) (s : State) : Out :=
  s.issue ⟨o.s, none, [gr o.a, gr o.d]⟩ fun s c =>
    let a := (s.ctx c).getG o.a.toNat
    let t := bits a 5 0
    let put (v : Word) (x : Ctx) : Ctx := x.setG o.d.toNat v
    if bits a 63 10 ≠ 0 ∨ bits a 7 6 ≠ 0 then .error (exact cBounds a 0)
    else
      let co := s.core c.core
      match co.paused.find? fun p => p.cmd.tag == t with
      | none => .ok (s.retire c (put (wordI (-1))))
      | some p =>
        let rest := co.paused.filter fun q => q.cmd.tag != t
        match bits a 9 8 with
        | 0 => .ok (s.retire c (put p.addr))
        | 1 => .ok (s.retire c (put (word (p.cause * 2 ^ 56 + p.cmd.kind.pausedCode * 2 ^ 48 + p.done))))
        | 2 =>
          if 2 ≤ (s.commands c.core).length then .ok (s.setCtx c { s.ctx c with st := .stalled })
          else
            let s := (s.setCore c.core { co with paused := rest }).dropTag c.core t false
            let words := p.cmd.words.take 3 ++ word p.done :: p.cmd.saved
            s.command c (firstWord (.copyr o)) p.cmd.kind words (p.cmd.words.take 2) false none (put 0)
        | _ =>
          let s := (s.setCore c.core { co with paused := rest }).dropTag c.core t true
          .ok (s.retire c (put 0))

/-! ## Tags (R233-R235) -/

/-- The result of WAITANY and WAITALL, once they complete (R233). -/
def waitResult (all : Bool) (ready mask : Word) : Option Word :=
  let r := ready &&& mask
  if all then (if r = mask then some r else none)
  else if r ≠ 0 ∨ mask = 0 then some r else none

/-- A saturated tag in a result sets MXSAT (R267). -/
def Ctx.seeSat (x : Ctx) (co : Core) (r : Word) : Ctx := if r &&& co.satTags = 0 then x else { x with mxsat := true }

/-- The test of a tag wait, with the recording of the waiter when it parks, in one step (R234): KIND 6. The thread is at a blocking point while
it waits, once its rewrite list is empty and its journal settled (R306). A continuation records the loop step of a wait at LOOPEND (R76), and
a trap taken meanwhile stands before the instruction, with the step not made (log entry 72). -/
def State.tagTest (s : State) (c : CtxId) (all : Bool) (mask : Word) (d deadline : Nat) : State :=
  let x := s.ctx c
  let co := s.core c.core
  match waitResult all co.ready mask with
  | some r => s.setCtx c ((({ x with busy := .idle }.seeSat co r).setG d r).advance 1)
  | none =>
    let waiting := s.setCtx c { x.reachOnce s.cycle (s.canBlock c) with busy := .tagWait all mask d deadline }
    if s.cycle < deadline && !co.held || !s.mayBlock c then waiting
    else
      let y := { x with busy := .idle }.advance 1
      match (s.setCtx c y).intoPool c 6 y.pc d true with
      | none => waiting.poolFails c
      | some (e, s) =>
        let co := s.core c.core
        s.setCore c.core { co with tagWaiters := co.tagWaiters ++ [⟨e, mask, all, none⟩] }

/-- WAITANY and WAITALL (R233, R234). -/
def formTagWait (o : KAD) (all : Bool) (s : State) : Out :=
  s.issue ⟨true, none, [gr o.a, gr o.d]⟩ fun s c =>
    let x := s.ctx c
    .ok (s.tagTest c all (x.getG o.a.toNat) o.d.toNat (s.cycle + x.feretry.toNat * ctxCount (s.core c.core).partword))

/-- WAITANY. -/
def execWaitany (o : KAD) (s : State) : Out := formTagWait o false s

/-- WAITALL. -/
def execWaitall (o : KAD) (s : State) : Out := formTagWait o true s

/-- TAGFF (R235, R267). -/
def execTagff (o : KAD) (s : State) : Out :=
  s.issue ⟨o.s, none, [gr o.a, gr o.d]⟩ fun s c =>
    let co := s.core c.core
    let r := co.ready &&& (s.ctx c).getG o.a.toNat
    match (List.range 64).find? fun t => bit r t with
    | some t => .ok (s.retire c fun x => (x.seeSat co (tagBit t)).setG o.d.toNat (word t))
    | none => .ok (s.retire c fun x => x.setG o.d.toNat 64)

/-- TAGCLR (R235). -/
def execTagclr (o : KA) (s : State) : Out :=
  s.issue ⟨o.s, none, [gr o.a]⟩ fun s c => .ok ((s.clearTags c.core ((s.ctx c).getG o.a.toNat)).retire c id)

/-! ## Feeds (R242-R247) -/

/-- The subscriptions of a core, with the starts that have not reached the controller. -/
def State.subsOf (s : State) (core : Nat) : Nat :=
  let starts (b : OpBody) : Bool := match b with
    | .command c => c.kind == .subscribe && !bit (c.words.getD 1 0) 9
    | _ => false
  let coming (d : Due) : Bool := match d.arg with
    | .cmd c => d.what == .subscriptionStart && c.ctx.core == core && !bit (c.words.getD 1 0) 9
    | _ => false
  (s.subs.filter fun x => x.core == core).length + ((s.commands core).filter fun o => starts o.body).length
    + (s.agenda.filter coming).length

/-- SUBSCRIBE (R242). -/
def execSubscribe (o : KABD) (s : State) : Out :=
  s.issue ⟨o.s, none, [gr o.a, gr o.b, gr o.d]⟩ fun s c =>
    let x := s.ctx c
    let a := x.getG o.a.toNat
    let b := x.getG o.b.toNat
    let ct := bits b 5 0
    if bits b 63 10 ≠ 0 ∨ bits b 7 6 ≠ 0 then .error (exact cBounds b 0)
    else
      match s.checkThen c.core a 64 64 with
      | some t => .error t
      | none =>
          let go (s : State) (tag : Option (Nat × Word)) : Except Trap State :=
            s.command c (firstWord (.subscribe o)) .subscribe [a, b, x.getG o.d.toNat] [a] (bit b 8) tag
          if !bit b 9 then
            if 8 ≤ s.subsOf c.core then .error (exact cBounds b 0) else go s (some (ct, b))
          else
            let mine := s.subs.any fun y => y.core == c.core && y.ct == ct && y.desc == absAddr c.core a
            if !mine || !bit (s.core c.core).tagfault ct then .error (exact cBounds b 0)
            else if 2 ≤ (s.commands c.core).length then go s none
            else go (s.dropTag c.core ct false) none

/-- UNSUB (R247). -/
def execUnsub (o : KA) (s : State) : Out :=
  s.issue ⟨o.s, none, [gr o.a]⟩ fun s c =>
    let a := (s.ctx c).getG o.a.toNat
    if !(s.subs.any fun y => y.core == c.core && y.desc == absAddr c.core a) then .error (exact cBounds a 0)
    else s.command c (firstWord (.unsub o)) .unsub [a] [a] false none

/-- The releases of a subscription number of a core that have not reached the controller, or whose write-back failed and is still to be
performed. -/
def State.releasesComing (s : State) (core sn : Nat) : Nat :=
  let rel (b : OpBody) : Bool := match b with
    | .command c => c.kind == .ringrel && bits (c.words.getD 0 0) 2 0 == sn
    | _ => false
  let coming (d : Due) : Bool := match d.arg with
    | .cmd c | .aside c => d.what == .feedRelease && c.ctx.core == core && bits (c.words.getD 0 0) 2 0 == sn
    | _ => false
  let failed := match s.subOn core sn with
    | some x => (x.failed.filter fun p => p == core).length
    | none => 0
  ((s.commands core).filter fun o => rel o.body).length + (s.agenda.filter coming).length + failed

/-- RINGREL (R246): a tile that an earlier RINGREL will release is held no more. -/
def execRingrel (o : KA) (s : State) : Out :=
  s.issue ⟨o.s, none, [gr o.a]⟩ fun s c =>
    let a := (s.ctx c).getG o.a.toNat
    let sn := bits a 2 0
    let heldTiles := match s.subOn c.core sn with
      | none => 0
      | some y => ((y.parts.filter fun p => p.core == c.core).flatMap fun p => p.slots.filter (·.popped)).length
    if bits a 63 10 ≠ 0 ∨ bits a 7 3 ≠ 0 ∨ heldTiles ≤ s.releasesComing c.core sn then .error (exact cBounds a 0)
    else s.command c (firstWord (.ringrel o)) .ringrel [a] [] (bit a 9) none

/-- The test of RINGPOP (R245), parking as KIND 4; its blocking point and its loop step are those of a tag wait (R76, R306). -/
def State.ringTest (s : State) (c : CtxId) (sn d deadline : Nat) : State :=
  let x := s.ctx c
  let co := s.core c.core
  match s.pop c.core sn with
  | some (v, s) => s.setCtx c (({ x with busy := .idle }.setG d v).advance 1)
  | none =>
    let waiting := s.setCtx c { x.reachOnce s.cycle (s.canBlock c) with busy := .ringWait sn d deadline }
    if s.cycle < deadline && !co.held || !s.mayBlock c then waiting
    else
      let y := { x with busy := .idle }.advance 1
      match (s.setCtx c y).intoPool c 4 y.pc d true with
      | none => waiting.poolFails c
      | some (e, s) =>
        let co := s.core c.core
        s.setCore c.core { co with tagWaiters := co.tagWaiters ++ [⟨e, 0, false, some sn⟩] }

/-- RINGPOP (R245). -/
def execRingpop (o : KAD) (s : State) : Out :=
  s.issue ⟨true, none, [gr o.a, gr o.d]⟩ fun s c =>
    let x := s.ctx c
    let a := x.getG o.a.toNat
    if bits a 63 3 ≠ 0 then .error (exact cBounds a 0)
    else
      let sn := bits a 2 0
      .ok (s.ringTest c sn o.d.toNat (s.cycle + x.feretry.toNat * ctxCount (s.core c.core).partword))

/-- TAG_WAIT_RETEST (R234, R245): the core tests the condition of a waiting thread again in its slot. -/
def execTagWaitRetest (s : State) : Out :=
  match s.arg with
  | .ctx c =>
    match (s.ctx c).busy with
    | .tagWait all mask d deadline => .next (s.tagTest c all mask d deadline)
    | .ringWait sn d deadline => .next (s.ringTest c sn d deadline)
    | _ => .next s
  | _ => .next s

/-! ## GATHER and SCATTER (R249) -/

/-- The checks and the issue of GATHER and SCATTER. -/
def formGather (o : KABD) (kind : CmdKind) (w : IWord) (s : State) : Out :=
  s.issue ⟨o.s, none, [gr o.a, gr o.b, gr o.d]⟩ fun s c =>
    let x := s.ctx c
    let d := x.getG o.d.toNat
    let a := x.getG o.a.toNat
    let b := x.getG o.b.toNat
    if bits d 63 54 ≠ 0 ∨ (kind = .gather ∧ bits d 53 52 ≠ 0) then .error (exact cBounds d 0)
    else if gatherOff d % 4 ≠ 0 then .error (exact cMisalign d 0)
    else if s.reservoir (s.jobOf c.core) < gatherOff d + gatherCount d * gatherBytes d then .error (exact cBounds d 0)
    else
      match s.checkThen c.core a (gatherIndexBytes d) (gatherIndexBytes d) with
      | some t => .error t
      | none =>
        if b.toNat % 4 ≠ 0 then .error (exact cMisalign b 0)
        else s.command c w kind [a, b, d] [a, b] (bit d 51) (some (bits d 50 45, d))

/-- GATHER. -/
def execGather (o : KABD) (s : State) : Out := formGather o .gather (firstWord (.gather o)) s

/-- SCATTER. -/
def execScatter (o : KABD) (s : State) : Out := formGather o .scatter (firstWord (.scatter o)) s

end Sys2Proof.Machine
end

