-- ==== Sys2Proof/Machine/Keccak.lean ====
section
/-!
DEFINITION. SHA3-256, which the manual names for capabilities (R273), code pages (R379), checkpoints (R356) and measurements (R368),
and SHAKE, on which the signature of R368 rests; the functions themselves are those of FIPS 202 (log entry 11).
-/
namespace Sys2Proof.Machine

open Sys2Proof

/-- The round constants. -/
def keccakRc : List Word :=
  [0x0000000000000001, 0x0000000000008082, 0x800000000000808A, 0x8000000080008000, 0x000000000000808B, 0x0000000080000001,
   0x8000000080008081, 0x8000000000008009, 0x000000000000008A, 0x0000000000000088, 0x0000000080008009, 0x000000008000000A] ++
  [0x000000008000808B, 0x800000000000008B, 0x8000000000008089, 0x8000000000008003, 0x8000000000008002, 0x8000000000000080,
   0x000000000000800A, 0x800000008000000A, 0x8000000080008081, 0x8000000000008080, 0x0000000080000001, 0x8000000080008008]

/-- The rotations of the lanes, by x + 5y. -/
def keccakRot : List Nat :=
  [0, 1, 62, 28, 27, 36, 44, 6, 55, 20, 3, 10, 43, 25, 39, 41, 45, 15, 21, 8, 18, 2, 61, 56, 14]

/-- A lane rotated left. -/
def rotL (w : Word) (n : Nat) : Word := if n = 0 then w else (w <<< n) ||| (w >>> (64 - n))

/-- One round over the 25 lanes, by x + 5y. -/
def keccakRound (a : List Word) (rc : Word) : List Word :=
  let at' (l : List Word) (x y : Nat) : Word := l.getD (x % 5 + 5 * (y % 5)) 0
  let c := (List.range 5).map fun x => at' a x 0 ^^^ at' a x 1 ^^^ at' a x 2 ^^^ at' a x 3 ^^^ at' a x 4
  let d := (List.range 5).map fun x => c.getD ((x + 4) % 5) 0 ^^^ rotL (c.getD ((x + 1) % 5) 0) 1
  let t := (List.range 25).map fun i => a.getD i 0 ^^^ d.getD (i % 5) 0
  let r := (List.range 25).map fun i => rotL (t.getD i 0) (keccakRot.getD i 0)
  -- lane (x, y) of the result comes from lane (x + 3y, x)
  let b := (List.range 25).map fun i => at' r (i % 5 + 3 * (i / 5)) (i % 5)
  let e := (List.range 25).map fun i => at' b (i % 5) (i / 5) ^^^ (~~~(at' b (i % 5 + 1) (i / 5)) &&& at' b (i % 5 + 2) (i / 5))
  match e with
  | x :: xs => (x ^^^ rc) :: xs
  | [] => []

/-- The permutation. -/
def keccakF (a : List Word) : List Word := keccakRc.foldl keccakRound a

/-- The words of a list of bytes, lowest byte first. -/
def leWords : Nat → List Byte → List Word
  | 0, _ => []
  | n + 1, bs => word (leNat (bs.take 8)) :: leWords n (bs.drop 8)

/-- Absorbs blocks of `rate` bytes. -/
def keccakAbsorb (rate : Nat) (a : List Word) : Nat → List Byte → List Word
  | 0, _ => a
  | n + 1, bs =>
    let blk := leWords (rate / 8) (bs.take rate)
    keccakAbsorb rate (keccakF ((List.range 25).map fun i => a.getD i 0 ^^^ blk.getD i 0)) n (bs.drop rate)

/-- The padding after a message of `n` bytes, with the bits that tell the functions apart. -/
def keccakPad (rate mark n : Nat) : List Byte :=
  let k := rate - n % rate
  if k = 1 then [BitVec.ofNat 8 (mark + 0x80)] else [BitVec.ofNat 8 mark] ++ List.replicate (k - 2) 0 ++ [0x80]

/-- The lanes after a message has been absorbed. -/
def keccakOf (rate mark : Nat) (m : List Byte) : List Word :=
  let p := m ++ keccakPad rate mark m.length
  keccakAbsorb rate (List.replicate 25 0) (p.length / rate) p

/-- Squeezes `n` blocks of `rate` bytes. -/
def keccakSqueeze (rate : Nat) : Nat → List Word → List Byte
  | 0, _ => []
  | n + 1, a => ((a.take (rate / 8)).flatMap fun w => leBytes 8 w.toNat) ++ keccakSqueeze rate n (keccakF a)

/-- SHA3-256 of a message: 32 bytes. -/
def sha3 (m : List Byte) : List Byte :=
  ((keccakOf 136 0x06 m).take 4).flatMap fun w => leBytes 8 w.toNat

/-- The first `n` blocks of SHAKE128 and of SHAKE256 of a message. -/
def shake128 (n : Nat) (m : List Byte) : List Byte := keccakSqueeze 168 n (keccakOf 168 0x1F m)
def shake256 (n : Nat) (m : List Byte) : List Byte := keccakSqueeze 136 n (keccakOf 136 0x1F m)

end Sys2Proof.Machine
end

