-- ==== Sys2Proof/Machine/Signing.lean ====
section
/-!
DEFINITION. ML-DSA-44, which the manual names for the signature of a quote (R368); the function itself is that of FIPS 204, with an empty
context string (log entry 12). A polynomial is the list of its 256 coefficients, each a remainder by the modulus.
-/
namespace Sys2Proof.Machine.Dsa

/-- A polynomial. -/
abbrev Poly := List Nat

/-- The modulus. -/
def q : Nat := 8380417

/-- The bounds of the mask and of the low part. -/
def gamma1 : Nat := 131072
def gamma2 : Nat := 95232

/-- The largest coefficient of a challenge times a secret polynomial. -/
def beta : Nat := 78

/-- The remainder of least magnitude. -/
def centred (x m : Nat) : Int := if m < 2 * (x % m) then (x % m : Int) - m else (x % m : Nat)

/-- An integer's remainder by the modulus. -/
def residue (i : Int) : Nat := (i % (q : Int)).toNat

/-! ## Polynomials -/

def add (a b : Poly) : Poly := a.zipWith (fun x y => (x + y) % q) b
def sub (a b : Poly) : Poly := a.zipWith (fun x y => (x + (q - y)) % q) b
def neg (a : Poly) : Poly := a.map fun x => (q - x) % q

/-- The powers of the root of unity 1753, whose order is 512. -/
def roots : Array Nat := ((List.range 512).foldl (fun (p : List Nat × Nat) _ => (p.2 :: p.1, p.2 * 1753 % q)) ([], 1)).1.reverse.toArray

/-- The exponent of the root at which place `i` of the transform evaluates a polynomial: eight bits of `i`, reversed, doubled, and 1. -/
def exponent (i : Nat) : Nat := 2 * ((List.range 8).foldl (fun r b => 2 * r + i / 2 ^ b % 2) 0) + 1

/-- The number-theoretic transform: the values at the 256 odd powers of the root. -/
def ntt (a : Poly) : Poly :=
  (List.range 256).map fun i =>
    let e := exponent i
    (a.foldl (fun (p : Nat × Nat) x => (p.1 + x * roots.getD (p.2 * e % 512) 0, p.2 + 1)) (0, 0)).1 % q

/-- Its inverse; 8347681 is the inverse of 256. -/
def intt (v : Poly) : Poly :=
  (List.range 256).map fun j =>
    (v.foldl (fun (p : Nat × Nat) x => (p.1 + x * roots.getD (512 - exponent p.2 * j % 512) 1, p.2 + 1)) (0, 0)).1 % q * 8347681 % q

/-- The product of two transforms, and of a transform with each polynomial of a vector. -/
def times (a b : Poly) : Poly := a.zipWith (fun x y => x * y % q) b
def scale (c : Poly) (v : List Poly) : List Poly := v.map fun a => intt (times c a)

/-- A matrix of transforms times a vector of transforms. -/
def mulVec (rows : List (List Poly)) (v : List Poly) : List Poly :=
  rows.map fun r => intt ((r.zipWith times v).foldl add (List.replicate 256 0))

/-- Whether a coefficient's magnitude reaches a bound. -/
def reaches (bound : Nat) (v : List Poly) : Bool := v.any fun a => a.any fun x => decide (bound ≤ (centred x q).natAbs)

/-! ## Packing -/

/-- `bytes` bytes of numbers of `width` bits each, the first lowest. -/
def pack (width bytes : Nat) (l : List Nat) : List Byte := leBytes bytes (l.foldr (fun x n => x % 2 ^ width + 2 ^ width * n) 0)

/-- The 256 numbers of `width` bits that bytes hold. -/
def unpack (width : Nat) (bs : List Byte) : List Nat :=
  let n := leNat bs
  (List.range 256).map fun i => n / 2 ^ (width * i) % 2 ^ width

/-! ## Sampling -/

/-- The transform that a seed and a place of the matrix give. -/
def uniform (seed : List Byte) (r s : Nat) : Poly :=
  let bs := (shake128 6 (seed ++ leBytes 1 s ++ leBytes 1 r)).toArray
  let zs := (List.range 336).map fun i => (bs.getD (3 * i) 0).toNat + 256 * (bs.getD (3 * i + 1) 0).toNat + 65536 * ((bs.getD (3 * i + 2) 0).toNat % 128)
  (zs.filter fun z => decide (z < q)).take 256

/-- A polynomial with coefficients from -2 to 2. -/
def small (seed : List Byte) (r : Nat) : Poly :=
  let hs := (shake256 4 (seed ++ leBytes 2 r)).flatMap fun b => [b.toNat % 16, b.toNat / 16]
  ((hs.filter fun h => decide (h < 15)).map fun h => residue (2 - (h % 5 : Nat))).take 256

/-- A mask polynomial. -/
def mask (seed : List Byte) (r : Nat) : Poly :=
  (unpack 18 ((shake256 5 (seed ++ leBytes 2 r)).take 576)).map fun (z : Nat) => residue ((gamma1 : Int) - z)

/-- The challenge: 39 coefficients of 1 or -1, placed by a shuffle. -/
def challenge (seed : List Byte) : Poly :=
  let bs := shake256 2 seed
  let signs := leNat (bs.take 8)
  let put (p : Array Nat × Nat) (b : Byte) : Array Nat × Nat :=
    let i := 217 + p.2
    if 256 ≤ i ∨ i < b.toNat then p
    else ((p.1.setIfInBounds i (p.1.getD b.toNat 0)).setIfInBounds b.toNat (if signs / 2 ^ p.2 % 2 = 0 then 1 else q - 1), p.2 + 1)
  ((bs.drop 8).foldl put (Array.replicate 256 0, 0)).1.toList

/-! ## Keys -/

/-- What the seed of a part's key gives: the matrix's seed and transform, the secret vectors, the key of the masks, the high and the low parts of
the public vector. -/
structure Key where
  rho : List Byte
  mat : List (List Poly)
  s1 : List Poly
  s2 : List Poly
  maskKey : List Byte
  t1 : List Poly
  t0 : List Poly

/-- Key generation from a seed of 32 bytes. -/
def keyOf (seed : List Byte) : Key :=
  let h := shake256 1 (seed ++ [4, 4])
  let rho := h.take 32
  let secret := (h.drop 32).take 64
  let mat := (List.range 4).map fun r => (List.range 4).map fun s => uniform rho r s
  let s1 := (List.range 4).map fun r => small secret r
  let s2 := (List.range 4).map fun r => small secret (4 + r)
  let t := (mulVec mat (s1.map ntt)).zipWith add s2
  let low (x : Nat) : Int := centred x 8192
  ⟨rho, mat, s1, s2, (h.drop 96).take 32, t.map fun a => a.map fun (x : Nat) => ((x : Int) - low x).toNat / 8192, t.map fun a => a.map fun (x : Nat) => residue (low x)⟩

/-- The public key: 1,312 bytes. -/
def Key.publicBytes (k : Key) : List Byte := k.rho ++ k.t1.flatMap (pack 10 320)

/-! ## Signing -/

/-- The high and the low part of a coefficient. -/
def parts (x : Nat) : Nat × Int :=
  let low := centred x (2 * gamma2)
  if (x : Int) - low = q - 1 then (0, low - 1) else (((x : Int) - low).toNat / (2 * gamma2), low)

/-- The high and the low parts of a vector. -/
def highs (v : List Poly) : List Poly := v.map fun a => a.map fun x => (parts x).1
def lows (v : List Poly) : List Poly := v.map fun a => a.map fun x => residue (parts x).2

/-- The places of a polynomial's hints: where the high part is another one. -/
def hintsOf (a b : Poly) : List Nat := (List.range 256).filter fun i => (parts (a.getD i 0)).1 != (parts (b.getD i 0)).1

/-- The hints of a vector, as 84 bytes. -/
def packHints (hs : List (List Nat)) : List Byte :=
  let flat := hs.flatten
  let ends := (List.range 4).map fun i => ((hs.take (i + 1)).map List.length).foldl (· + ·) 0
  (flat ++ List.replicate (80 - flat.length) 0 ++ ends).map (BitVec.ofNat 8)

/-- One attempt at a signature with the masks from place `n` on. -/
def Key.attempt (k : Key) (mu seed : List Byte) (n : Nat) : Option (List Byte) :=
  let y := (List.range 4).map fun r => mask seed (n + r)
  let w := mulVec k.mat (y.map ntt)
  let tag := (shake256 1 (mu ++ (highs w).flatMap (pack 6 192))).take 32
  let c := ntt (challenge tag)
  let z := y.zipWith add (scale c (k.s1.map ntt))
  let r := w.zipWith sub (scale c (k.s2.map ntt))
  if reaches (gamma1 - beta) z || reaches (gamma2 - beta) (lows r) then none
  else
    let ct := scale c (k.t0.map ntt)
    let hs := (r.zipWith add ct).zipWith hintsOf r
    if reaches gamma2 ct || decide (80 < (hs.map List.length).foldl (· + ·) 0) then none
    else some (tag ++ z.flatMap (fun a => pack 18 576 (a.map fun (x : Nat) => ((gamma1 : Int) - centred x q).toNat)) ++ packHints hs)

/-- The first attempt that succeeds. -/
def Key.attempts (k : Key) (mu seed : List Byte) : Nat → Nat → Option (List Byte)
  | 0, _ => none
  | fuel + 1, n => (k.attempt mu seed n).orElse fun _ => k.attempts mu seed fuel (n + 4)

/-- The signature of a message with 32 bytes of randomness: 2,420 bytes. -/
def Key.sign (k : Key) (m rnd : List Byte) : Option (List Byte) :=
  let mu := (shake256 1 ((shake256 1 k.publicBytes).take 64 ++ [0, 0] ++ m)).take 64
  k.attempts mu ((shake256 1 (k.maskKey ++ rnd ++ mu)).take 64) 814 0

end Sys2Proof.Machine.Dsa
end

