-- ==== Sys2Proof/Machine/Reliab.lean ====
section
/-!
DEFINITION. Reliability and life records (R357-R369): patrol, links, late edges, the states of the dies and what their reset loses, the
life-record image, measurements, and the context-lost record on its way.
-/
namespace Sys2Proof.Machine

open Sys2Proof

/-! ## Errors found (R357-R359) -/

/-- The unit that holds a location: a core, a cluster or a stack (R366). -/
def unitAt (loc : Nat) : Nat :=
  match homeOf loc with
  | .pool c => unitOf 0 c
  | .store k => unitOf 1 k
  | .stack n => unitOf 2 n

/-- The words that an error at a location that cannot be corrected poisons: the line of an HBM stack, or the word of a pool or a store
(R357, R359). -/
def errorWords (loc : Nat) : List Nat :=
  if loc < 2 ^ 40 then (List.range 8).map fun i => loc / 64 * 8 + i else [loc / 8]

/-- An error at a location that cannot be corrected: its words are poisoned, and counted (R358, R366). -/
def State.spoil (s : State) (loc : Nat) : State :=
  { s with poison := (errorWords loc).foldl (fun p w => nset p w true) s.poison }.count 0x02 (unitAt loc) 1

/-- The jobs whose marks or waiters an entry of a tag or table for the line of a location holds (R358). -/
def State.tagHolders (s : State) (loc : Nat) : List Nat :=
  let marks := (s.marks.filter fun m => m.line == loc / 64 && m.who.dev.isNone).map fun m => s.jobOf m.who.ctx.core
  let waits := (s.waiters.filter fun w => w.loc / 64 == loc / 64).map (·.job)
  (marks ++ waits).eraseDups

/-- A loss at a location that no thread's access names. -/
def lossOf (src loc : Nat) : Loss :=
  { cause := cUncorrectable, src := src, paddr := paddrOf loc, vaddr := 0, core := none, k := 0, pc := 0 }

/-- PATROL_SCRUB (R357-R359): an error is found, which is an input (log entry 113). At a location: 1 the patrol corrects one, 2 the patrol finds
one that it cannot correct, 3 an access corrects one, 4 an access finds one that it cannot correct, and 5 is one of a tag or of a table of marks
or waiters, which loses the jobs whose entry it is. Patrol reads are no consumption. As three numbers: 0 is a corrected one in the registers,
loop buffers or logs of a core, 1 and 2 are ones in a line of a cluster's instruction cache and in its translations of an address, which are
dropped and fetched or walked again (R125), and 3 is one in a register of a context, which the instruction that reads it consumes. -/
def execPatrolScrub (s : State) : Out :=
  match s.arg with
  | .pair loc 1 => .next ((s.count 0x05 (unitAt loc) 1).count 0x01 (unitAt loc) 1)
  | .pair loc 2 => .next (s.spoil loc)
  | .pair loc 3 => .next (s.count 0x01 (unitAt loc) 1)
  | .pair loc 4 => .next (s.spoil loc)
  | .pair loc 5 => .next ((s.tagHolders loc).foldl (fun s j => s.lose j (lossOf (srcOf loc) loc)) (s.count 0x02 (unitAt loc) 1))
  | .triple 0 core _ => .next (s.count 0x01 (unitOf 0 core) 1)
  | .triple 1 k line =>
    .next ((s.setCluster k { s.cluster k with icache := (s.cluster k).icache.filter fun l => l.line != line }).count 0x06 (unitOf 1 k) 1)
  | .triple 2 k va =>
    .next (s.setCluster k { s.cluster k with tlb := (s.cluster k).tlb.filter fun e => !(decide (e.base ≤ va) && decide (va < e.base + e.size)) })
  | .triple 3 core k =>
    let c : CtxId := ⟨core, k⟩
    if (s.ctx c).st = .free then .next s
    else .next ((s.count 0x02 (unitOf 0 core) 1).lose (s.jobOf core)
      { cause := cUncorrectable, src := 0, paddr := 0, vaddr := 0, core := some core, k := k, pc := (s.ctx c).pc })
  | _ => .next s

/-! ## Losing the jobs of dies -/

/-- The jobs, other than job 0, that hold a core of some dies. -/
def State.jobsOn (s : State) (dies : List Nat) : List Nat :=
  ((s.cores.filter fun p => dies.contains (dieOf p.1)).filterMap fun p => p.2.owner).eraseDups.filter (· != 0)

/-- Every job on some dies is lost, with SRC 6 for a link and 7 for a die reset (R343, R360). -/
def State.loseOn (s : State) (dies : List Nat) (src : Nat) : State :=
  (s.jobsOn dies).foldl (fun s j =>
    s.lose j { cause := cUncorrectable, src := src, paddr := 0, vaddr := 0, core := none, k := 0, pc := 0 }) s

/-- The flat locations of the pools and the stores of a die, as ranges. -/
def dieRanges (d : Nat) : List (Nat × Nat) :=
  ((List.range 32).map fun r => (poolLoc (coreAt (24 * (d % 2)) (32 * (d / 2) + r)) 0, 24 * 2 ^ 20))
    ++ (List.range 16).map fun r => (storeLoc (12 * (16 * (d / 2) + r) + 6 * (d % 2)) 0, 6 * 2 ^ 21)

/-- The contents of some ranges are lost. -/
def State.forget (s : State) (rs : List (Nat × Nat)) : State :=
  let s := { s with mem := s.mem.filter fun c => !(rs.any fun r => decide (r.1 ≤ c.1) && decide (c.1 < r.1 + r.2))
                    poison := s.poison.filter fun w => !(rs.any fun r => decide (r.1 ≤ 8 * w) && decide (8 * w < r.1 + r.2)) }
  rs.foldl (fun s r => s.makeVague r.1 r.2) s

/-- A cluster in its reset state, but for its matrix engine's health, when its first core is one of some. -/
def Cluster.stop (here : Nat → Bool) (p : Nat × Cluster) : Nat × Cluster :=
  if here (coreAt (4 * (p.1 % 12)) (2 * (p.1 / 12))) then (p.1, { Cluster.init with health := p.2.health }) else p

/-- A die enters RESET or OFF (R340, R343): its jobs are lost, its cores and clusters return to their reset state, and what its pools and
stores held is lost. -/
def State.stopDie (s : State) (d : Nat) (st : DieState) : State :=
  let s := s.loseOn [d] 7
  let here (core : Nat) : Bool := dieOf core == d
  let inside (m : Mark) : Bool := (dieRanges d).any fun r => decide (r.1 ≤ 64 * m.line) && decide (64 * m.line < r.1 + r.2)
  let s := { s with
    cores := s.cores.filter fun p => !(here p.1)
    ctxs := s.ctxs.filter fun p => !(here (p.1 / 16))
    clusters := (s.clusters.map (Cluster.stop here)).filter fun p => p.2 != Cluster.init
    ops := s.ops.filter fun o => !(here o.ctx.core)
    marks := s.marks.filter fun m => !(m.who.dev.isNone && here m.who.ctx.core) && !inside m
    peerLog := s.peerLog.filter fun m => !(here m.ctx.core) }
  ((s.forget (dieRanges d)).setDie d st).afterDies

/-- A die in RUN or HUNG is reset (R340, R343), which is counted (R366). -/
def State.resetDie (s : State) (d : Nat) : State :=
  if s.die d = .run ∨ s.die d = .hung then (s.stopDie d .reset).count 0x0B (unitOf 3 d) 1 else s

/-- The stacks attached to a die (R333). -/
def dieStacks (d : Nat) : List Nat := [3 * d, 3 * d + 1, 3 * d + 2]

/-- A die goes OFF: its stacks hold no data (R339). -/
def State.darken (s : State) (d : Nat) : State :=
  if s.die d = .off then s
  else
  let s := s.stopDie d .off
  let gone (loc : Nat) : Bool := decide (loc < Config.hbmBytes) && (dieStacks d).contains (stackOf loc)
  { s with mem := s.mem.filter fun c => !(gone c.1), poison := s.poison.filter fun w => !(gone (8 * w)),
           vague := ⟨0, Config.hbmBytes, s.freeCount, dieStacks d⟩ :: s.vague, freeCount := s.freeCount + 1 }

/-- The dies that a link joins (log entry 114): 0 to 15 are the ports; links 16 to 19 join dies 0 and 1, 0 and 2, 1 and 3, 2 and 3; 20 to 23 are
links of the mesh within dies 0 to 3, and 24 to 27 join them with the island (R357). -/
def linkDies (l : Nat) : List Nat :=
  match l with
  | 16 => [0, 1]
  | 17 => [0, 2]
  | 18 => [1, 3]
  | 19 => [2, 3]
  | 20 => [0] | 21 => [1] | 22 => [2] | 23 => [3]
  | 24 => [0] | 25 => [1] | 26 => [2] | 27 => [3]
  | _ => []

/-- The links between dies that XY routing takes from one die to another: along the row first (R332). -/
def dieRoute (a b : Nat) : List Nat :=
  let row := if a % 2 = b % 2 then [] else [if a / 2 = 0 then 16 else 19]
  let col := if a / 2 = b / 2 then [] else [if b % 2 = 0 then 17 else 18]
  row ++ col

/-- The unit of a link: a port, or the lower of the dies it joins. -/
def linkUnit (l : Nat) : Nat := if l < 16 then unitOf 4 l else unitOf 3 ((linkDies l).headD 0)

/-- The retired links of a die take part in its CRESET; one is retrained once every die that it joins has had one (R360). -/
def State.retrain (s : State) (d : Nat) : State :=
  let mine := s.deadLinks.filter fun l => (linkDies l).contains d
  let seen := (mine.map fun l => (l, d)) ++ s.retrained
  let done := mine.filter fun l => (linkDies l).all fun e => seen.contains (l, e)
  { s with deadLinks := s.deadLinks.filter fun l => !done.contains l
           spare := s.spare.filter fun l => !done.contains l
           retrained := (seen.filter fun p => !done.contains p.1).eraseDups }

/-- The task table of a core as it is at reset: BLK of every channel is 1 (R28, R175). -/
def State.startTasks (s : State) (core : Nat) : State := (List.range 64).foldl (fun s ch => s.wrWords (taskLoc core ch 0) [0, 4]) s

/-- A die is released to RUN (R340, R360, R361, R369): its links are retrained, its derating ends, its matrix engines return to state
0 where their self-test passes, and its monitor core has its task table of reset; a die that is too hot stays in RESET. What the monitor firmware
then does the model's own steps do (log entry 21). -/
def State.startDie (s : State) (d : Nat) : State :=
  if s.die d ≠ .reset ∨ (s.hot.contains d ∧ 95 < s.temps.getD d 0) then s
  else
    let s := { s.retrain d with hot := s.hot.filter (· != d), derated := s.derated.filter fun c => dieOf c != d }
    let s := (s.clusters.filter fun p => p.2.health != 0 && dieOf (coreAt (4 * (p.1 % 12)) (2 * (p.1 / 12))) == d).foldl (fun s p =>
      let (w, s) := s.openWord
      if bit w 0 then s.setCluster p.1 { s.cluster p.1 with health := 0 } else s) s
    (s.startTasks (monitorOf d)).setDie d .run

/-- The junction temperature of a die, as it was measured last. -/
def State.setTemp (s : State) (d t : Nat) : State :=
  { s with temps := (List.range 4).map fun e => if e = d then t else s.temps.getD e 0 }

/-- THERMAL_TRIP (R369): a die that reaches 115 degrees enters RESET until a CRESET at or below 95; one in RESET stays there. -/
def execThermalTrip (s : State) : Out :=
  match s.arg with
  | .num d =>
    let t := { s with hot := nset s.hot d true }.setTemp d 115
    if 4 ≤ d then .next s else .next (t.resetDie d)
  | _ => .next s

/-- COMPUTE_RAIL_FAULT (R337, R369): the compute rail fails, every die is OFF, and the island stays up. -/
def execComputeRailFault (s : State) : Out := .next ((List.range 4).foldl State.darken s)

/-- HEARTBEAT_TIMEOUT (R339): no heartbeat for 100 ms: the die is HUNG. -/
def execHeartbeatTimeout (s : State) : Out :=
  match s.arg with
  | .num d => .next (if d < 4 then s.hang d else s)
  | _ => .next s

/-! ## Links (R357, R360) -/

/-- LINK_RESEND (R357): a flit is resent; nothing changes but the count. -/
def execLinkResend (s : State) : Out :=
  match s.arg with
  | .num l => .next (s.count 0x09 (linkUnit l) 1)
  | _ => .next s

/-! ## Late edges (R361) -/

/-- A derating or retirement enters the life records with a cause that the manual does not state (R361, R366). -/
def State.recordUnit (s : State) (kind index : Nat) : State :=
  let (w, s) := s.openWord
  s.retireUnit kind (bits w 7 0) index

/-- The detections of a window, or a failed self-test as more than any, act on a unit: kind 0 a core, 1 the matrix engine of a cluster, 2 the
router of a core. A failed router is a failed link of its die (R360, R361). A monitor core
is never retired: its detections are counted, and it keeps running (R6, log entry 131). -/
def State.edgeAct (s : State) (kind index n : Nat) : State :=
  if n < 64 then s
  else
    match kind with
    | 0 => if n < 4096 || isMonitor index then s else s.recordUnit 1 index
    | 1 =>
      if n < 4096 then
        let cl := s.cluster index
        if cl.health = 0 then (s.setCluster index { cl with health := 1 }).recordUnit 2 index else s
      else s.later 0 none .mxEngineFail (.num index)
    | _ =>
      let d := dieOf index
      let s := ({ s with derated := nset s.derated index true }).recordUnit 4 index
      if n < 4096 then s
      else { s with deadLinks := nset s.deadLinks (20 + d) true, retrained := s.retrained.filter fun p => p.1 != 20 + d }.loseOn [d] 6

/-- LATE_EDGE_WINDOW (R361): a unit's detections in a window of 2^30 cycles; kinds 3 to 5 are a failed self-test at a job start of the units of
kinds 0 to 2. -/
def execLateEdgeWindow (s : State) : Out :=
  match s.arg with
  | .triple kind index n =>
    if 3 ≤ kind then .next (s.edgeAct (kind - 3) index 4096)
    else
      let core := if kind = 1 then coreAt (4 * (index % 12)) (2 * (index / 12)) else index
      let d := dieOf core
      let s := s.count 0x04 (unitOf (if kind = 1 then 1 else 0) index) n
      let s := { s with life := { s.life with edges := mset 0 s.life.edges d (mget 0 s.life.edges d + n) } }
      .next (s.edgeAct kind index n)
  | _ => .next s

/-! ## The context-lost record (R364) -/

/-- The monitor that hears of a job or a command: that of a die in RUN, a wanted one first. -/
def State.monitorFor (s : State) (d : Nat) : Option Nat :=
  if s.die d = .run then some (monitorOf d) else ((List.range 4).find? fun e => s.die e == .run).map monitorOf

/-- A job-0 message to a monitor core, on the path of its sender or of the unit `via` (R332). -/
def State.toMonitor (s : State) (src target chan : Nat) (p : List Word) (via : Nat := src) : State :=
  s.later 1 (some ⟨planeMessage, via, target⟩) .messageArrive
    (.msg { job := 0, gen := (s.job 0).gen, src := src, target := target, body := .start chan p.length p, op := none, via := via })

/-- CONTEXT_LOST_RECORD (R364, R367): the record of a retired job joins the life records and their copy in flash, and travels as two
messages to channel 63 of a monitor. -/
def execContextLostRecord (s : State) : Out :=
  match s.arg with
  | .num n =>
    let j := s.job n
    match j.lostRec with
    | none => .next s
    | some ws =>
      let put (l : Life) : Life :=
        let all := l.lost ++ [ws]
        if 256 < all.length then { l with lost := all.drop 1, lhead := (l.lhead + 1) % 256 } else { l with lost := all }
      let s := { s.setJob n { j with lostRec := none } with life := put s.life, flash := put s.flash }
      let corner := coreAt (4 * j.cx) (2 * j.cy)
      .next (match s.monitorFor (dieOf corner) with
        | none => s
        | some m => (s.toMonitor corner m 63 (ws.take 4)).toMonitor corner m 63 (ws.drop 4))
  | _ => .next s

/-! ## Life records (R365-R367) -/

/-- LIFE_FLUSH (R367): the counters and histograms are written to flash. -/
def execLifeFlush (s : State) : Out := .next { s with flash := s.life }

/-- One minute more in a bin of a histogram. -/
def Life.bin (l : Life) (id unit b : Nat) : Life :=
  let k := lifeKey id unit * 16 + min 15 b
  { l with bins := mset 0 l.bins k (mget 0 l.bins k + 1) }

/-- LIFE_MINUTE (R366, R367): a minute with the island powered, with the junction temperatures of the dies and the package power; the flash takes
the counters with it. -/
def execLifeMinute (s : State) : Out :=
  match s.arg with
  | .minute temps power =>
    let l := { s.life with minutes := s.life.minutes + 1, edges := [] }
    let l := l.bin 0x102 (unitOf 5 0) (power / 200)
    let l := (List.range 4).foldl (fun l d =>
      (l.bin 0x101 (unitOf 3 d) ((temps.getD d 0 - 35) / 5)).bin 0x103 (unitOf 3 d) (log2 (mget 0 s.life.edges d + 1))) l
    .next ({ s with life := l, temps := temps }.later 0 none .lifeFlush .nothing)
  | _ => .next s

/-- The head word of a counter or histogram. -/
def lifeHead (k : Nat) : Word := word (k / 65536 * 2 ^ 48 + k % 65536 * 2 ^ 32)

/-- The header of the life-record image (R365). -/
def State.lifeHeader (s : State) : List Word :=
  [word (Config.stepping % 3 * 2 ^ 16 + 1), Config.serial, word s.life.minutes,
   word (Config.histKeys.length * 2 ^ 32 + Config.counterKeys.length), word (Config.retCap * 2 ^ 32 + s.life.retired.length),
   word (s.life.lhead * 2 ^ 32 + s.life.lost.length), 0, 0]

/-- The counters of the image (R366). -/
def State.lifeCounters (s : State) : List Word :=
  Config.counterKeys.flatMap fun k => [lifeHead k, word (mget 0 s.life.counters k)]

/-- The bytes of words. -/
def wordBytes (ws : List Word) : List Byte := ws.flatMap fun w => leBytes 8 w.toNat

/-- The bytes of a histogram: its head, the minutes that it covers, and its bins (R366). -/
def State.lifeHist (s : State) (k : Nat) : List Byte :=
  let bin (b : Nat) : Nat := mget 0 s.life.bins (k * 16 + b)
  wordBytes [lifeHead k, word (((List.range 16).map bin).foldl (· + ·) 0)] ++ (List.range 16).flatMap fun b => leBytes 4 (bin b)

/-- The life-record image (R365): the header and the four sections; unused places are 0. -/
def State.lifeImage (s : State) : List Byte :=
  let lost := (List.range 256).flatMap fun i =>
    let n := (i + 256 - s.life.lhead) % 256
    s.life.lost.getD n (List.replicate 8 0)
  wordBytes s.lifeHeader ++ wordBytes s.lifeCounters ++ Config.histKeys.flatMap s.lifeHist
    ++ wordBytes ((List.range Config.retCap).map fun i => s.life.retired.getD i 0) ++ wordBytes lost

/-- The part's signing key (R368). -/
def partKey : Dsa.Key := Dsa.keyOf ((List.range 32).map Config.keySeed)

/-- What LIFEREAD replies from an offset (R365, R368). -/
def State.lifeSlice (s : State) (off : Nat) : List Byte :=
  if 0xFFFF0000 ≤ off then partKey.publicBytes.drop (off - 0xFFFF0000)
  else (s.lifeImage.drop off).take 4096

/-! ## Measurements (R368) -/

/-- A measurement register extended with an image. -/
def extend (m image : List Byte) : List Byte := sha3 (m ++ sha3 image)

/-- 32 bytes of 0. -/
def zero32 : List Byte := List.replicate 32 0

/-- A measurement register set anew. -/
def State.measure (s : State) (i : Nat) (m : List Byte) : State :=
  { s with island := { s.island with measures := s.island.measures.set i m } }

/-- The island firmware that runs. -/
def State.islandImage (s : State) : List Byte := if s.island.islandFw.isEmpty then Config.islandFirmware else s.island.islandFw

/-- The island enters BOOT (R340, R368); the transit packets that it holds are dropped (R343). -/
def State.enterBoot (s : State) : State :=
  let s := { s with island := { s.island with st := .boot, passed := false, ports := [], attach := none, inUse := [], refused := [],
                                              streams := [], next := 0, transit := [] } }
  let s := (s.measure 0 (extend zero32 Config.bootCode)).measure 1 (extend zero32 s.islandImage)
  ((s.measure 5 zero32).measure 6 zero32).measure 7 zero32

/-- The bytes of a quote over a nonce, signed with the part's key (R368, log entry 12). -/
def State.quote (s : State) (nonce : Word) : List Byte × State :=
  let body := wordBytes [word (Config.stepping % 3 * 2 ^ 16 + 1), nonce, Config.serial, word s.life.minutes] ++ s.island.measures.flatten
    ++ sha3 (wordBytes s.lifeHeader ++ wordBytes s.lifeCounters)
  let sig := partKey.sign body ((List.range 32).map (Config.signRandom s.freeCount))
  (body ++ sig.getD ((List.range 2420).map fun i => Config.freeByte (s.freeCount * 2 ^ 48 + i)), { s with freeCount := s.freeCount + 1 })

end Sys2Proof.Machine
end

