-- ==== Sys2Proof/Machine/Lists.lean ====
section
/-!
DEFINITION. Work lists (R279-R291): the home's list table, the steps of the six instructions at the home, pop waiters, and the moves
to and from the spill region.
-/
namespace Sys2Proof.Machine

open Sys2Proof

/-! ## Lists as the home holds them -/

/-- The bytes of an item. -/
def ListEntry.itemBytes (l : ListEntry) : Nat := if l.wide then 16 else 8

/-- The offset of the active-pair queue's descriptor in a pool (R282). -/
def pairDesc : Nat := sysBase + 0x4840

/-- The live or faulted list of a core that a descriptor names, from its list table, or the active-pair queue (R279, R282). -/
def State.listAt (s : State) (core desc : Nat) : Option ListEntry :=
  let co := s.core core
  if desc = pairDesc then co.pairq else co.lists.find? fun l => l.desc == desc

/-- The descriptor words that the home keeps (R279): word 0, and words 4 to 6. -/
def ListEntry.words (l : ListEntry) (state : Nat) : Word × List Word :=
  (word (state * 2 ^ 62 + l.reason * 2 ^ 56 + l.count % 2 ^ 32),
   [word (l.pushes % 2 ^ 32 * 2 ^ 32 + l.dups % 2 ^ 32), word (l.pops % 2 ^ 32 * 2 ^ 32 + l.fulls % 2 ^ 32),
    word (l.waiters.length % 2 ^ 16 * 2 ^ 48 + l.high % 2 ^ 32)])

/-- Writes the home's words of a list to its descriptor. -/
def State.writeDesc (s : State) (core : Nat) (l : ListEntry) (state : Nat) : State :=
  let (w0, ws) := l.words state
  let at' := poolLoc core l.desc
  (s.wr64 at' w0).wrWords (at' + 32) ws

/-- The home keeps a list after a step, and writes its descriptor. -/
def State.putList (s : State) (core : Nat) (l : ListEntry) : State :=
  let co := s.core core
  let s := if l.desc = pairDesc then s.setCore core { co with pairq := some l }
    else if co.lists.any fun m => m.desc == l.desc then
      s.setCore core { co with lists := co.lists.map fun m => if m.desc = l.desc then l else m }
    else s.setCore core { co with lists := co.lists ++ [l] }
  s.writeDesc core l (if l.live then 1 else 2)

/-- The list becomes faulted with a cause (R281). -/
def ListEntry.fault (l : ListEntry) (cause : Nat) : ListEntry := { l with live := false, reason := cause }

/-! ## The spill region (R280, R281) -/

/-- The virtual address of the spill slot of an item that stands `i` places behind the first spilled one. -/
def ListEntry.spillVa (l : ListEntry) (i : Nat) : Nat := bits l.spill 47 0 + (l.spillHead + i) % max 1 l.scap * l.itemBytes

/-- The flat location of the spill slot of an item that stands `i` places behind the first spilled one, or the cause of its fault. The region
holds the items, none of which crosses a page, before their index words: its layout is not architectural (R280). -/
def State.spillAt (s : State) (l : ListEntry) (i : Nat) (n : Need) : Except Nat Nat :=
  match s.walkTo l.job (l.spillVa i) n with
  | .error c => .error c
  | .ok a => if s.homeDown a then .error cEndpoint else if s.granuleRetired a l.itemBytes then .error cProtect else .ok a

/-- The poisoned word that is consumed where the first `n` spilled items are read and, where `slot` says so, the slot behind the last is found
(R358). -/
def State.spillLoss (s : State) (l : ListEntry) (n : Nat) (slot : Bool) : Option Nat :=
  if s.poison.isEmpty || l.scap == 0 then none
  else
    ((List.range (min n l.spilled)).findSome? fun i =>
      (s.walkSpoiled l.job (l.spillVa i)).orElse fun _ =>
        match s.spillAt l i .read with
        | .ok a => s.poisoned a l.itemBytes
        | .error _ => none).orElse fun _ => if slot then s.walkSpoiled l.job (l.spillVa l.spilled) else none

/-- The spilled items that an append moves into the area first (R281). -/
def ListEntry.moves (l : ListEntry) : Nat := if l.scap ≤ l.spilled then min 1 l.spilled else 0

/-- Whether an appended item goes to the spill region (R281). -/
def ListEntry.spills (l : ListEntry) : Bool := !(l.spilled - l.moves == 0 && l.items.length + l.moves < 4096)

/-- An append at the home of a list that reads `n` spilled items, unless poison among them loses the job (R358). -/
def State.unlessLost (s : State) (l : ListEntry) (n : Nat) (go : HomeAns × State) : HomeAns × State :=
  match s.spillLoss l n l.spills with
  | some q => (.lost q, s)
  | none => go

/-- Moves up to `n` items from the spill region to the area; the cause of a failing read stops it. -/
def State.refill (s : State) (l : ListEntry) : Nat → Except Nat ListEntry
  | 0 => .ok l
  | n + 1 =>
    if l.spilled = 0 then .ok l
    else
      match s.spillAt l 0 .read with
      | .error c => .error c
      | .ok at' =>
        s.refill { l with items := l.items ++ [s.rdWords at' (l.itemBytes / 8)], spilled := l.spilled - 1,
                          spillHead := (l.spillHead + 1) % max 1 l.scap } n

/-- Appends an item of a list that is not full: to the area while it has room and nothing is spilled, else to the spill region, which the move
of an item into the area makes room in where it is full (R281). -/
def State.appendItem (s : State) (l : ListEntry) (item : List Word) : Except Nat (State × ListEntry) :=
  match s.refill l l.moves with
  | .error c => .error c
  | .ok l =>
    if l.spilled = 0 ∧ l.items.length < 4096 then .ok (s, { l with items := l.items ++ [item] })
    else
      match s.spillAt l l.spilled .write with
      | .error c => .error c
      | .ok at' => .ok ((s.wrWords at' item).cleanse at' l.itemBytes, { l with spilled := l.spilled + 1 })

/-- The spilled items, as they stand in the spill region. -/
def State.spilledItems (s : State) (l : ListEntry) : Except Nat (List (List Word)) :=
  (List.range l.spilled).mapM fun i => (s.spillAt l i .read).map fun at' => s.rdWords at' (l.itemBytes / 8)

/-- The oldest `n` items leave a list (R287). -/
def State.takeItems (s : State) (l : ListEntry) (n : Nat) : Except Nat (List (List Word) × ListEntry) :=
  match s.refill l (n - l.items.length) with
  | .error c => .error c
  | .ok l => .ok (l.items.take n, { l with items := l.items.drop n, pops := l.pops + n })

/-- Room in the area is filled from the spill region by a move of the home's own. -/
def State.moveLater (s : State) (core : Nat) (l : ListEntry) : State :=
  if 0 < l.spilled ∧ l.items.length < 4096 ∧ l.live then s.later 1 none .wlSpillMove (.pair core l.desc) else s

/-- WL_SPILL_MOVE (R281): the home moves items between area and spill region itself; a failing translation faults the list and refuses
no operation. -/
def execWlSpillMove (s : State) : Out :=
  match s.arg with
  | .pair core desc =>
    match s.listAt core desc with
    | none => .next s
    | some l =>
      if !l.live then .next s
      else
        match s.spillLoss l (4096 - l.items.length) false with
        | some q => .next (s.lose l.job (engineLoss (some core) l.spill q))
        | none =>
          match s.refill l (4096 - l.items.length) with
          | .ok l => .next (s.putList core l)
          | .error c => .next (s.putList core (l.fault c))
  | _ => .next s

/-! ## Pop waiters (R288) -/

/-- A parked waiter receives a batch at the core of its record, and is re-created with the count (R288). -/
def State.servePop (s : State) (src : Nat) (l : ListEntry) (rec : Word) (buf : Word) (items : List (List Word)) (n : Word) : State :=
  match s.recordLoc l.job rec with
  | none => s
  | some r =>
    let home := s.recordHome r
    let s := s.wrWords (poolLoc home (bits buf 19 0)) items.flatten
    (s.claim r n).sendRecreate src home l.job l.gen rec

/-- Serves the oldest waiters while items are queued; none is served while the job is cancelled (R288, R291). -/
def State.serveWaiters (s : State) (core : Nat) (l : ListEntry) : List (Word × Word × Nat) → State × ListEntry
  | [] => (s, { l with waiters := [] })
  | (rec, buf, n) :: ws =>
    if l.count = 0 ∨ (s.job l.job).st == .cancelled then (s, { l with waiters := (rec, buf, n) :: ws })
    else
      match s.takeItems l (min n l.count) with
      | .error c => (s, { l.fault c with waiters := (rec, buf, n) :: ws })
      | .ok (items, l') => (s.servePop core l' rec buf items (word items.length)).serveWaiters core l' ws

/-- A list after an append: counted, and its waiters served (R285). -/
def State.appended (s : State) (core : Nat) (l : ListEntry) : State :=
  let l := { l with pushes := l.pushes + 1, high := max l.high l.count }
  let (s, l) := s.serveWaiters core l l.waiters
  (s.putList core l).moveLater core l

/-! ## The steps at the home -/

/-- The core and the offset that a work-list operation names. -/
def Op.listHome (o : Op) : Nat × Nat := (coreAt (bits o.addr 59 53) (bits o.addr 52 46), bits o.addr 19 0)

/-- The accumulator, scratchpad and system areas lie below the data area (R12). -/
def dataStart (w : BitVec 32) : Nat := 4096 * (1 + partSys w + partAcc w + partSpad w)

/-- The checks of WLINIT on the words of an idle descriptor (R284): the cause of the first that fails. -/
def State.listCheck (s : State) (core desc : Nat) : Option Nat :=
  let at' := poolLoc core desc
  let w1 := s.rd64 (at' + 8)
  let w2 := s.rd64 (at' + 16)
  let w3 := s.rd64 (at' + 24)
  let dedup := bit w1 25
  let wide' := bit w1 24
  let area := bits w1 19 0
  let size := 4096 * 8 * (if wide' then 2 else 1) + if dedup then 16384 else 0
  let co := s.core core
  let meets (a n : Nat) : Bool := decide (area < a + n) && decide (a < area + size)
  if bits w1 63 26 ≠ 0 ∨ bits w1 23 20 ≠ 0 ∨ bits w3 63 32 ≠ 0 ∨ (dedup && wide') then some cBounds
  else if area % 4096 ≠ 0 ∨ Config.poolBytes < area + size then some cBounds
  else if area < dataStart co.partword ∨ (co.lists.any fun l => meets l.area l.areaBytes)
      ∨ (s.arenaTotal core ≠ 0 ∧ meets (s.arenaBase core) (32 * s.arenaTotal core)) then some cProtect
  else if bits w3 31 0 ≠ 0 ∧ (bits w2 63 61 ≠ 3 ∨ bits w2 60 48 ≠ 0 ∨ bits w2 11 0 ≠ 0) then some cBounds
  else if 8 ≤ co.lists.length then some cBounds
  else none

/-- A list as WLINIT makes it from its descriptor. -/
def State.freshList (s : State) (core desc job gen : Nat) : ListEntry :=
  let at' := poolLoc core desc
  let w1 := s.rd64 (at' + 8)
  { desc := desc, job := job, gen := gen, live := true, reason := 0, dedup := bit w1 25, wide := bit w1 24, area := bits w1 19 0,
    spill := s.rd64 (at' + 16), scap := bits (s.rd64 (at' + 24)) 31 0, items := [], spilled := 0, spillHead := 0, pushes := 0,
    dups := 0, pops := 0, fulls := 0, high := 0, waiters := [] }

/-- A step of a work-list operation at its home, with its answer. -/
def formListHome (s : State) (f : State → Op → Nat → Nat → HomeAns × State) : Out :=
  match s.arg with
  | .num id =>
    match s.op id with
    | none => .next s
    | some o =>
      if !s.stampOk o.job o.gen then .next (s.dropOp id)
      else
        let (core, desc) := o.listHome
        let (a, s) := f s o core desc
        .next (s.answer o a)
  | _ => .next s

/-- WLINIT_AT_HOME (R284). -/
def execWlinitAtHome (s : State) : Out :=
  formListHome s fun s o core desc =>
    match s.listAt core desc with
    | some l =>
      if l.live then (.refused cBounds 0 0, s)
      else
        let l := { l with live := true, reason := 0 }
        (.done 0, (s.putList core l).moveLater core l)
    | none =>
      match s.listCheck core desc with
      | none => (.done 0, s.putList core (s.freshList core desc o.job o.gen))
      | some c =>
        let at' := poolLoc core desc
        (.refused c 0 0, s.wr64 at' (word (3 * 2 ^ 62 + c * 2 ^ 56 + bits (s.rd64 at') 31 0)))

/-- Refuses an operation on a list that is not live (R281, R285). -/
def notLive : Option ListEntry → Nat
  | some l => l.reason
  | none => cBounds

/-- WLPUSH_AT_HOME (R285). -/
def execWlpushAtHome (s : State) : Out :=
  formListHome s fun s o core desc =>
    match o.body, s.listAt core desc with
    | .wlpush item, some l =>
      if !l.live then (.refused l.reason 0 0, s)
      else if (item.length == 2) != l.wide then (.refused cBounds 0 0, s)
      else if l.count = 4096 + l.scap then (.refused cBounds 0 0, s.putList core { l with fulls := l.fulls + 1 })
      else
        s.unlessLost l l.moves <|
        match s.appendItem l item with
        | .error c => (.refused c 0 0, s.putList core (l.fault c))
        | .ok (s, l) => (.done 0, s.appended core l)
    | _, l => (.refused (notLive l) 0 0, s)

/-- A status of WLINSU with COUNT after the step (R286). -/
def insuWord (count status : Nat) : Vec := wide (word (count * 2 ^ 32 + status))

/-- WLINSU_AT_HOME (R286). -/
def execWlinsuAtHome (s : State) : Out :=
  formListHome s fun s o core desc =>
    match o.body, s.listAt core desc with
    | .wlinsu item, some l =>
      if !l.live then (.refused l.reason 0 0, s)
      else if !l.dedup then (.done (insuWord l.count 4), s)
      else
        s.unlessLost l l.spilled <|
        match s.spilledItems l with
        | .error c => (.refused c 0 0, s.putList core (l.fault c))
        | .ok more =>
          if (l.items ++ more).contains item then
            (.done (insuWord l.count 1), s.putList core { l with dups := l.dups + 1 })
          else if l.count = 4096 + l.scap then (.done (insuWord l.count 2), s.putList core { l with fulls := l.fulls + 1 })
          else
            match s.appendItem l item with
            | .error c => (.refused c 0 0, s.putList core (l.fault c))
            | .ok (s, l) =>
              let s := s.appended core l
              (.done (insuWord (((s.listAt core desc).map ListEntry.count).getD 0) 0), s)
    | _, _ => (.done (insuWord (bits (s.rd64 (poolLoc core desc)) 31 0) 3), s)

/-- WLPOPB_AT_HOME (R287, R288): a batch, or "empty", after which the core sends the pop again. -/
def execWlpopbAtHome (s : State) : Out :=
  match s.arg with
  | .num id =>
    match s.op id with
    | none => .next s
    | some o =>
      match o.body with
      | .wlpopb buf ctl =>
        let (core, desc) := o.listHome
        if !s.stampOk o.job o.gen then .next (s.dropOp id)
        else
          match s.listAt core desc with
          | none => .next (s.answer o (.done (wide (-1))))
          | some l =>
            let lat := typical o.ctx.core (.pool core) / 2
            let back := some (o.backPath (poolLoc core desc))
            if !l.live then .next (s.answer o (.refused l.reason 0 0))
            else if l.count = 0 ∧ bit ctl 16 then
              .next ((s.firstNotReady o).later lat back .wlPopRetry (.num id))
            else
              match s.spillLoss l (min (bits ctl 8 0) l.count - l.items.length) false, s.takeItems l (min (bits ctl 8 0) l.count) with
              | some q, _ => .next (s.answer o (.lost q))
              | none, .error c => .next ((s.putList core (l.fault c)).answer o (.refused c 0 0))
              | none, .ok (items, l) =>
                let s := (s.putList core l).moveLater core l
                let o := { o with body := .popped (bits buf 19 0) items.flatten (word items.length) }
                .next ((s.setOp o).later lat back .longResultReturn (.answer id none))
      | _ => .next s
  | _ => .next s

/-- WL_POP_RETRY (R288): the pop is sent again in each of the thread's slots; once its turns are spent, or when its thread is to be
pre-empted, the thread becomes a continuation of KIND 5 and a park request is sent, none while its rewrite list is not empty (R216). Both
travel as the pop did (R331, R332). -/
def execWlPopRetry (s : State) : Out :=
  match s.arg with
  | .num id =>
    match s.op id with
    | none => .next s
    | some o =>
      let x := s.ctx o.ctx
      let co := s.core o.ctx.core
      let turn := ctxCount co.partword
      let wait := (o.ctx.k + turn - s.cycle % turn) % turn
      let half := typical o.ctx.core (.pool o.listHome.1) / 2
      let path := some (s.opPath o)
      let resend (s : State) : State := s.later half path .wlpopbAtHome (.num id)
      let due := decide (o.deadline ≤ s.cycle) || (co.held && x.st == .marker)
      if o.record.isSome then .next (if co.held || s.jobAway o.job o.ctx.core then s.later turn none .wlPopRetry (.num id) else resend s)
      else if x.thread ≠ o.thread then .next (s.dropOp id)
      else if wait ≠ 0 then .next (s.later wait none .wlPopRetry (.num id))
      else if !due || !x.rewrites.isEmpty then .next (resend s)
      else
        match s.parkInPool o 5 with
        | some s => .next (s.later half path .wlParkRequest (.num id))
        | none => .next (resend (if (s.takeEntry o.job).isNone then s.poolFails o.ctx else s))
  | _ => .next s

/-- WL_PARK_REQUEST (R288): in one step the home serves the request, answers that the list is not live, or chains the waiter. -/
def execWlParkRequest (s : State) : Out :=
  match s.arg with
  | .num id =>
    match s.op id with
    | none => .next s
    | some o =>
      match o.body, o.wrec with
      | .wlpopb buf ctl, some rec =>
        let (core, desc) := o.listHome
        let s := s.dropOp id
        let gone (s : State) : State :=
          match s.recordLoc o.job rec with
          | none => s
          | some r => (s.claim r (-1)).sendRecreate core (s.recordHome r) o.job o.gen rec
        match s.listAt core desc with
        | none => .next (gone s)
        | some l =>
          if !l.live then .next (gone s)
          else if l.count = 0 then .next (s.putList core { l with waiters := l.waiters ++ [(rec, buf, bits ctl 8 0)] })
          else
            match s.spillLoss l (min (bits ctl 8 0) l.count - l.items.length) false, s.takeItems l (min (bits ctl 8 0) l.count) with
            | some q, _ => .next (s.answer o (.lost q))
            | none, .error c => .next (gone (s.putList core (l.fault c)))
            | none, .ok (items, l) => .next (((s.servePop core l rec buf items (word items.length)).putList core l).moveLater core l)
      | _, _ => .next s
  | _ => .next s

/-- WLCOUNT at the home (R289): word 0 as it stands. -/
def State.performCount (s : State) (o : Op) : HomeAns × State :=
  let (core, desc) := o.listHome
  match s.listAt core desc with
  | some l => (.done (wide (l.words (if l.live then 1 else 2)).1), s)
  | none => (.done (wide (s.rd64 (poolLoc core desc))), s)

/-- WLDRAIN_AT_HOME (R290): the list is retired, and its waiters are woken with 0. -/
def execWldrainAtHome (s : State) : Out :=
  formListHome s fun s _ core desc =>
    match s.listAt core desc with
    | none => (.done 0, s)
    | some l =>
      let s := l.waiters.foldl (fun s w => s.servePop core l w.1 w.2.1 [] 0) s
      let co := s.core core
      let s := s.setCore core { co with lists := co.lists.filter fun m => m.desc != desc }
      (.done 0, s.writeDesc core { l with items := [], spilled := 0, waiters := [] } 0)

/-! ## Issue (R283) -/

/-- The check of a descriptor address: own pool or the rectangle's, 64-byte aligned, in the data area; a space that names no pool is BOUNDS before
anything else. -/
def State.checkList (s : State) (core : Nat) (a : Word) (pairs : Bool) : Except Trap Word :=
  if 2 ≤ bits a 63 61 then .error (exact cBounds a 0)
  else match s.place core a with
  | .error t => .error t
  | .ok (.pool _ off) =>
    if off % 64 ≠ 0 then .error (exact cMisalign a 0)
    else if off < dataStart (s.core core).partword && !(pairs && off == pairDesc) then .error (exact cProtect a 0)
    else .ok (absAddr core a)
  | .ok _ => .error (exact cBounds a 0)

/-- Whether an operation is a work-list operation that is outstanding: not performed, or with a result that has not returned (R283). -/
def Op.listOut (p : Op) : Bool := p.body.isList || (!p.performed && match p.body with | .result _ _ => true | _ => false)

/-- Issues a work-list operation: a ninth waits; the operation is a release of DEV scope, and, where it has a result, an acquire
and one of the four fallible operations of R123. -/
def State.listOp (s : State) (c : CtxId) (w : IWord) (a : Word) (b : OpBody) (dst : Option Reg) : State :=
  if 8 ≤ s.countOps c Op.listOut then s.wait c
  else
    let turns := (s.ctx c).feretry.toNat * ctxCount (s.core c.core).partword
    let o := { s.newOp c w a b dst with fallible := dst.isSome, scope := .dev, deadline := s.cycle + turns,
                                          ord := if dst.isSome then .acquire else .plain }
    if dst.isSome && s.fallibleFull c then s.fallibleWait c
    else (s.launch o).retire c fun x => { x.pendDst dst with region := x.region + 1 }

/-- A work-list instruction once its registers have been checked. -/
def State.issueList (s : State) (c : CtxId) (w : IWord) (a : Word) (pairs : Bool) (b : OpBody) (dst : Option Reg) :
    Except Trap State :=
  match s.checkList c.core a pairs with
  | .error t => .error t
  | .ok a => .ok (s.listOp c w a b dst)

/-- WLINIT. -/
def execWlinit (o : KA) (s : State) : Out :=
  s.issue ⟨o.s, none, [gr o.a]⟩ fun s c =>
    s.issueList c (firstWord (.wlinit o)) ((s.ctx c).getG o.a.toNat) false .wlinit none

/-- WLPUSH (R285): one word, or two from g[B] on. -/
def execWlpush (o : KPush) (s : State) : Out :=
  s.issue ⟨o.s, none, [gr o.a, gr o.b] ++ if o.w = 1 then [.g (o.b.toNat + 1)] else []⟩ fun s c =>
    let x := s.ctx c
    let item := x.getG o.b.toNat :: if o.w = 1 then [x.getG (o.b.toNat + 1)] else []
    s.issueList c (firstWord (.wlpush o)) (x.getG o.a.toNat) false (.wlpush item) none

/-- WLINSU. -/
def execWlinsu (o : KABD) (s : State) : Out :=
  s.issue ⟨o.s, none, [gr o.a, gr o.b, gr o.d]⟩ fun s c =>
    let x := s.ctx c
    s.issueList c (firstWord (.wlinsu o)) (x.getG o.a.toNat) false (.wlinsu [x.getG o.b.toNat]) (some (gr o.d))

/-- WLPOPB (R287): the descriptor, the control word, and the buffer are checked. -/
def execWlpopb (o : KABD) (s : State) : Out :=
  s.issue ⟨o.s, none, [gr o.a, gr o.b, gr o.d]⟩ fun s c =>
    let x := s.ctx c
    let ctl := x.getG o.d.toNat
    let buf := x.getG o.b.toNat
    match s.checkList c.core (x.getG o.a.toNat) false with
    | .error t => .error t
    | .ok a =>
      let n := bits ctl 8 0
      if bits ctl 63 17 ≠ 0 ∨ bits ctl 15 9 ≠ 0 ∨ n = 0 ∨ 256 < n then .error (exact cBounds ctl 0)
      else
        match s.rangeTrap c.core buf (16 * n) 16 with
        | some t => .error t
        | none => .ok (s.listOp c (firstWord (.wlpopb o)) a (.wlpopb buf ctl) (some (gr o.d)))

/-- WLCOUNT. -/
def execWlcount (o : KAD) (s : State) : Out :=
  s.issue ⟨o.s, none, [gr o.a, gr o.d]⟩ fun s c =>
    s.issueList c (firstWord (.wlcount o)) ((s.ctx c).getG o.a.toNat) true .wlcount (some (gr o.d))

/-- WLDRAIN. -/
def execWldrain (o : KA) (s : State) : Out :=
  s.issue ⟨o.s, none, [gr o.a]⟩ fun s c =>
    s.issueList c (firstWord (.wldrain o)) ((s.ctx c).getG o.a.toNat) false .wldrain none

end Sys2Proof.Machine
end

