-- ==== Sys2Proof/Machine/Nets.lean ====
section
/-!
DEFINITION. Nets (R204-R229): node records and the arena, active pairs, the link operations, the relinking protocol, the built-in rules,
and TEND with its linearity check (R188, R226).
-/
namespace Sys2Proof.Machine

open Sys2Proof

/-! ## Nodes and ports (R204-R206) -/

/-- The node of a port address. -/
def nodeOf (p : Word) : Word := p &&& ~~~(31 : Word)

/-- The index of a port address: 1 principal, 2 and 3 auxiliary. -/
def portIndex (p : Word) : Nat := bits p 4 3

/-- Port `i` of a node. -/
def portOf (n : Word) (i : Nat) : Word := n + word (8 * i)

/-- Writes a word of a node record. -/
def State.setNodeWord (s : State) (n : Word) (i : Nat) (w : Word) : State := s.wr64 (netLoc n + 8 * i) w

/-- The port word of a port. -/
def State.portWord (s : State) (p : Word) : Word := s.rd64 (netLoc p)

/-- The port states (R206). -/
def pFree : Nat := 0
def pBound : Nat := 1
def pFwd : Nat := 2
def pRoot : Nat := 3

/-- STATE of a port word, and the port that it links to (R206). -/
def portState (w : Word) : Nat := bits w 63 62
def linked (w : Word) : Word := word (2 ^ 61 + bits w 59 46 * 2 ^ 46 + bits w 19 0)

/-- A port word that links to a port. -/
def mkPort (state : Nat) (aw : Bool) (dest : Word) : Word :=
  word (state * 2 ^ 62 + (if aw then 2 ^ 61 else 0) + bits dest 59 46 * 2 ^ 46 + bits dest 19 0)

/-- TYPE, ARITY, PEND, LIFE and LABEL of a header word (R205). -/
def hType (h : Word) : Nat := bits h 63 56
def hArity (h : Word) : Nat := bits h 55 54
def hPend (h : Word) : Nat := bits h 53 52
def hLife (h : Word) : Nat := bits h 51 50
def hLabel (h : Word) : Nat := bits h 47 32

/-- LIFE, RDY, RS, and OWNER with OCTX replaced. -/
def setLife (h : Word) (v : Nat) : Word := setBits h 51 50 v
def setRdy (h : Word) (b : Bool) : Word := setBits h 49 49 (if b then 1 else 0)
def setRs (h : Word) (b : Bool) : Word := setBits h 48 48 (if b then 1 else 0)
def setOwner (h : Word) (owner octx : Nat) : Word := setBits (setBits h 30 16 owner) 15 12 octx

/-- OWNER and OCTX as one number. -/
def hOwner (h : Word) : Nat := bits h 30 12

/-- OWNER and OCTX of a thread's context. -/
def ownerOf (c : CtxId) : Nat := coordField c.core * 16 + c.k

/-- The built-in types and the arity of each (R207). -/
def tROOT : Nat := 1
def tERA : Nat := 2
def tDUP : Nat := 3
def tTILE : Nat := 4
def tREL : Nat := 5
def builtinArity (t : Nat) : Nat := if t = tDUP then 2 else if t = tREL then 1 else 0

/-- Whether a node lies in its core's arena (R210). -/
def State.inArena (s : State) (n : Word) : Bool :=
  let core := netHome n
  let b := s.arenaBase core
  let off := bits n 19 0
  decide (b ≤ off) && decide (off < b + 32 * s.arenaTotal core) && (off - b) % 32 / 8 * 8 == (off - b) % 32

/-- Raises a wrapping counter of an arena header: the word and the bits of its field. -/
def State.bump (s : State) (core w hi lo : Nat) : State :=
  let l := arenaHead core + 8 * w
  s.wr64 l (setBits (s.rd64 l) hi lo (bits (s.rd64 l) hi lo + 1))

/-- ERRS (R210). -/
def State.netErr (s : State) (core : Nat) : State := s.bump core 4 47 32

/-! ## Messages of the unit -/

/-- A job message that the hardware of a core sends (R183): it counts against the pairs of R214 when it carries one. -/
def State.sendJob (s : State) (job gen src target chan nw : Nat) (payload : List Word) : State :=
  if (s.core src).cancelled then s.countDrop job
  else
    s.later (typical src (.pool target) / 2) (some ⟨planeMessage, src, target⟩) .messageArrive
      (.msg { job := job, gen := gen, src := src, target := target, body := .start chan nw payload, op := none, via := src })

/-- A protocol message from one core to another (R224), in order with the message-plane operations between the two. -/
def State.sendNet (s : State) (job gen src dst : Nat) (what : Instr) (a b c : Word) : State :=
  s.later (typical src (.pool dst) / 2) (some ⟨planeMessage, src, dst⟩) what
    (.net { job := job, gen := gen, src := src, a := a, b := b, c := c })

/-- The report of a ROOT that received a partner (R209). -/
def State.report (s : State) (job gen : Nat) (root partner : Word) : State :=
  let core := netHome root
  let w := s.nodeWord root 2
  if bits w 63 22 ≠ 0 ∨ bits w 15 15 ≠ 0 ∨ bits w 14 14 = 0 then s.netErr core
  else
    match coreOfField (bits w 14 0) with
    | none => s.netErr core
    | some t =>
      if s.inRect job t then s.sendJob job gen core t (bits w 21 16) 3 [root, partner, s.nodeWord root 3] else s.netErr core

/-! ## Active pairs (R213, R282) -/

/-- Pairs join the queue while it is live and has room; the others wait at the core. -/
def State.queuePairs (s : State) (core : Nat) : List (Word × Word) → State
  | [] => s.setCore core { s.core core with pairWait := [] }
  | (a, b) :: ps =>
    let hold (s : State) : State := s.setCore core { s.core core with pairWait := (a, b) :: ps }
    match (s.core core).pairq with
    | none => hold s
    | some l =>
      if !l.live || l.count == 4096 + l.scap then hold s
      else
        match s.appendItem l [a, b] with
        | .error c => hold (s.putList core (l.fault c))
        | .ok (s, l) => (s.putList core { l with pushes := l.pushes + 1, high := max l.high l.count }).queuePairs core ps

/-- Pairs of a core that stand between queue and message (R214). -/
def State.pairsOut (s : State) (core : Nat) : Nat :=
  (s.ops.filter fun o => o.thread == 1 && o.ctx.core == core && o.body.isMessage).length

/-- Fires a pair at a core (R213): PAIRS is raised, and the pair joins the queue behind those that wait. -/
def State.fire (s : State) (core : Nat) (x y : Word) : State :=
  let s := s.bump core 5 63 32
  (s.queuePairs core ((s.core core).pairWait ++ [(x, y)])).later 1 none .ligatureTakePair (.num core)

/-- PAIR_ENQUEUE_RETRY (R282): fired pairs that found the queue full join it when an entry frees. -/
def execPairEnqueueRetry (s : State) : Out :=
  match s.arg with
  | .num core => .next (s.queuePairs core (s.core core).pairWait)
  | _ => .next s

/-- The evaluation of a principal port at its home (R213). -/
def State.evaluate (s : State) (job gen : Nat) (p : Word) : State :=
  let x := nodeOf p
  let core := netHome p
  let h := s.nodeWord x 0
  let w := s.portWord p
  let q := linked w
  if portIndex p ≠ 1 ∨ hLife h ≠ 2 ∨ portState w ≠ pBound ∨ portIndex q ≠ 1 then s
  else if p.toNat < q.toNat then
    if bits h 48 48 = 0 then (s.setNodeWord x 0 (setRs h true)).sendNet job gen core (netHome q) .netReady p q 0 else s
  else if q.toNat < p.toNat ∧ bits h 49 49 = 1 then (s.setNodeWord x 0 (setRdy h false)).fire core x (nodeOf q)
  else s

/-- A port gets a new partner, as BOUND or ROOT: a principal port's RDY and RS are cleared, a ROOT reports, and the port is evaluated
(R209, R213, R224). -/
def State.bindPort (s : State) (job gen : Nat) (y x : Word) : State :=
  let n := nodeOf y
  let h := s.nodeWord n 0
  let root := portIndex y == 1 && hType h == tROOT
  let s := s.wr64 (netLoc y) (mkPort (if root then pRoot else pBound) false x)
  let s := if portIndex y = 1 then s.setNodeWord n 0 (setRs (setRdy h false) false) else s
  let s := if root then s.report job gen n x else s
  s.evaluate job gen y

/-- "y takes partner x" (R224). -/
def State.takePartner (s : State) (job gen : Nat) (y x : Word) : State :=
  let w := s.portWord y
  if portState w = pFree then s.bindPort job gen y x
  else if portState w = pFwd ∧ bit w 61 then
    (s.wr64 (netLoc y) (mkPort pFwd false (linked w))).sendNet job gen (netHome y) (netHome x) .netRedirect y (linked w) x
  else s.netErr (netHome y)

/-- A dead node's record returns to the free list (R225). -/
def State.freeNode (s : State) (n : Word) : State :=
  let core := netHome n
  let hd := arenaHead core
  let off := bits n 19 0
  let s := s.setNodeWord n 0 (setLife (setBits (s.nodeWord n 0) 63 56 0) 0)
  let s := ((s.setNodeWord n 1 0).setNodeWord n 2 0).setNodeWord n 3 0
  let w := s.rd64 hd
  let s := if bits w 19 0 = 0 then s.wr64 hd (setBits (setBits w 19 0 off) 51 32 off)
    else (s.wr64 (poolLoc core (bits w 51 32) + 8) (word off)).wr64 hd (setBits w 51 32 off)
  s.wr64 (hd + 8) (setBits (s.rd64 (hd + 8)) 31 0 (bits (s.rd64 (hd + 8)) 31 0 + 1))

/-- A port of a dead node is settled; the last one frees the record (R225). -/
def State.settle (s : State) (p : Word) : State :=
  let n := nodeOf p
  let h := s.nodeWord n 0
  if hLife h ≠ 3 ∨ hPend h = 0 then s.netErr (netHome p)
  else
    let s := s.setNodeWord n 0 (setBits h 53 52 (hPend h - 1))
    if hPend h = 1 then s.freeNode n else s

/-! ## The protocol (R224) -/

/-- A protocol message arrives at the home of its port: one of a retired generation is refused (R229). -/
def formNet (s : State) (f : State → NetMsg → State) : Out :=
  match s.arg with
  | .net m => .next (if s.stampOk m.job m.gen then f s m else s.refuseStamp)
  | _ => .next s

/-- READY (R213): a READY(a) arrives for the principal port b. -/
def execNetReady (s : State) : Out :=
  formNet s fun s m =>
    let w := s.portWord m.b
    if portState w = pBound ∧ linked w = m.a then
      (s.setNodeWord (nodeOf m.b) 0 (setRdy (s.nodeWord (nodeOf m.b) 0) true)).evaluate m.job m.gen m.b
    else s

/-- JOIN(n, m) at n (R224). -/
def State.join (s : State) (job gen : Nat) (n m : Word) : State :=
  (s.sendNet job gen (netHome n) (netHome m) .netBind m n 0).takePartner job gen n m

/-- BIND(m, n) at m (R224). -/
def execNetBind (s : State) : Out := formNet s fun s m => s.takePartner m.job m.gen m.a m.b

/-- REDIRECT(p, n, q) at q (R224). -/
def execNetRedirect (s : State) : Out :=
  formNet s fun s m =>
    let p := m.a
    let n := m.b
    let q := m.c
    let w := s.portWord q
    let home := netHome q
    if (portState w = pBound ∨ portState w = pRoot) ∧ linked w = p then
      let s := s.sendNet m.job m.gen home (netHome n) .netBind n q 0
      let s := s.sendNet m.job m.gen home (netHome p) .netSettle p 0 0
      s.bindPort m.job m.gen q n
    else if portState w = pFwd ∧ !bit w 61 then
      let s := if p.toNat < q.toNat then s.sendNet m.job m.gen home (netHome n) .netJoin n (linked w) 0 else s
      s.settle q
    else s.netErr home

/-- SETTLE(p) at p (R224, R225). -/
def execNetSettle (s : State) : Out := formNet s fun s m => s.settle m.a

/-! ## Link operations at their homes (R215-R221) -/

/-- A step of a built-in rule is refused (R227): ERRS is raised for a relink, and a kill abandons the rule. -/
def State.refuseRule (s : State) (core reason : Nat) : State :=
  if reason = 3 then s.setCore core { s.core core with rule := (s.core core).rule.map fun r => { r with refused := true } }
  else s.netErr core

/-- A refused link operation is held for TEND (R215, R226), or told to the ligature unit whose rule it is a step of. -/
def State.refuseLink (s : State) (o : Op) (reason : Nat) : State :=
  let x := s.ctx o.ctx
  let s := s.dropOp o.id
  if o.thread = 1 then s.refuseRule o.ctx.core reason
  else if x.thread = o.thread then s.setCtx o.ctx { x with refusals := x.refusals ++ [⟨o.addr, reason⟩] } else s

/-- A link operation performs its first step at its home; a poisoned node record loses the job (R358). -/
def formLink (s : State) (f : State → Op → State) : Out :=
  match s.arg with
  | .num id =>
    match s.op id with
    | none => .next s
    | some o =>
      .next (if !s.stampOk o.job o.gen then s.dropOp id
        else match s.poisoned (netLoc (nodeOf o.addr)) 32 with
          | some q => s.lose o.job (lossAt o.ctx o.pc o.addr q)
          | none => f s o)
  | _ => .next s

/-- NSEAL_AT_HOME (R218). -/
def execNsealAtHome (s : State) : Out :=
  formLink s fun s o =>
    let h := s.nodeWord o.addr 0
    if s.inArena o.addr && hLife h == 1 && (hOwner h == ownerOf o.ctx || bits h 30 16 == 0) then
      ((s.dropOp o.id).setNodeWord o.addr 0 (setLife h 2)).evaluate o.job o.gen (portOf o.addr 1)
    else s.refuseLink o 6

/-- The kill of a node at its home (R219): it is live, not a ROOT, and bound by principal ports. -/
def State.killNode (s : State) (n : Word) (owner octx : Nat) : Option State :=
  let h := s.nodeWord n 0
  let w := s.portWord (portOf n 1)
  if s.inArena n && hLife h == 2 && hType h != tROOT && portState w == pBound && portIndex (linked w) == 1 then
    some (s.setNodeWord n 0 (setOwner (setBits (setLife h 3) 53 52 (1 + hArity h)) owner octx))
  else none

/-- NKILL_AT_HOME (R219, R227): a kill of a built-in rule leaves OWNER 0 and OCTX 0. -/
def execNkillAtHome (s : State) : Out :=
  formLink s fun s o =>
    let unit := o.thread == 1
    match s.killNode o.addr (if unit then 0 else coordField o.ctx.core) (if unit then 0 else o.ctx.k) with
    | some s => s.dropOp o.id
    | none => s.refuseLink o 3

/-- PROTOCOL_JOIN (R220, R224): a LINK's JOIN is refused where the port is not FREE; a JOIN of another home is performed. -/
def execNetJoin (s : State) : Out :=
  match s.arg with
  | .net m => .next (if s.stampOk m.job m.gen then s.join m.job m.gen m.a m.b else s.refuseStamp)
  | .num id =>
    match s.op id with
    | none => .next s
    | some o =>
      match o.body with
      | .link m =>
        if !s.stampOk o.job o.gen then .next (s.dropOp id)
        else if portState (s.portWord o.addr) = pFree then .next ((s.dropOp id).join o.job o.gen o.addr m)
        else .next (s.refuseLink o 4)
      | _ => .next s
  | _ => .next s

/-- The redirection of port p to n at p's home (R221); none where it is refused. -/
def State.redirect (s : State) (job gen : Nat) (p n : Word) : Option State :=
  let w := s.portWord p
  if portState w = pBound then
    let q := linked w
    some ((s.wr64 (netLoc p) (mkPort pFwd false n)).sendNet job gen (netHome p) (netHome q) .netRedirect p n q)
  else if portState w = pFree then some (s.wr64 (netLoc p) (mkPort pFwd true n))
  else none

/-- RELINK_AT_HOME (R221). -/
def execRelinkAtHome (s : State) : Out :=
  formLink s fun s o =>
    match o.body with
    | .relink n =>
      match s.redirect o.job o.gen o.addr n with
      | some s => s.dropOp o.id
      | none => s.refuseLink o 5
    | _ => s

/-! ## Issue -/

/-- A SELF or CORE address in CORE form, with its low bits checked (R218, R220). -/
def State.checkNet (s : State) (core : Nat) (a : Word) (align : Nat) : Except Trap Word :=
  match s.place core a with
  | .error t => .error t
  | .ok (.pool _ _) => if a.toNat % align ≠ 0 then .error (exact cMisalign a 0) else .ok (absAddr core a)
  | .ok _ => .error (exact cBounds a 0)

/-- Issues a link operation: a ninth waits (R215). -/
def State.linkOp (s : State) (c : CtxId) (w : IWord) (a : Word) (b : OpBody) (release : Bool) (f : Ctx → Ctx) : State :=
  if 8 ≤ s.countOps c fun p => p.body.isLink then s.wait c
  else
    let o := { s.newOp c w a b none with ord := if release then .release else .plain, scope := .dev }
    let s := s.setCtx c (f (s.ctx c))
    (s.launch o).retire c fun x => if release then { x with region := x.region + 1 } else x

/-- Takes the node at HEAD of a core's arena (R217): its address, and the state. -/
def State.takeNode (s : State) (core : Nat) (header : Word) : Option (Word × State) :=
  let hd := arenaHead core
  let a := bits (s.rd64 hd) 19 0
  if a = 0 then none
  else
    let l := poolLoc core a
    let free := bits (s.rd64 (hd + 8)) 31 0 - 1
    let s := s.wr64 hd (setBits (s.rd64 hd) 19 0 (bits (s.rd64 (l + 8)) 19 0))
    let s := s.wr64 (hd + 8) (setBits (s.rd64 (hd + 8)) 31 0 free)
    let s := s.wr64 (hd + 16) (setBits (s.rd64 (hd + 16)) 63 32 (min (bits (s.rd64 (hd + 16)) 63 32) free))
    some (coreAddr core a, s.wrWords l [header, 0, 0, 0])

/-- NALLOC (R217). -/
def execNalloc (o : KAD) (s : State) : Out :=
  s.issue ⟨o.s, none, [gr o.a, gr o.d]⟩ fun s c =>
    let x := s.ctx c
    let t := x.getG o.a.toNat
    let ty := hType t
    let w := firstWord (.nalloc o)
    if bits t 53 48 ≠ 0 ∨ bits t 31 8 ≠ 0 ∨ ty = 0 ∨ hArity t = 3 ∨ (6 ≤ ty ∧ ty ≤ 15)
        ∨ (ty ≤ 5 ∧ hArity t ≠ builtinArity ty) then .error (exact cBounds t 0)
    else if 16 ≤ x.rewrites.length then .error (exact cBounds t 0)
    else
      match s.takeNode c.core (setOwner (setLife t 1) (coordField c.core) c.k) with
      | none => .ok ((s.bump c.core 4 31 16).longResult c w (gr o.d) 0 Config.latLocal)
      | some (n, s) =>
        let x := s.ctx c
        let s := s.setCtx c { x with rewrites := x.rewrites ++ [{ node := n, killed := false, used := [false, false, false] }] }
        .ok (s.longResult c w (gr o.d) (wide n) Config.latLocal)

/-- NSEAL (R218). -/
def execNseal (o : KA) (s : State) : Out :=
  s.issue ⟨o.s, none, [gr o.a]⟩ fun s c =>
    match s.checkNet c.core ((s.ctx c).getG o.a.toNat) 32 with
    | .error t => .error t
    | .ok a => .ok (s.linkOp c (firstWord (.nseal o)) a .nseal true id)

/-- NKILL (R219). -/
def execNkill (o : KA) (s : State) : Out :=
  s.issue ⟨o.s, none, [gr o.a]⟩ fun s c =>
    let x := s.ctx c
    let g := x.getG o.a.toNat
    match s.checkNet c.core g 32 with
    | .error t => .error t
    | .ok a =>
      if x.rewrites.any fun r => r.node == a then .error (exact cProtect g 0)
      else if 16 ≤ x.rewrites.length then .error (exact cBounds g 0)
      else
        .ok (s.linkOp c (firstWord (.nkill o)) a .nkill false fun x =>
          { x with rewrites := x.rewrites ++ [{ node := a, killed := true, used := [false, false, false] }] })

/-- The entry of a rewrite list for the node of a port, when it is of a kind and the port's used bit is clear. -/
def Ctx.rewriteOk (x : Ctx) (p : Word) (killed : Bool) : Bool :=
  x.rewrites.any fun r => r.node == nodeOf p && r.killed == killed && r.used.getD (portIndex p - 1) true == false

/-- The used bit of a port is set (R216). -/
def Ctx.usePort (x : Ctx) (p : Word) : Ctx :=
  { x with rewrites := x.rewrites.map fun r => if r.node = nodeOf p then { r with used := r.used.set (portIndex p - 1) true } else r }

/-- The checks of the two ports of LINK and RELINK (R220, R221): each address in turn, the same port twice, then each rewrite entry. -/
def State.checkPorts (s : State) (c : CtxId) (a b : Word) (killedA : Bool) : Except Trap (Word × Word) :=
  let one (g : Word) : Except Trap Word :=
    match s.checkNet c.core g 8 with
    | .error t => .error t
    | .ok p => if portIndex p = 0 then .error (exact cBounds g 0) else .ok p
  match one a with
  | .error t => .error t
  | .ok p =>
    match one b with
    | .error t => .error t
    | .ok n =>
      if p = n then .error (exact cBounds b 0)
      else if !(s.ctx c).rewriteOk p killedA then .error (exact cProtect a 0)
      else if !(s.ctx c).rewriteOk n false then .error (exact cProtect b 0)
      else .ok (p, n)

/-- LINK (R220). -/
def execLink (o : KAB) (s : State) : Out :=
  s.issue ⟨o.s, none, [gr o.a, gr o.b]⟩ fun s c =>
    let x := s.ctx c
    match s.checkPorts c (x.getG o.a.toNat) (x.getG o.b.toNat) false with
    | .error t => .error t
    | .ok (n, m) => .ok (s.linkOp c (firstWord (.link o)) n (.link m) true fun x => (x.usePort n).usePort m)

/-- RELINK (R221). -/
def execRelink (o : KAB) (s : State) : Out :=
  s.issue ⟨o.s, none, [gr o.a, gr o.b]⟩ fun s c =>
    let x := s.ctx c
    match s.checkPorts c (x.getG o.a.toNat) (x.getG o.b.toNat) true with
    | .error t => .error t
    | .ok (p, n) => .ok (s.linkOp c (firstWord (.relink o)) p (.relink n) true fun x => (x.usePort p).usePort n)

/-- NTYPE (R222): a word of a record of the issuing core's arena, as one snapshot. -/
def execNtype (o : KAD) (s : State) : Out :=
  s.issue ⟨o.s, none, [gr o.a, gr o.d]⟩ fun s c =>
    let g := (s.ctx c).getG o.a.toNat
    match s.place c.core g with
    | .error t => .error t
    | .ok (.pool core off) =>
      if g.toNat % 8 ≠ 0 then .error (exact cMisalign g 0)
      else if core ≠ c.core ∨ !s.inArena (coreAddr core off) then .error (exact cProtect g 0)
      else .ok (s.longResult c (firstWord (.ntype o)) (gr o.d) (wide (s.rd64 (poolLoc core off))) Config.latLocal)
    | .ok _ => .error (exact cProtect g 0)

/-! ## Tile counts (R223) -/

/-- Whether a tile's descriptor words are valid (R208). -/
def tileOk (addr w3 : Word) : Bool :=
  let f := bits w3 31 26
  (bits addr 63 61 == 1 || bits addr 63 61 == 2 || bits addr 63 61 == 3) && addr.toNat % 8 == 0 && bits w3 63 48 != 0
    && bits w3 47 32 != 0 && (decide (f ≤ 10) || decide (32 ≤ f))

/-- One step on a tile's count at its home: the result, all ones when it cannot change (R223). -/
def State.stepCount (s : State) (loc : Nat) (drop : Bool) : Word × State :=
  let n := s.rd64 loc
  if drop then (if n = 0 then (-1, s) else (n - 1, s.wr64 loc (n - 1)))
  else if n = -1 then (-1, s)
  else (n + 1, s.wr64 loc (n + 1))

/-- TREF and TDROP at the homes (R223). -/
def State.performTref (s : State) (o : Op) (drop : Bool) : HomeAns × State :=
  let h := s.nodeWord o.addr 0
  let a := s.nodeWord o.addr 2
  let w3 := s.nodeWord o.addr 3
  match s.poisoned (netLoc o.addr) 32 with
  | some q => (.lost q, s)
  | none =>
  if hType h ≠ tTILE ∨ hLife h = 0 ∨ !tileOk a w3 then (.done (wide (-1)), s)
  else
    match s.reachNow o.ctx.core o.job .both (countAddr a w3) 8 with
    | .error (c, _) => (.refused c 0 0, s)
    | .ok l =>
     match s.poisoned l 8 with
     | some q => (.lost q, s)
     | none =>
      let (v, s) := s.stepCount l drop
      (.done (wide v), s)

/-- TREF and TDROP at issue. -/
def formTref (o : KAD) (drop : Bool) (w : IWord) (s : State) : Out :=
  s.issue ⟨o.s, none, [gr o.a, gr o.d]⟩ fun s c =>
    match s.checkNet c.core ((s.ctx c).getG o.a.toNat) 32 with
    | .error t => .error t
    | .ok a =>
      if s.fallibleFull c then .ok (s.fallibleWait c)
      else
        let p := { s.newOp c w a (.tref drop) (some (gr o.d)) with
          fallible := true, ord := if drop then .seqcst else .plain, scope := .dev }
        .ok ((s.launch p).retire c fun x =>
          { x.pendDst (some (gr o.d)) with region := if drop then x.region + 1 else x.region })

/-- TREF. -/
def execTref (o : KAD) (s : State) : Out := formTref o false (firstWord (.tref o)) s

/-- TDROP. -/
def execTdrop (o : KAD) (s : State) : Out := formTref o true (firstWord (.tdrop o)) s

/-! ## The ligature unit (R214, R227) -/

/-- The virtual address of the rule entry for two types (R212). -/
def State.ruleVa (s : State) (core t1 t2 : Nat) : Nat := bits (s.rd64 (arenaHead core + 24)) 47 0 + 8 * (256 * t1 + t2)

/-- Where the rule entry for two types stands; none where its lookup faults (R212, R339, R362). -/
def State.ruleLoc (s : State) (job core t1 t2 : Nat) : Option Nat :=
  match s.walkTo job (s.ruleVa core t1 t2) .read with
  | .ok a => if s.homeDown a || s.granuleRetired a 8 then none else some a
  | .error _ => none

/-- The rule entry for two types (R212), when its lookup does not fault. -/
def State.ruleEntry (s : State) (job core t1 t2 : Nat) : Option Word := (s.ruleLoc job core t1 t2).map s.rd64

/-- The poisoned word that the lookup of a rule entry reads (R358). -/
def State.ruleSpoiled (s : State) (job core t1 t2 : Nat) : Option Nat :=
  (s.walkSpoiled job (s.ruleVa core t1 t2)).orElse fun _ => (s.ruleLoc job core t1 t2).bind fun a => s.poisoned a 8

/-- Whether a rule entry is well formed (R212). -/
def ruleOk (e : Word) : Bool :=
  bits e 63 62 != 3 && bits e 61 56 == 0 && bits e 51 24 == 0 && bits e 15 15 == 0
    && !(bits e 63 62 == 1 && bits e 23 22 == 0 && (bits e 14 14 == 0 || (coreOfField (bits e 14 0)).isNone))

/-- The pair in the order of R214: the lower TYPE first, then the lower principal address. -/
def State.orderPair (s : State) (x y : Word) : Word × Word :=
  let tx := hType (s.nodeWord x 0)
  let ty := hType (s.nodeWord y 0)
  if tx < ty ∨ (tx = ty ∧ x.toNat < y.toNat) then (x, y) else (y, x)

/-- An operation of a core's ligature unit leaves the core behind the message-plane operations that have not left for its target (R183, R215). -/
def State.unitLeave (s : State) (o : Op) : State := if s.behind o then s.later 1 none .homeAccess (.num o.id) else s.leave o

/-- An operation that the ligature unit of a core sends for its job (R214, R215, R227). -/
def State.unitSend (s : State) (job gen core : Nat) (a : Word) (b : OpBody) : State :=
  let o := { s.newOp ⟨core, 0⟩ 0 a b none with thread := 1, job := job, gen := gen }
  (s.addOp o).unitLeave o

/-- A message that carries a pair to a core: it stands between queue and message until it is accepted (R214). -/
def State.sendPair (s : State) (job gen core target chan : Nat) (x y : Word) : State :=
  let payload := [x, y, s.nodeWord x 0, s.nodeWord y 0]
  if (s.core core).cancelled then s.countDrop job
  else s.unitSend job gen core (coreAddr target 0) (.send target chan 4 payload)

/-- MODE 0 (R214): STUCK is raised, and a stuck message is sent where SEN is 1. -/
def State.stuck (s : State) (job gen core : Nat) (x y : Word) : State :=
  let s := s.bump core 4 63 48
  let w := s.rd64 (arenaHead core + 40)
  if bit w 15 then s.sendPair job gen core core (bits w 13 8) x y else s

/-- Makes a node of a built-in rule, still building (R227): OWNER 0 and OCTX 0. -/
def State.ruleNode (s : State) (core : Nat) (header w2 w3 : Word) : Word × State :=
  match s.takeNode core (setOwner (setLife header 1) 0 0) with
  | some (n, s) => (n, if hArity header = 2 then s else if hArity header = 1 then s.setNodeWord n 3 w3 else (s.setNodeWord n 2 w2).setNodeWord n 3 w3)
  | none => (0, s)

/-- A header of a type, arity and label. -/
def mkHeader (t a label : Nat) : Word := word (t * 2 ^ 56 + a * 2 ^ 54 + label * 2 ^ 32)

/-- Whether link operations of a core's ligature unit are outstanding. -/
def State.unitBusy (s : State) (core : Nat) : Bool := s.ops.any fun o => o.thread == 1 && o.ctx.core == core && o.body.isLink

/-- Publishes the nodes that a rule made. -/
def State.sealAll (s : State) (job gen : Nat) (ns : List Word) : State :=
  ns.foldl (fun s n => (s.setNodeWord n 0 (setLife (s.nodeWord n 0) 2)).evaluate job gen (portOf n 1)) s

/-- The plan of a built-in rule on the first and second node of a pair (R227); none where the code does not apply. LABEL and FLAGS of the nodes
that it makes: DESIGN CHOICE (log entry 128). -/
def State.rulePlan (s : State) (code : Nat) (x y : Word) : Option RulePlan :=
  let hx := s.nodeWord x 0
  let hy := s.nodeWord y 0
  let tx := hType hx
  let ty := hType hy
  match code with
  | 1 =>
    let era? : Option (Word × Word) :=
      if tx = tROOT ∨ ty = tROOT then none else if tx = tERA then some (x, hy) else if ty = tERA then some (y, hx) else none
    era?.map fun (e, h) =>
      let other := if e = x then y else x
      let k := hArity h
      { makes := List.replicate k (mkHeader tERA 0 0, 0, 0), relinks := (List.range k).map fun i => (portOf other (i + 2), i, 1), links := [] }
  | 2 =>
    if tx = tDUP ∧ ty = tTILE then
      let t := (mkHeader tTILE 0 (hLabel hy) ||| word (bits hy 7 0), s.nodeWord y 2, s.nodeWord y 3)
      some { makes := [t, t], relinks := [(portOf x 2, 0, 1), (portOf x 3, 1, 1)], links := [] }
    else none
  | 3 =>
    if tx = tDUP ∧ ty = tDUP then
      if hLabel hx = hLabel hy then
        let r := (mkHeader tREL 1 0, (0 : Word), (0 : Word))
        some { makes := [r, r], relinks := [(portOf x 2, 0, 1), (portOf y 2, 0, 2), (portOf x 3, 1, 1), (portOf y 3, 1, 2)], links := [] }
      else
        let dx := (mkHeader tDUP 2 (hLabel hx), (0 : Word), (0 : Word))
        let dy := (mkHeader tDUP 2 (hLabel hy), (0 : Word), (0 : Word))
        some { makes := [dy, dy, dx, dx],
               relinks := [(portOf x 2, 0, 1), (portOf x 3, 1, 1), (portOf y 2, 2, 1), (portOf y 3, 3, 1)],
               links := [((0, 2), (2, 2)), ((0, 3), (3, 2)), ((1, 2), (2, 3)), ((1, 3), (3, 3))] }
    else none
  | 4 =>
    let rel? : Option (Word × Word × Word) := if tx = tREL then some (x, y, hy) else if ty = tREL then some (y, x, hx) else none
    rel?.map fun (r, o, h) =>
      let k := hArity h
      { makes := [(mkHeader (hType h) k (hLabel h) ||| word (bits h 7 0), s.nodeWord o 2, s.nodeWord o 3)],
        relinks := (portOf r 2, 0, 1) :: (List.range k).map fun i => (portOf o (i + 2), 0, i + 2), links := [] }
  | _ => none

/-- Makes the nodes of a plan at a core. -/
def State.makeNodes (s : State) (core : Nat) : List (Word × Word × Word) → List Word × State
  | [] => ([], s)
  | (h, a, b) :: r =>
    let (n, s) := s.ruleNode core h a b
    let (ns, s) := s.makeNodes core r
    (n :: ns, s)

/-- The ports of a node killed by a rule that are internal (R225): bound, once every relink has been performed, to a port of the other. -/
def State.internalPorts (s : State) (x y : Word) : List Word :=
  (List.range (1 + hArity (s.nodeWord x 0))).filterMap fun i =>
    let p := portOf x (i + 1)
    let w := s.portWord p
    if portState w = pBound ∧ nodeOf (linked w) = y then some p else none

/-- The count of a TILE that a rule changes: ERASE takes one, DUPTILE adds one; a count that falls to 0 is told to the TILE's home core
(R227). A count that cannot be changed is passed by, and the rule goes on: DESIGN CHOICE (log entry 130). -/
def State.ruleCount (s : State) (job gen code : Nat) (t : Word) : State :=
  let h := s.nodeWord t 0
  let a := s.nodeWord t 2
  let w3 := s.nodeWord t 3
  let home := netHome t
  if hType h ≠ tTILE ∨ !tileOk a w3 then s
  else
    match s.reachNow home job .both (countAddr a w3) 8 with
    | .error _ => s
    | .ok l =>
      if let some q := s.poisoned l 8 then s.lose job (engineLoss (some home) (countAddr a w3) q) else
      let (v, s) := s.stepCount l (code == 1)
      let w5 := s.rd64 (arenaHead home + 40)
      if code = 1 ∧ v = 0 ∧ bit w5 31 then s.sendJob job gen home home (bits w5 29 24) 2 [a, w3] else s

/-- The unit of a core performs a rule or none. -/
def State.setRule (s : State) (core : Nat) (r : Option RuleRun) : State := s.setCore core { s.core core with rule := r }

/-- A built-in rule begins at the detecting core (R227): a kill is sent to each node's home. -/
def State.beginRule (s : State) (job gen core code : Nat) (x y : Word) (plan : RulePlan) : State :=
  let s := s.setRule core (some ⟨x, y, code, plan, [], false, false⟩)
  ((s.unitSend job gen core x .nkill).unitSend job gen core y .nkill).later 1 none .ligatureTakePair (.num core)

/-- Both kills of a rule have been performed: its nodes are made, and then come the tile counts, the relinks, sent to the homes of their ports,
and the links. -/
def State.relinkRule (s : State) (job gen core : Nat) (r : RuleRun) : State :=
  let (ns, s) := s.makeNodes core r.plan.makes
  let r := { r with made := ns }
  let s := if r.code = 1 then (s.ruleCount job gen 1 r.x).ruleCount job gen 1 r.y
    else if r.code = 2 then s.ruleCount job gen 2 r.y else s
  let port (i j : Nat) : Word := portOf (r.made.getD i 0) j
  let s := r.plan.relinks.foldl (fun s l => s.unitSend job gen core l.1 (.relink (port l.2.1 l.2.2))) s
  let s := r.plan.links.foldl (fun s l => s.join job gen (port l.1.1 l.1.2) (port l.2.1 l.2.2)) s
  s.setRule core (some { r with killed := true })

/-- A rule ends: abandoned after a refused kill, with no node made, or, its relinks performed, with its internal ports settled and its nodes
published. -/
def State.endRule (s : State) (job gen core : Nat) (r : RuleRun) : State :=
  if r.refused then (s.netErr core).setRule core none
  else
    ((s.internalPorts r.x r.y ++ s.internalPorts r.y r.x).foldl State.settle (s.setRule core none)).sealAll job gen r.made

/-- The free nodes of a core's arena (R210). -/
def State.arenaFree (s : State) (core : Nat) : Nat := bits (s.rd64 (arenaHead core + 8)) 31 0

/-- A rule that the unit performs goes on once its link operations have been performed (R227); one whose nodes a thread has allocated between its
start and its kills waits until as many are free (log entry 128). -/
def State.stepRule (s : State) (job gen core : Nat) (r : RuleRun) : State :=
  let again (s : State) : State := s.later 1 none .ligatureTakePair (.num core)
  if s.unitBusy core then again s
  else if r.killed || r.refused then again (s.endRule job gen core r)
  else if s.arenaFree core < r.plan.makes.length then again s
  else again (s.relinkRule job gen core r)

/-- How many pairs of a cancelled core were fired before the cancel and are still to be taken (R229). -/
def State.setDue (s : State) (core n : Nat) : State := s.setCore core { s.core core with pairsDue := n }

/-- A pair goes back to the tail of the queue of its core for want of free nodes (R227). After a cancel it goes behind the pairs that were fired before
it, of which it stays one (R229). -/
def State.pairBack (s : State) (core : Nat) (x y : Word) : State :=
  let co := s.core core
  match co.pairq with
  | some l =>
    if co.cancelled ∧ co.pairsDue ≤ l.items.length ∧ l.items.length < 4096 then
      (s.putList core { l with items := l.items.take co.pairsDue ++ [[x, y]] ++ l.items.drop co.pairsDue }).setDue core (co.pairsDue + 1)
    else
      let t := s.queuePairs core (co.pairWait ++ [(x, y)])
      if co.cancelled then t.setDue core (co.pairsDue + 1) else t
  | none => s

/-- Whether a rule entry sends its pair to a core outside the rectangle of its job (R212, log entry 40). -/
def State.ruleAway (s : State) (job : Nat) (e : Word) : Bool :=
  bits e 63 62 == 1 && bits e 23 22 == 0 && match coreOfField (bits e 14 0) with
    | some t => !s.inRect job t
    | none => true

/-- What the ligature unit does with the next pair of its queue (R214). A poisoned rule entry loses the job (R358); an entry whose DEST lies
outside the job's rectangle counts in ERRS and sends nothing (log entry 40). -/
def State.actOn (s : State) (job core : Nat) (p : List Word) : State :=
  let gen := (s.core core).gen
  let (x, y) := s.orderPair (p.getD 0 0) (p.getD 1 0)
  let t1 := hType (s.nodeWord x 0)
  let t2 := hType (s.nodeWord y 0)
  match s.ruleSpoiled job core t1 t2, s.ruleEntry job core t1 t2 with
  | some q, _ => s.lose job (engineLoss (some core) (word (s.ruleVa core t1 t2)) q)
  | none, none => (s.netErr core).stuck job gen core x y
  | none, some e =>
    if !ruleOk e || s.ruleAway job e then (s.netErr core).stuck job gen core x y
    else if bits e 63 62 = 1 then
      let target := match bits e 23 22 with
        | 0 => (coreOfField (bits e 14 0)).getD core
        | 1 => netHome x
        | 2 => netHome y
        | _ => core
      s.sendPair job gen core target (bits e 21 16) x y
    else if bits e 63 62 = 2 then
      match s.rulePlan (bits e 55 52) x y with
      | none => s.stuck job gen core x y
      | some plan =>
        if s.arenaFree core < plan.makes.length then (s.pairBack core x y).later 8 none .ligatureTakePair (.num core)
        else s.beginRule job gen core (bits e 55 52) x y plan
    else s.stuck job gen core x y

/-- LIGATURE_TAKE_PAIR (R214): the oldest pair of the queue is taken while fewer than eight are on their way, no built-in rule is under way and
no hold is in force (log entry 116). Of a cancelled job only the pairs fired before the cancel reached the core are taken (R229). -/
def execLigatureTakePair (s : State) : Out :=
  match s.arg with
  | .num core =>
    let co := s.core core
    match co.owner, co.pairq, co.rule with
    | some job, _, some r => .next (s.stepRule job co.gen core r)
    | some job, some l, none =>
      if !l.live || l.count == 0 || co.held || (co.cancelled && co.pairsDue == 0) then .next s
      else if 8 ≤ s.pairsOut core then .next (s.later 1 none .ligatureTakePair (.num core))
      else
        match s.spillLoss l (1 - l.items.length) false, s.takeItems l 1 with
        | some q, _ => .next (s.lose job (engineLoss (some core) l.spill q))
        | none, .error c => .next (s.putList core (l.fault c))
        | none, .ok (items, l) =>
          let s := (s.putList core l).moveLater core l
          let s := s.setCore core { s.core core with pairsDue := (s.core core).pairsDue - 1 }
          let s := if co.pairWait.isEmpty then s else s.later 1 none .pairEnqueueRetry (.num core)
          let s := if l.count = 0 then s else s.later 1 none .ligatureTakePair (.num core)
          .next (s.actOn job core (items.headD []))
    | _, _, _ => .next s
  | _ => .next s

/-! ## TEND (R188, R226) -/

/-- Whether a port of a killed node is internal (R225): bound to a port of another node that the same context killed. -/
def State.internalTo (s : State) (c : CtxId) (x : Word) (p : Word) : Bool :=
  let w := s.portWord p
  let y := nodeOf (linked w)
  let h := s.nodeWord y 0
  portState w == pBound && y != x && hLife h == 3 && hOwner h == ownerOf c && hLife (s.nodeWord x 0) == 3
    && hOwner (s.nodeWord x 0) == ownerOf c

/-- The first failure of the state checks of an entry: the address, REASON and the port index (R226). An allocated node fails while it is still
building by this context; once it has been live, another rewrite may have consumed it, as NET-SEVEN's N123 may be (log entry 90). A killed node whose
ports have all settled has been freed (R225) and does not fail. -/
def State.entryFailure (s : State) (c : CtxId) (r : Rewrite) : Option (Word × Nat × Nat) :=
  let h := s.nodeWord r.node 0
  if !r.killed then (if hLife h = 1 ∧ hOwner h = ownerOf c then some (r.node, 1, 0) else none)
  else if hLife h ≠ 3 ∨ hOwner h ≠ ownerOf c then none
  else
    ((List.range (1 + hArity h)).map fun i => portOf r.node (i + 1)).findSome? fun p =>
      if portState (s.portWord p) = pFwd ∨ s.internalTo c r.node p then none else some (p, 2, portIndex p)

/-- The index of a held refusal that names an entry's node or one of its ports. -/
def Ctx.refusalOf (x : Ctx) (n : Word) : Option Nat := x.refusals.findIdx? fun f => nodeOf f.addr == n

/-- A DANGLING_PORT trap (R226). -/
def dangling (a : Word) (reason index : Nat) : Trap := exact cDangling a (word (index * 16 + reason))

/-- The port index that a refusal reports: that of the port for LINK and RELINK, 0 for a node. -/
def HeldRefusal.index (f : HeldRefusal) : Nat := if f.reason = 4 ∨ f.reason = 5 then portIndex f.addr else 0

/-- The linearity check (R226): the first failure, with the refusal that it reports. -/
def State.linearity (s : State) (c : CtxId) : List Rewrite → Option (Trap × Option Nat)
  | [] =>
    match (s.ctx c).refusals with
    | [] => none
    | f :: _ => some (dangling f.addr f.reason f.index, some 0)
  | r :: rs =>
    let x := s.ctx c
    match x.refusalOf r.node with
    | some i =>
      match x.refusals[i]? with
      | some f => some (dangling f.addr f.reason f.index, some i)
      | none => s.linearity c rs
    | none =>
      match s.entryFailure c r with
      | some (a, reason, index) => some (dangling a reason index, none)
      | none => s.linearity c rs

/-- The internal ports of the nodes that a thread killed (R225). -/
def State.ownInternal (s : State) (c : CtxId) : List Word :=
  (s.ctx c).rewrites.flatMap fun r =>
    if !r.killed then []
    else ((List.range (1 + hArity (s.nodeWord r.node 0))).map fun i => portOf r.node (i + 1)).filter (s.internalTo c r.node)

/-- TEND (R188, R226): it waits for results, journal entries and link operations, releases once other parts have cleared its marks (R154), checks the rewrite list, settles its internal
ports, and frees the context. -/
def execTend (_ : K0) (s : State) : Out :=
  s.issue ⟨true, none, []⟩ fun s c =>
    let x := s.ctx c
    if s.unsettledJournal c then .ok s
    else
      let x := x.reachOnce s.cycle (s.canBlock c)
      let s := (s.setCtx c x).clearMarks c x.region .dom
      if s.peersOwe c x.region then .ok s
      else
      match s.linearity c x.rewrites with
      | some (t, i) =>
        let refusals := match i with
          | some i => x.refusals.eraseIdx i
          | none => x.refusals
        .ok ((s.setCtx c { x with refusals := refusals }).raise c t)
      | none => .ok (((s.ownInternal c).foldl State.settle s).freeCtx c)

end Sys2Proof.Machine
end

