-- ==== Sys2Proof/Machine/Sched.lean ====
section
/-!
DEFINITION. Scheduling of whole jobs (R306-R317): the schedule window, holds and pre-emption, quiescence, the save and restore of a
switched-out job with its inbox, and the watchdog.
-/
namespace Sys2Proof.Machine

open Sys2Proof

/-! ## The schedule window (R311, R312) -/

/-- The two data words of a 16-byte store. -/
def Op.data0 (o : Op) : Word :=
  match o.body with
  | .store _ _ d => d.truncate 64
  | _ => 0

def Op.data1 (o : Op) : Word :=
  match o.body with
  | .store _ _ d => (d >>> 64).truncate 64
  | _ => 0

/-- The job that a schedule command names. -/
def Op.schedJob (o : Op) : Nat := bits o.data0 5 0

/-- OP of a schedule command. -/
def Op.schedOp (o : Op) : Nat := bits o.data0 23 20

/-- The schedule states in which a command is accepted (R312). -/
def schedAccepts (op : Nat) (st : Sched) : Bool :=
  match op with
  | 1 => st == .resident
  | 2 => st == .resident
  | 3 => st == .switchedOut
  | 4 => st == .quiesced
  | 5 => st == .quiescing || st == .quiesced || st == .switching
  | _ => false

/-- Whether the fields of a command obey R311: the reserved bits, ICAP and SAVE. -/
def schedFieldsOk (d0 d1 : Word) : Bool :=
  let op := bits d0 23 20
  let save := if op = 2 ∨ op = 3 then bits d1 63 52 == 0 && bits d1 15 0 == 0 else d1 == 0
  bits d0 63 48 == 0 && bits d0 31 24 == 0 && bits d0 19 16 == 0 && save
    && (if op = 2 then bits d0 47 32 != 0 else bits d0 47 32 == 0)

/-- The step of a schedule command. -/
def schedStep (op : Nat) : Instr :=
  match op with
  | 1 => .quiesce
  | 2 => .switchOut
  | 3 => .switchIn
  | 4 => .releaseJob
  | _ => .abortSwitch

/-- The bytes of a save area: the inbox rounded up to 64 KiB, and 10,752 KiB for each cluster (R311). -/
def saveBytes (icap clusters : Nat) : Nat := (64 + 64 * icap + 65535) / 65536 * 65536 + 10752 * 1024 * clusters

/-- A command at the schedule window of a cluster (R312): refused with PROTECT, or accepted; its entry stays in flight until it
completes. A switch-in must name the save area of its job, whose clusters no other job holds, and the save area of a switch-out must lie in memory
(log entry 24). -/
def State.schedWindow (s : State) (o : Op) (k : Nat) : State :=
  let n := o.schedJob
  let op := o.schedOp
  let j := s.job n
  let mine := n != 0 && s.stampOk n (bits o.data0 15 6) && k == 12 * j.cy + j.cx
  let room := op != 2 || decide (o.data1.toNat + saveBytes (bits o.data0 47 32) (j.cw * j.ch) ≤ Config.hbmBytes)
  let fits := op != 3 || (o.data1 == word j.save && (s.rectCores n).all fun c => (s.core c).owner.isNone)
  if !schedFieldsOk o.data0 o.data1 || !mine || !schedAccepts op j.sched || (op ≤ 3 && j.cmd.isSome) || !fits || !room then
    s.answer o (.refused cProtect 0 0)
  else
    let j := match op with
      | 1 => { j with cmd := some o.id, sched := .quiescing }
      | 2 => { j with cmd := some o.id, sched := .switching, save := o.data1.toNat, icap := bits o.data0 47 32 }
      | 3 => { j with cmd := some o.id }
      | _ => j
    (s.setJob n j).later 0 none (schedStep op) (.num o.id)

/-- A schedule command completes: its entry is accepted. -/
def State.schedDone (s : State) (id : Nat) : State :=
  match s.op id with
  | none => s
  | some o => s.answer o (.done 0)

/-! ## Holds (R310, R313) -/

/-- A command of the job that an operation names, while it is the job's command. -/
def State.schedOf (s : State) (id : Nat) : Option (Nat × Job) :=
  match s.op id with
  | none => none
  | some o => if (s.job o.schedJob).cmd = some id then some (o.schedJob, s.job o.schedJob) else none

/-- Holds travel to every core of the rectangle; none begins while a member of a co-resident set is still to start or stands in a continuation
(R310). -/
def State.beginHold (s : State) (id : Nat) (what : Instr) : State :=
  match s.schedOf id with
  | none => s
  | some (n, j) =>
    if !(j.coset.isEmpty && j.comembers.isEmpty) && j.st == .live then s.later 8 none what (.num id)
    else
      let corner := coreAt (4 * j.cx) (2 * j.cy)
      let s := (s.rectCores n).foldl (fun s c => s.later (4 + hops corner c / 4) none .holdArrive (.pair n c)) s
      s.later 64 none .quiesced (.num n)

/-- QUIESCE (R311, R313): OP 1. -/
def execQuiesce (s : State) : Out :=
  match s.arg with
  | .num id => .next (s.beginHold id .quiesce)
  | _ => .next s

/-- SWITCH_OUT (R311, R313): OP 2. -/
def execSwitchOut (s : State) : Out :=
  match s.arg with
  | .num id => .next (s.beginHold id .switchOut)
  | _ => .next s

/-- HOLD_ARRIVE (R313): the hold of a quiesce or switch-out begins on a core. -/
def execHoldArrive (s : State) : Out :=
  match s.arg with
  | .pair job core =>
    let co := s.core core
    let st := (s.job job).sched
    if co.owner = some job ∧ (st = .quiescing ∨ st = .switching) then .next (s.setCore core { co with held := true })
    else .next s
  | _ => .next s

/-- Whether a step of the agenda is a command of a job on its way to an engine, or a protocol message of its nets. -/
def engineDue (job : Nat) (d : Due) : Bool :=
  match d.arg with
  | .cmd c => c.job == job
  | .net n => n.job == job
  | _ => false

/-- Whether an operation of a continuation waits at its core or its home for its word or its list (R164, R288, R401). -/
def State.waiting (s : State) (o : Op) : Bool :=
  o.record.isSome && (o.parked || s.agenda.any fun d => (d.what == .feRetry || d.what == .wlPopRetry) && d.arg == .num o.id)

/-- Whether quiescence awaits an operation: not a message, which a held core may answer "full" and which changes nothing while its job is
quiesced, nor one that waits for a word or a list, or is held behind one that does (R313, R401). -/
def State.unquiet (s : State) (o : Op) : Bool :=
  !o.body.isMessage && !s.waiting o && !(o.record.isSome && !o.left && s.ops.any fun p => p.record == o.record && s.waiting p)

/-- Whether a job is quiesced (R313): the hold is on every core; every context is FREE; the journals and command queues are empty, and KIND 7
continuations hold their results; every engine is idle, and the ligature units have no rule under way. -/
def State.isQuiet (s : State) (job : Nat) : Bool :=
  let cores := s.coresOf job
  (cores.all fun c =>
    let co := s.core c
    co.held && co.copyq.isEmpty && co.rule.isNone && (s.coreCtxs c).all fun x => (s.ctx x).st == .free)
    && ((cores.map clusterOf).eraseDups.all fun k =>
      let cl := s.cluster k
      cl.mxq.isEmpty && !cl.mxBusy && cl.gatherq.all fun g => g.1.job != job)
    && !(s.ops.any fun o => o.job == job && s.unquiet o) && !(s.agenda.any (engineDue job))

/-- QUIESCED (R313, R314): at quiescence OP 1 completes, and OP 2 goes on to its save; until then the condition is looked at again. -/
def execQuiesced (s : State) : Out :=
  match s.arg with
  | .num n =>
    let j := s.job n
    match j.cmd with
    | none => .next s
    | some id =>
      if j.sched != .quiescing && j.sched != .switching then .next s
      else if !s.isQuiet n then .next (s.later 64 none .quiesced (.num n))
      else if j.sched == .quiescing then .next ((s.setJob n { j with sched := .quiesced, cmd := none }).schedDone id)
      else .next (s.later 1024 none .switchOutSaveDone (.num n))
  | _ => .next s

/-- The holds of a rectangle are lifted: its feeds deal again, and its ligature units take pairs again (R214). -/
def State.liftHolds (s : State) (job : Nat) : State :=
  let s := (s.coresOf job).foldl (fun s c =>
    let s := s.setCore c { s.core c with held := false }
    if (s.core c).pairq.isSome then s.later 1 none .ligatureTakePair (.num c) else s) s
  (s.subs.filter fun x => x.job == job).foldl (fun s x => s.feedKick x) s

/-- RELEASE (R312, R314): OP 4: a quiesced job runs on. -/
def execReleaseJob (s : State) : Out :=
  match s.arg with
  | .num id =>
    match s.op id with
    | none => .next s
    | some o =>
      let n := o.schedJob
      if (s.job n).sched != .quiesced then .next (s.answer o (.refused cProtect 0 0))
      else .next (((s.setJob n { s.job n with sched := .resident }).liftHolds n).schedDone id)
  | _ => .next s

/-- ABORT (R312, R314): OP 5: the hold is lifted at any point before completion; the aborted command completes with it and saves
nothing. -/
def execAbortSwitch (s : State) : Out :=
  match s.arg with
  | .num id =>
    match s.op id with
    | none => .next s
    | some o =>
      let n := o.schedJob
      let j := s.job n
      if !schedAccepts 5 j.sched then .next (s.answer o (.refused cProtect 0 0))
      else
        let s := match j.cmd with
          | some c => s.schedDone c
          | none => s
        .next (((s.setJob n { j with sched := .resident, cmd := none }).liftHolds n).schedDone id)
  | _ => .next s

/-! ## Switching out (R311, R314, R315) -/

/-- Whether a location is part of what is saved for some cores and clusters: granules 1 to 255 of their pools, and their stores. -/
def savedLoc (cores clusters : List Nat) (loc : Nat) : Bool :=
  if 2 ^ 42 ≤ loc then clusters.contains ((loc - 2 ^ 42) / 2 ^ 21)
  else decide (2 ^ 40 ≤ loc) && cores.contains ((loc - 2 ^ 40) / 2 ^ 20) && decide (4096 ≤ (loc - 2 ^ 40) % 2 ^ 20)

/-- What a switch-out takes off the clusters of a job. -/
def State.capture (s : State) (job : Nat) : Saved :=
  let cores := s.coresOf job
  let clusters := (cores.map clusterOf).eraseDups
  let mine := savedLoc cores clusters
  { job := job, cores := cores.map fun c => (c, s.core c)
    ctxs := cores.flatMap fun c => (s.coreCtxs c).map fun x => (x, s.ctx x)
    engines := clusters.map fun k => (k, (s.cluster k).mx)
    mem := s.mem.filter fun c => mine c.1
    empty := s.empty.filter fun w => mine (8 * w)
    vague := s.vague.filter fun r => mine r.base
    marks := s.marks.filter fun m => mine (64 * m.line)
    waiters := s.waiters.filter fun w => w.job == job && mine w.loc
    subs := s.subs.filter fun x => x.job == job }

/-- The job's cores and clusters become free, and what has been saved of its homes leaves them. -/
def State.vacate (s : State) (job : Nat) : State :=
  let cores := s.coresOf job
  let clusters := (cores.map clusterOf).eraseDups
  let mine := savedLoc cores clusters
  let s := clusters.foldl State.evictCluster (cores.foldl State.evictCore s)
  let s := cores.foldl (fun s c => s.setCore c { s.core c with
    owner := none, gen := 0, cancelled := false, tags := 0, tagfault := 0, fresh := (0, 0, 0), jnext := 0, exhaustedAt := none }) s
  { s with
    marks := s.marks.filter fun m => !(mine (64 * m.line))
    waiters := s.waiters.filter fun w => !(w.job == job && mine w.loc)
    subs := s.subs.filter fun x => x.job != job }

/-- The inbox of a job that has just been switched out (R315): CAP, and everything else 0; the rest of the save area has no
architectural layout. -/
def State.openInbox (s : State) (save icap clusters : Nat) : State :=
  let s := s.makeVague (save + 64 + 64 * icap) (saveBytes icap clusters - (64 + 64 * icap))
  s.wrWords save [word (icap * 2 ^ 32), 0, 0, 0, 0, 0, 0, 0]

/-- The poisoned word that a save would read (R358). -/
def State.poisonedSave (s : State) (job : Nat) : Option Nat :=
  let cores := s.coresOf job
  let mine := savedLoc cores (cores.map clusterOf).eraseDups
  (s.poison.find? fun w => mine (8 * w)).map fun w => 8 * w

/-- SWITCH_OUT_SAVE_DONE (R314): the state of the rectangle stands in the save area, and the command completes. -/
def execSwitchOutSaveDone (s : State) : Out :=
  match s.arg with
  | .num n =>
    let j := s.job n
    let clusters := j.cw * j.ch
    match j.cmd with
    | none => .next s
    | some id =>
      if j.sched != .switching then .next s
      else if !s.isQuiet n then .next (s.later 64 none .quiesced (.num n))
      else if Config.hbmBytes < j.save + saveBytes j.icap clusters then .fault (.physicalHole (j.save + saveBytes j.icap clusters))
      else
        match s.poisonedSave n with
        | some l => .next (s.lose n (engineLoss none (paddrOf l) l))
        | none =>
          let v := s.capture n
          let s := (s.vacate n).openInbox j.save j.icap clusters
          let s := { s with saves := s.saves ++ [v] }
          .next ((s.setJob n { j with sched := .switchedOut, cmd := none }).schedDone id)
  | _ => .next s

/-! ## Switching in (R316, R318) -/

/-- Puts back what a switch-out took off, with the hold in force; the work that a core's own units had in hand goes on. A cancelled job's
cores know of the cancel, and its rings are dropped (R318). -/
def State.putBack (s : State) (v : Saved) : State :=
  let gone := (s.job v.job).st == .cancelled
  let cores := v.cores.map (·.1)
  let clusters := (cores.map clusterOf).eraseDups
  let mine := savedLoc cores clusters
  let s := v.cores.foldl (fun s p => s.setCore p.1 { p.2 with held := true }) s
  let s := v.ctxs.foldl (fun s p => s.setCtx p.1 p.2) s
  let s := v.engines.foldl (fun s p => s.setCluster p.1 { s.cluster p.1 with mx := p.2 }) s
  let s := { s with
    mem := v.mem.foldl (fun m c => mset 0 m c.1 c.2) (s.mem.filter fun c => !(mine c.1))
    empty := v.empty.foldl (fun e w => nset e w true) (s.empty.filter fun w => !(mine (8 * w)))
    vague := (s.vague.filter fun r => !(mine r.base)) ++ v.vague
    poison := s.poison.filter fun w => !(mine (8 * w))
    marks := (s.marks.filter fun m => !(mine (64 * m.line))) ++ v.marks
    waiters := s.waiters ++ v.waiters
    subs := s.subs ++ v.subs
    saves := s.saves.filter fun w => w.job != v.job }
  let s := v.cores.foldl (fun s p =>
    let s := if p.2.pairWait.isEmpty then s else s.later 1 none .pairEnqueueRetry (.num p.1)
    p.2.lists.foldl (fun s l => s.moveLater p.1 l) s) s
  if gone then v.cores.foldl (fun s p => s.later 0 none .cancelArrive (.pair v.job p.1)) s else s

/-- SWITCH_IN (R316): the saved state is restored, and then the inbox is delivered. -/
def execSwitchIn (s : State) : Out :=
  match s.arg with
  | .num id =>
    match s.schedOf id with
    | none => .next s
    | some (n, _) =>
      match s.saves.find? fun v => v.job == n with
      | none => .next s
      | some v => .next ((s.putBack v).later 1024 none .inboxDeliver (.num n))
  | _ => .next s

/-- A ring entry's whole acceptance time from the low 32 bits of CYCLE that an inbox entry keeps. -/
def wholeTime (now low : Nat) : Nat := now - (now + 2 ^ 32 - low) % 2 ^ 32

/-- The target core and the ring entry of an inbox entry (R184, R315). -/
def inboxEntry (now order : Nat) (w : List Word) : Nat × RingEntry :=
  let at' (i : Nat) : Word := w.getD i 0
  let body : MsgBody := match bits (at' 0) 1 0 with
    | 0 => .start (bits (at' 0) 9 4) (bits (at' 0) 12 10) ((w.drop 4).take (bits (at' 0) 12 10))
    | 1 => .recreate (at' 2)
    | _ => .wake (at' 2).toNat (at' 3)
  ((coreOfField (bits (at' 1) 46 32)).getD 0,
   { time := wholeTime now (bits (at' 0) 63 32), order := order, base := bits (at' 0) 3 2, job := bits (at' 1) 21 16,
     gen := bits (at' 1) 31 22, sender := bits (at' 1) 14 0, body := body })

/-- The job is resident again: its command completes and the hold lifts (R316). -/
def State.switchedIn (s : State) (n : Nat) : State :=
  let j := s.job n
  let s := match j.cmd with
    | some id => s.schedDone id
    | none => s
  (s.setJob n { j with sched := .resident, cmd := none }).liftHolds n

/-- INBOX_DELIVER (R316): the oldest inbox entry goes into the ring of its target; a full ring makes it and those behind it wait. An empty
inbox completes the switch-in. -/
def execInboxDeliver (s : State) : Out :=
  match s.arg with
  | .num n =>
    let j := s.job n
    if j.sched != .switchedOut || j.cmd.isNone then .next s
    else if s.read j.save 4 = 0 then .next (s.switchedIn n)
    else
      let head := s.read (j.save + 12) 4
      let (c, e) := inboxEntry s.cycle s.nextId (s.rdWords (j.save + 64 + 64 * head) 8)
      let co := s.core c
      match ringSlot co.ring e.body with
      | none => .next (s.later 8 none .inboxDeliver (.num n))
      | some i =>
        let s := { s.setCore c { co with ring := mset none co.ring i (some e) } with nextId := s.nextId + 1 }
        let s := (s.write j.save 4 (s.read j.save 4 - 1)).write (j.save + 12) 4 ((head + 1) % max 1 j.icap)
        .next (s.later 1 none .inboxDeliver (.num n))
  | _ => .next s

/-! ## Pre-emption and the watchdog (R307, R308) -/

/-- Whether a thread waits under R46 at a blocking point of KIND 7 (R306): a fallible or a message-plane operation is outstanding, no wait
on a word or list that has a kind of its own, and nothing that keeps it from becoming a continuation. -/
def State.atMarkerBlock (s : State) (c : CtxId) : Bool :=
  let x := s.ctx c
  let ops := s.opsOf c
  let own (b : OpBody) : Bool := match b with
    | .fullEmpty fn _ => decide (fn ≤ 2)
    | .wlpopb _ _ => true
    | _ => false
  x.st == .marker && x.busy == .idle && s.mayBlock c && (ops.any fun o => o.fallible || o.body.isMessage)
    && !(ops.any fun o => own o.body && !o.performed)

/-- PREEMPT (R307): under a hold, a thread at a marker wait becomes a continuation of KIND 7 (R47). -/
def execPreempt (s : State) : Out :=
  match s.arg with
  | .ctx c =>
    if !(s.core c.core).held || !s.atMarkerBlock c then .next s
    else
      match s.intoPool c 7 (s.ctx c).pc 0 false with
      | some (_, s) => .next s
      | none => .next (s.poolFails c)
  | _ => .next s

/-- The count of R308. -/
def State.watchCount (s : State) (c : CtxId) : Nat := s.cycle - (s.ctx c).since

/-- Whether a WATCHDOG trap is due: the count has reached a multiple of WDLIMIT since the last one was taken (R308). -/
def State.watchDue (s : State) (c : CtxId) : Bool :=
  let x := s.ctx c
  let wd := (s.job (s.jobOf c.core)).wdlimit
  decide (0 < wd) && !x.intrap && decide (x.watched / wd < s.watchCount c / wd)

/-- WATCHDOG (R308): an asynchronous trap with TRAPVAL the count. -/
def execWatchdog (s : State) : Out :=
  match s.arg with
  | .ctx c =>
    let x := s.ctx c
    if (x.st ≠ .running ∧ x.st ≠ .stalled) ∨ !s.watchDue c then .next s
    else
      let n := s.watchCount c
      .next ((s.setCtx c { x with watched := n }).takeTrap c ⟨.asynchronous, cWatchdog, word n, 0, none⟩)
  | _ => .next s

end Sys2Proof.Machine
end

