-- ==== Sys2Proof/Machine/Memory.lean ====
section
/-!
DEFINITION. The instructions that access memory (R148-R174): loads and stores, full/empty operations, atomics, FENCE and PREF, STC
with its scan, and LDX.
-/
namespace Sys2Proof.Machine

open Sys2Proof

/-! ## Operand forms -/

/-- The effective address of format M (R37). -/
def effAddr (a : Word) (p : BitVec 8) (size : Nat) : Word := a + wordI (p.toInt * size)

/-- The ordering fields of an operation at an address (R37, R145). -/
def Op.ordered (o : Op) (ord : MOrd) : Op := { o with ord := ord, scope := scopeOf o.addr }

/-- A load of `size` bytes (R148). -/
def formLoad (sm : Bool) (dst : Reg) (a : BitVec 6) (ord : MOrd) (p : BitVec 8) (size : Nat) (w : IWord) (s : State) : Out :=
  s.issue ⟨sm, none, [dst, gr a]⟩ fun s c =>
    let o := s.newOp c w (effAddr ((s.ctx c).getG a.toNat) p size) (.load size) (some dst)
    s.access c { o.ordered ord with plain := ord == .plain }

/-- A store of `size` bytes of a register (R148, R163). -/
def formStore (sm : Bool) (src : Reg) (a : BitVec 6) (ord : MOrd) (p : BitVec 8) (kind size : Nat) (w : IWord) (s : State) : Out :=
  s.issue ⟨sm, none, [src, gr a]⟩ fun s c =>
    let x := s.ctx c
    let data : Vec := match src with
      | .g n => (x.getG n).zeroExtend 128
      | .v n => x.getV n
    let o := s.newOp c w (effAddr (x.getG a.toNat) p size) (.store kind size (data &&& BitVec.ofNat 128 (2 ^ (8 * size) - 1))) none
    s.access c { o.ordered ord with plain := ord == .plain }

/-- LDF, LDT and STW (R163). -/
def formFE (o : MemW) (fn : Nat) (reads : Bool) (w : IWord) (s : State) : Out :=
  s.issue ⟨o.s, none, [gr o.d, gr o.a]⟩ fun s c =>
    let x := s.ctx c
    let data := if reads then 0 else x.getG o.d.toNat
    let p := s.newOp c w (effAddr (x.getG o.a.toNat) o.p 8) (.fullEmpty fn data) (if reads then some (gr o.d) else none)
    s.access c (p.ordered o.o)

/-- FEE and FEQ (R163). -/
def formFEProbe (o : KADO) (fn : Nat) (w : IWord) (s : State) : Out :=
  s.issue ⟨o.s, none, [gr o.a, gr o.d]⟩ fun s c =>
    s.access c ((s.newOp c w ((s.ctx c).getG o.a.toNat) (.fullEmpty fn 0) (some (gr o.d))).ordered o.o)

/-- AMO (R168). -/
def formAmo (o : KABDO) (fn : Nat) (w : IWord) (s : State) : Out :=
  s.issue ⟨o.s, none, [gr o.a, gr o.b, gr o.d]⟩ fun s c =>
    let x := s.ctx c
    s.access c ((s.newOp c w (x.getG o.a.toNat) (.amo fn (x.getG o.b.toNat)) (some (gr o.d))).ordered o.o)

/-! ## Loads and stores (R148) -/

/-- LD. -/
def execLd (o : MemF) (s : State) : Out := formLoad o.s (gr o.d) o.a o.o o.p o.z.bytes (firstWord (.ld o)) s

/-- ST. -/
def execSt (o : MemF) (s : State) : Out := formStore o.s (gr o.d) o.a o.o o.p 0 o.z.bytes (firstWord (.st o)) s

/-- LDV. -/
def execLdv (o : MemV) (s : State) : Out := formLoad o.s (vr o.d) o.a o.o o.p 16 (firstWord (.ldv o)) s

/-- STV. -/
def execStv (o : MemV) (s : State) : Out := formStore o.s (vr o.d) o.a o.o o.p 1 16 (firstWord (.stv o)) s

/-! ## Full/empty words (R163) -/

/-- LDF. -/
def execLdf (o : MemW) (s : State) : Out := formFE o 0 true (firstWord (.ldf o)) s

/-- LDT. -/
def execLdt (o : MemW) (s : State) : Out := formFE o 1 true (firstWord (.ldt o)) s

/-- STF: posted as a store is (R163). -/
def execStf (o : MemW) (s : State) : Out := formStore o.s (gr o.d) o.a o.o o.p 2 8 (firstWord (.stf o)) s

/-- STW. -/
def execStw (o : MemW) (s : State) : Out := formFE o 2 false (firstWord (.stw o)) s

/-- FEE. -/
def execFee (o : KADO) (s : State) : Out := formFEProbe o 3 (firstWord (.fee o)) s

/-- FEQ. -/
def execFeq (o : KADO) (s : State) : Out := formFEProbe o 4 (firstWord (.feq o)) s

/-! ## Atomics (R168, R169) -/

/-- AMO.add. -/
def execAmoAdd (o : KABDO) (s : State) : Out := formAmo o 0x03 (firstWord (.amoAdd o)) s

/-- AMO.and. -/
def execAmoAnd (o : KABDO) (s : State) : Out := formAmo o 0x04 (firstWord (.amoAnd o)) s

/-- AMO.or. -/
def execAmoOr (o : KABDO) (s : State) : Out := formAmo o 0x05 (firstWord (.amoOr o)) s

/-- AMO.xor. -/
def execAmoXor (o : KABDO) (s : State) : Out := formAmo o 0x06 (firstWord (.amoXor o)) s

/-- AMO.min.s. -/
def execAmoMinS (o : KABDO) (s : State) : Out := formAmo o 0x07 (firstWord (.amoMinS o)) s

/-- AMO.min.n. -/
def execAmoMinN (o : KABDO) (s : State) : Out := formAmo o 0x08 (firstWord (.amoMinN o)) s

/-- AMO.max.s. -/
def execAmoMaxS (o : KABDO) (s : State) : Out := formAmo o 0x09 (firstWord (.amoMaxS o)) s

/-- AMO.max.n. -/
def execAmoMaxN (o : KABDO) (s : State) : Out := formAmo o 0x0A (firstWord (.amoMaxN o)) s

/-- AMO.swap. -/
def execAmoSwap (o : KABDO) (s : State) : Out := formAmo o 0x0B (firstWord (.amoSwap o)) s

/-- AMO.fadd. -/
def execAmoFadd (o : KABDO) (s : State) : Out := formAmo o 0x0C (firstWord (.amoFadd o)) s

/-- CAS: g[D] holds the expected value (R169). -/
def execCas (o : KABDO) (s : State) : Out :=
  s.issue ⟨o.s, none, [gr o.a, gr o.b, gr o.d]⟩ fun s c =>
    let x := s.ctx c
    let body : OpBody := .cas (x.getG o.d.toNat) (x.getG o.b.toNat)
    s.access c ((s.newOp c (firstWord (.cas o)) (x.getG o.a.toNat) body (some (gr o.d))).ordered o.o)

/-! ## FENCE and PREF -/

/-- FENCE (R170): the fence stands among the thread's operations until its conditions hold. -/
def execFence (o : KFence) (s : State) : Out :=
  s.issue ⟨o.s, none, []⟩ fun s c =>
    let p := { s.newOp c (firstWord (.fence o)) 0 .fence none with ord := o.o, scope := o.c }
    let s := (s.addOp p).later 1 none .markClear (.num p.id)
    .ok (s.retire c fun x => if p.releases then { x with region := x.region + 1 } else x)

/-- PREF (R171): a DEVICE address that the cluster's TLB does not hold asks for a walk; nothing else changes. -/
def execPref (o : KA) (s : State) : Out :=
  s.issue ⟨o.s, none, [gr o.a]⟩ fun s c =>
    let s' := match s.place c.core ((s.ctx c).getG o.a.toNat) with
      | .ok (.device va) =>
        if (s.tlbHit (clusterOf c.core) (s.jobOf c.core) va).isSome then s else s.addMiss (clusterOf c.core) (s.jobOf c.core) va [.nothing]
      | _ => s
    .ok (s'.retire c id)

/-! ## STC and LDX -/

/-- COUNT, TY and the element bytes of an STC control word (R173). -/
def stcCount (w : Word) : Nat := bits w 15 0
def stcType (w : Word) : Nat := bits w 19 16
def stcBytes (w : Word) : Nat := stcCount w * tyBytes (stcType w)

/-- The checks of STC at issue (R173): control word, source range, reservation. -/
def State.stcTrap (s : State) (core : Nat) (src res w : Word) : Option Trap :=
  if bits w 31 20 ≠ 0 ∨ bits w 63 48 ≠ 0 ∨ stcCount w = 0 ∨ 4096 < stcCount w ∨ 10 < stcType w then some (exact cBounds w 0)
  else
    match s.rangeTrap core src (stcBytes w) (tyBytes (stcType w)) with
    | some t => some t
    | none => s.checkThen core res 16 16

/-- STC (R173): checked, and the scan begins in this slot. -/
def execStc (o : KABDO) (s : State) : Out :=
  s.issue ⟨true, none, [gr o.a, gr o.b, gr o.d]⟩ fun s c =>
    let x := s.ctx c
    let src := x.getG o.a.toNat
    let res := x.getG o.b.toNat
    let w := x.getG o.d.toNat
    match s.stcTrap c.core src res w with
    | some t => .error t
    | none =>
      .ok { s.setCtx c { x with busy := .stcScan o src res w [], handlerFirst := false, resumed := false } with
              slots := c.core :: s.slots }

/-- The end of the scan: the form is made, checked against the reservation, and written through its home (R173). -/
def State.stcFinish (s : State) (c : CtxId) (i : KABDO) (src res w : Word) (got : List Byte) : Except Trap State :=
  let form := packForm (stcType w) (stcCount w) got
  if bits w 47 32 < form.length then .error (exact cOverrun res (word form.length))
  else
    match if isSelf res then s.firstBad (s.jobOf c.core) c.core (bits res 19 0) form.length else none with
    | some t => .error t
    | none =>
      let o := s.newOp c (firstWord (.stc i)) res (.stc src w form) (some (gr i.d))
      let s := s.setCtx c { s.ctx c with busy := .idle }
      s.accessChecked c { o.ordered i.o with plain := true }

/-- STC_SCAN_STEP (R173): 16 bytes of the source, read as plain accesses, which wait while an earlier access of the thread orders them (R146, R155,
R170); the scan ends with its last byte. -/
def execStcScanStep (s : State) : Out :=
  match s.arg with
  | .ctx c =>
    match (s.ctx c).busy with
    | .stcScan i src res w got =>
      let off := bits src 19 0 + got.length
      let n := min 16 (stcBytes w - got.length)
      if s.poolHeld c then .next s
      else
      match s.markLines ⟨none, c⟩ (s.ctx c).region false (s.markable (poolLoc c.core off) n) with
      | (.conflict y, l) => .next (s.raise c (exact cRace (word (l * 64 - poolLoc c.core 0)) y.info))
      | (.full y, _) => .next (s.askRelease y)
      | (.ok s1, _) =>
       match s1.poisoned (poolLoc c.core off) n with
       | some l => .next (s1.lose (s1.jobOf c.core) (lossAt c (s1.ctx c).pc src l))
       | none =>
        let got := got ++ s1.seenBytes (poolLoc c.core off) n
        if got.length < stcBytes w then .next (s1.setCtx c { s1.ctx c with busy := .stcScan i src res w got })
        else
          match s1.stcFinish c i src res w got with
          | .ok s2 => .next s2
          | .error t => .next (s1.raise c t)
    | _ => .next s
  | _ => .next s

/-- LDX (R174). -/
def execLdx (o : KABDO) (s : State) : Out :=
  s.issue ⟨o.s, none, [gr o.a, gr o.b, gr o.d]⟩ fun s c =>
    let x := s.ctx c
    let a := x.getG o.a.toNat
    let dst := x.getG o.b.toNat
    let cap := x.getG o.d.toNat
    match s.checkThen c.core a 16 16, s.rangeTrap c.core dst (bits cap 31 0) 1 with
    | some t, _ => .error t
    | none, some t => .error t
    | none, none =>
      if bits cap 63 32 ≠ 0 then .error (exact cBounds cap 0)
      else
        let p := s.newOp c (firstWord (.ldx o)) a (.ldx dst cap) (some (gr o.d))
        s.accessChecked c { p.ordered o.o with plain := true }

end Sys2Proof.Machine
end

