-- ==== Sys2Proof/Machine/System.lean ====
section
/-!
DEFINITION. Traps and system instructions (R121-R142): TRAP, BRK and TRET, the CSR instructions and the writes of CSRs, JRNL, ICINV,
TLBINV, REPART, KILLJ and CANCELJ with the steps that complete them.
-/
namespace Sys2Proof.Machine

open Sys2Proof

/-! ## TRAP, BRK, TRET -/

/-- TRAP (R130): TRAPPC is the next instruction's address. -/
def execTrap (o : KTrap) (s : State) : Out :=
  s.issue ⟨true, none, [gr o.a]⟩ fun s c =>
    let x := s.ctx c
    .error { exact cSoftware (x.getG o.a.toNat) (word o.c.toNat) with pc := some (x.pc + 4) }

/-- BRK (R130). -/
def execBrk (o : KBrk) (s : State) : Out :=
  s.issue ⟨true, none, []⟩ fun _ _ => .error (exact cBreak 0 (word o.c.toNat))

/-- The entry of the fault list that TRET settles: the most recently reported one (R127). -/
def lastReported : List FaultEntry → Option FaultEntry
  | [] => none
  | f :: fs =>
    match lastReported fs with
    | none => if f.reported then some f else none
    | some g => if f.reported && decide (g.order < f.order) then some f else some g

/-- What a faulted operation becomes when it is to be issued again: ready, with its body; refused once more; held back, with TRET executed
again; or its data is lost. -/
inductive Replay where
  | ready (s : State) (b : OpBody)
  | refused (cause : Nat) (addr : Word)
  | hold (s : State)
  | lost (loc : Nat)
deriving DecidableEq, Repr

/-- The re-issue of a faulted operation: STC scans its source anew as its plain reads (R173), and is refused when its form no longer fits. A RACE of
that scan names the SELF offset of the source line: DESIGN CHOICE (log entry 126). -/
def State.replay (s : State) (c : CtxId) (o : Op) : Replay :=
  match o.body with
  | .stc src w _ =>
    let at' := poolLoc c.core (bits src 19 0)
    if s.poolHeld c then .hold s
    else
      match s.markLines ⟨none, c⟩ (s.ctx c).region false (s.markable at' (stcBytes w)) with
      | (.conflict _, l) => .refused cRace (word (l * 64 - poolLoc c.core 0))
      | (.full y, _) => .hold (s.askRelease y)
      | (.ok t, _) =>
        match t.poisoned at' (stcBytes w) with
        | some l => .lost l
        | none =>
          let form := packForm (stcType w) (stcCount w) (t.seenBytes at' (stcBytes w))
          if bits w 47 32 < form.length then .refused cOverrun o.addr else .ready t (.stc src w form)
  | b => .ready s b

/-- Issues a reported entry again with its recorded address and source values (R127); its destination becomes pending. An answer in `error` is
the state in which TRET has not been performed. -/
def State.reissue (s : State) (c : CtxId) (f : FaultEntry) : Except State State :=
  let x := s.ctx c
  let turns := x.feretry.toNat * ctxCount (s.core c.core).partword
  match s.replay c f.op with
  | .hold t => .error t
  | .lost l => .error (s.lose (s.jobOf c.core) (lossAt c f.op.pc f.op.addr l))
  | .refused cause a =>
    .ok (s.setCtx c { x with faults := x.faults.map fun g => if g = f then { g with reported := false, cause := cause, addr := a } else g })
  | .ready s b =>
    let x := s.ctx c
    let o := { f.op with ctx := c, thread := x.thread, record := none, body := b, region := x.region, replay := true, left := false,
                         loc := none, performed := false, parked := false, widx := none, wrec := none, deadline := s.cycle + turns }
    let x := { x with faults := x.faults.map fun g => if g = f then { g with reissued := true } else g }
    .ok ((s.setCtx c (x.pendDst o.dst)).launch { o with blocking := false })

/-- The journal entry of a core with an index. -/
def State.journalEntry (s : State) (core i : Nat) : Option Op := (s.journal core).find? fun o => o.jidx == some i

/-- Frees a journal entry (R124, R127): its store is given up, but one that has left the core goes on without its entry; one that MXSEND posted
frees its CT (R274). -/
def State.freeHeld (s : State) (c : CtxId) (i : Nat) : State :=
  match s.journalEntry c.core i with
  | none => s
  | some o =>
    let s := (if o.left && o.reason == 0 then s.setOp { o with jidx := none } else s.dropOp o.id).unstall c.core
    match o.mx, o.body with
    | true, .store _ _ d => s.dropTag c.core (bits ((d >>> 64).truncate 64) 63 58) true
    | _, _ => s

/-- What TRET does with the fault list and the journal (R127). -/
def State.settleTrap (s : State) (c : CtxId) : Except State State :=
  let x := s.ctx c
  let kind := bits x.trapcause 9 8
  let cause := bits x.trapcause 7 0
  match kind, lastReported x.faults with
  | 1, some f => s.reissue c f
  | 1, none => .ok s
  | 0, some f => .ok (if cause = f.cause ∧ x.trapval = f.addr then s.setCtx c { x with faults := x.faults.erase f } else s)
  | 2, _ => .ok (if cause = cJournal then s.freeHeld c (bits x.trapinfo 5 0) else s)
  | _, _ => .ok s

/-- TRET (R127). -/
def execTret (o : K0) (s : State) : Out :=
  s.issue ⟨true, none, []⟩ fun s c =>
    let x := s.ctx c
    if !x.intrap then .error (exact cIllegal ((firstWord (.tret o)).zeroExtend 64) 0)
    else if bits x.trappc 1 0 ≠ 0 then .error (exact cMisalign x.trappc 0)
    else
      match s.settleTrap c with
      | .error s => .ok s
      | .ok s => .ok (s.setCtx c { s.ctx c with intrap := false, pc := x.trappc, handlerFirst := false, resumed := true, blocked := false })

/-! ## CSRs (R17-R21, R131-R134) -/

/-- The code of a context's state (R133). -/
def CtxState.code : CtxState → Nat
  | .free => 0 | .running => 1 | .marker => 2 | .stalled => 3 | .frozen => 4

/-- The code of a die's state (R19). -/
def DieState.code : DieState → Nat
  | .off => 0 | .reset => 1 | .run => 2 | .hung => 3

/-- The code of the island's state (R19). -/
def IslState.code : IslState → Nat
  | .off => 0 | .boot => 1 | .forward => 2 | .full => 3 | .drain => 4

/-- JOBGEN.STATE (R133). -/
def JobState.code : JobState → Nat
  | .free => 0 | .live => 1 | .cancelled => 2 | .killed => 3

/-- The CSR numbers assigned below 0x100 (R18) and in the monitor's range (R133). -/
def csrAssigned (n : Nat) : Bool :=
  [0x000, 0x001, 0x002, 0x003, 0x004, 0x005, 0x006, 0x010, 0x011, 0x012, 0x013, 0x014, 0x015, 0x020, 0x021, 0x030, 0x031, 0x032,
   0x040, 0x041, 0x050, 0x060, 0x061, 0x070, 0x080, 0x100, 0x101, 0x102, 0x103, 0x104, 0x110, 0x111].contains n

/-- The CSRs that are read-only as a whole (R17, R19, R133). -/
def csrReadOnly (n : Nat) : Bool :=
  [0x001, 0x002, 0x003, 0x004, 0x005, 0x006, 0x060, 0x061, 0x070, 0x080, 0x104].contains n

/-- PRIVILEGE and ILLEGAL of a CSR access (R17, R54, R120). -/
def csrTrap (job : Nat) (w : IWord) (n : Nat) (writes : Bool) : Option Trap :=
  if 0x100 ≤ n ∧ n ≤ 0x1FF ∧ job ≠ 0 then some (exact cPrivilege (w.zeroExtend 64) (word n))
  else if !csrAssigned n || (writes && csrReadOnly n) then some (exact cIllegal (w.zeroExtend 64) 0)
  else none

/-- The oldest journal entry's index, or the next one where the journal is empty. -/
def State.journalHead (s : State) (core : Nat) : Nat :=
  match (s.journal core).head? with
  | some o => o.jidx.getD 0
  | none => (s.core core).jnext

/-- STATUS of a context (R19). -/
def State.statusWord (s : State) (c : CtxId) : Word :=
  let x := s.ctx c
  word (x.chan * 2 ^ 8 + x.prio * 2 ^ 6 + bitAt x.port 5 + bitAt x.mxsat 4 + bitAt (s.core c.core).cancelled 3 + bitAt x.intrap 2
    + bitAt (s.jobOf c.core == 0) 0)

/-- The context that CTXSEL names (R133); bit 14 takes no part, and where XY names no core, CTXCTL reads 0 and takes no THAW
(log entry 108). -/
def Ctx.selected (x : Ctx) : Option CtxId :=
  (coreOfField (nbits x.ctxsel.toNat 13 0)).map fun core => ⟨core, nbits x.ctxsel.toNat 19 16⟩

/-- The value of a CSR as a context reads it. -/
def State.csrRead (s : State) (c : CtxId) (n : Nat) : Word :=
  let x := s.ctx c
  let co := s.core c.core
  let j := s.job x.jobsel.toNat
  match n with
  | 0x000 => s.statusWord c
  | 0x001 => word c.k
  | 0x002 => word (xOf c.core * 128 + yOf c.core)
  | 0x003 => word (jobid (s.jobOf c.core) co.gen)
  | 0x004 => co.partword.zeroExtend 64
  | 0x005 => word s.cycle
  | 0x006 => word (ctxCount co.partword * 2 ^ 16 + ((s.coreCtxs c.core).map fun d => bitAt ((s.ctx d).st != .free) d.k).foldl (· + ·) 0)
  | 0x010 => x.trapvec
  | 0x011 => x.trappc
  | 0x012 => x.trapcause
  | 0x013 => x.trapval
  | 0x014 => x.trapinfo
  | 0x015 => x.trapsave
  | 0x020 => x.fcsr.zeroExtend 64
  | 0x021 => x.rndseed.zeroExtend 64
  | 0x030 => x.loopcnt.zeroExtend 64
  | 0x031 => x.loopstart
  | 0x032 => x.loopend
  | 0x040 => s.readTags c.core false
  | 0x041 => s.readTags c.core true
  | 0x050 => x.feretry.zeroExtend 64
  | 0x060 => word (s.journalHead c.core)
  | 0x061 => word (s.journal c.core).length
  | 0x070 => word ((s.die 3).code * 2 ^ 10 + (s.die 2).code * 2 ^ 8 + (s.die 1).code * 2 ^ 6 + (s.die 0).code * 2 ^ 4 + s.island.st.code)
  | 0x080 => word (s.cluster (clusterOf c.core)).health
  | 0x100 => x.jobsel.zeroExtend 64
  | 0x101 => j.ptroot
  | 0x102 => word (j.gen * 2 ^ 6 + bitAt j.pend 2 + j.st.code)
  | 0x104 => j.drop.zeroExtend 64
  | 0x110 => word (nbits x.ctxsel.toNat 19 16 * 2 ^ 16 + nbits x.ctxsel.toNat 14 0)
  | 0x111 =>
    match x.selected with
    | some d => word (s.ctx d).st.code
    | none => 0
  | _ => 0

/-! The writes of CSRs, each with the behaviour that R20, R133, R134 and R236 give it. -/

/-- A write of a CSR that has no behaviour of its own: the fields that software may write are taken, and the others keep their
values. -/
def State.writePlain (s : State) (c : CtxId) (n : Nat) (w : Word) : State :=
  let x := s.ctx c
  s.setCtx c (match n with
    | 0x000 => { x with port := bit w 5, mxsat := bit w 4 }
    | 0x010 => { x with trapvec := word (bits w 63 2 * 4) }
    | 0x011 => { x with trappc := w }
    | 0x012 => { x with trapcause := word (bits w 9 0) }
    | 0x013 => { x with trapval := w }
    | 0x014 => { x with trapinfo := w }
    | 0x015 => { x with trapsave := w }
    | 0x050 => { x with feretry := BitVec.ofNat 16 (bits w 15 0) }
    | 0x100 => { x with jobsel := BitVec.ofNat 6 (bits w 5 0) }
    | 0x110 => { x with ctxsel := BitVec.ofNat 20 (bits w 19 16 * 2 ^ 16 + bits w 14 0) }
    | _ => x)

/-- A write of FCSR: RM keeps its value when 5, 6 or 7 is written (R20). -/
def State.writeFcsr (s : State) (c : CtxId) (w : Word) : State :=
  let x := s.ctx c
  let rm := if 4 < bits w 2 0 then x.fcsr.toNat % 8 else bits w 2 0
  s.setCtx c { x with fcsr := BitVec.ofNat 9 (bits w 8 3 * 8 + rm) }

/-- A write of RNDSEED: zero stores 1 (R20). -/
def State.writeRndseed (s : State) (c : CtxId) (w : Word) : State :=
  s.setCtx c { s.ctx c with rndseed := if bits w 31 0 = 0 then 1 else BitVec.ofNat 32 (bits w 31 0) }

/-- A write of LOOPCNT, LOOPSTART or LOOPEND: the loop buffer is discarded (R20). -/
def State.writeLoop (s : State) (c : CtxId) (n : Nat) (w : Word) : State :=
  let x := { s.ctx c with loopbuf := [] }
  s.setCtx c (match n with
    | 0x030 => { x with loopcnt := BitVec.ofNat 32 (bits w 31 0) }
    | 0x031 => { x with loopstart := word (bits w 63 2 * 4) }
    | _ => { x with loopend := word (bits w 63 2 * 4) })

/-- The clusters in which every listed thing of a kind is changed. -/
def State.mapClusters (s : State) (f : Cluster → Cluster) : State :=
  s.clusters.foldl (fun s p => s.setCluster p.1 (f p.2)) s

/-- A write of PTROOT of the job that JOBSEL names (R133); what walks have answered before does not stand (R328). -/
def State.writePtroot (s : State) (c : CtxId) (w : Word) : State :=
  let j := (s.ctx c).jobsel.toNat
  let s := s.mapClusters fun cl => { cl with walked := cl.walked.filter fun v => v.job != j }
  s.setJob j { s.job j with ptroot := word (bits w 51 14 * 2 ^ 14 + bits w 0 0) }

/-- A write of JOBGEN.GEN (R134): a job number that is free, or killed with PEND 0, becomes live with the value, and JOBDROP is
cleared. -/
def State.writeGen (s : State) (job gen : Nat) : State :=
  let j := s.job job
  if j.st == .free || (j.st == .killed && !j.pend) then s.setJob job { j with st := .live, gen := gen, drop := 0 } else s

/-- A write of 1 to JOBGEN.FREE (R134). -/
def State.writeFree (s : State) (job : Nat) : State :=
  let j := s.job job
  if j.st == .killed && !j.pend then s.setJob job { j with st := .free } else s

/-- A write of JOBGEN: FREE, which keeps GEN, is taken where it is written 1 and R134 allows it; otherwise GEN is written. -/
def State.writeJobgen (s : State) (c : CtxId) (w : Word) : State :=
  let n := (s.ctx c).jobsel.toNat
  let j := s.job n
  if bit w 3 && j.st == .killed && !j.pend then s.writeFree n else s.writeGen n (bits w 15 6)

/-- A write of THAW (R129, R133): a FROZEN context becomes RUNNING at its handler's first instruction. One that froze because TRAPVEC is 0
goes on at address 0 (log entry 107). -/
def State.writeThaw (s : State) (c : CtxId) (w : Word) : State :=
  if !bit w 8 then s
  else
    match (s.ctx c).selected with
    | none => s
    | some d =>
      let x := s.ctx d
      if x.st == .frozen then
        let y := s.ctx c
        let s := if y.handling.any fun h => h.1 == d then s.setCtx c { y with handling := none } else s
        s.setCtx d { x with st := .running, handlerFirst := true, pc := word (bits x.trapvec 63 2 * 4) }
      else s

/-- A write of a CSR. -/
def State.csrWrite (s : State) (c : CtxId) (n : Nat) (w : Word) : State :=
  match n with
  | 0x020 => s.writeFcsr c w
  | 0x021 => s.writeRndseed c w
  | 0x030 => s.writeLoop c n w
  | 0x031 => s.writeLoop c n w
  | 0x032 => s.writeLoop c n w
  | 0x040 => s.writeTags c.core false w
  | 0x041 => s.writeTags c.core true w
  | 0x101 => s.writePtroot c w
  | 0x102 => s.writeJobgen c w
  | 0x103 => { s with capkey := w }
  | 0x111 => s.writeThaw c w
  | _ => s.writePlain c n w

/-- The value that a CSR holds, which CSRS and CSRC change bits of (R52): of CAPKEY, which reads as 0, the key (R133). -/
def State.csrHeld (s : State) (c : CtxId) (n : Nat) : Word := if n = 0x103 then s.capkey else s.csrRead c n

/-- A CSR instruction (R52, R131): `f held g` is what it writes to the CSR, and `reads` whether g[D] takes the value read. -/
def formCsr (o : KCsr) (w : IWord) (writes reads : Bool) (f : Word → Word → Word) (s : State) : Out :=
  s.issue ⟨o.s, csrTrap (s.jobOf s.cur.core) w o.c.toNat writes, [gr o.d]⟩ fun s c =>
    let n := o.c.toNat
    let t := if writes then s.csrWrite c n (f (s.csrHeld c n) ((s.ctx c).getG o.d.toNat)) else s
    .ok (t.retire c fun x => if reads then x.setG o.d.toNat (s.csrRead c n) else x)

/-- CSRR (R52). -/
def execCsrr (o : KCsr) (s : State) : Out := formCsr o (firstWord (.csrr o)) false true (fun _ g => g) s

/-- CSRW (R52). -/
def execCsrw (o : KCsr) (s : State) : Out := formCsr o (firstWord (.csrw o)) true false (fun _ g => g) s

/-- CSRX (R52). -/
def execCsrx (o : KCsr) (s : State) : Out := formCsr o (firstWord (.csrx o)) true true (fun _ g => g) s

/-- CSRS (R52). -/
def execCsrs (o : KCsr) (s : State) : Out := formCsr o (firstWord (.csrs o)) true false (fun held g => held ||| g) s

/-- CSRC (R52). -/
def execCsrc (o : KCsr) (s : State) : Out := formCsr o (firstWord (.csrc o)) true false (fun held g => held &&& ~~~g) s

/-! The steps that write CSRs, named on their own in the table of steps. Each is the effect that the instruction's write has. -/

/-- A CSR write as a step, for the numbers that it is the step of. -/
def formCsrStep (nums : List Nat) (s : State) (f : CtxId → Word → Nat → State) : Out :=
  match s.arg with
  | .csr w => .next (if nums.contains w.num.toNat then f w.ctx w.value w.num.toNat else s)
  | _ => .next s

/-- CSR_WRITE: a write of a CSR with no behaviour of its own (R17, R19, R133). -/
def execCsrWrite (s : State) : Out :=
  formCsrStep [0x000, 0x010, 0x011, 0x012, 0x013, 0x014, 0x015, 0x050, 0x100, 0x110] s fun c w n => s.writePlain c n w

/-- FCSR_WRITE (R20). -/
def execFcsrWrite (s : State) : Out := formCsrStep [0x020] s fun c w _ => s.writeFcsr c w

/-- RNDSEED_WRITE (R20). -/
def execRndseedWrite (s : State) : Out := formCsrStep [0x021] s fun c w _ => s.writeRndseed c w

/-- LOOP_CSR_WRITE (R20). -/
def execLoopCsrWrite (s : State) : Out := formCsrStep [0x030, 0x031, 0x032] s fun c w n => s.writeLoop c n w

/-- TAGS_WRITE (R21, R236). -/
def execTagsWrite (s : State) : Out :=
  formCsrStep [0x040, 0x041] s fun c w n => s.writeTags c.core (n == 0x041) w

/-- PTROOT_WRITE (R133). -/
def execPtrootWrite (s : State) : Out := formCsrStep [0x101] s fun c w _ => s.writePtroot c w

/-- JOBGEN_GEN (R134). -/
def execJobgenGen (s : State) : Out :=
  formCsrStep [0x102] s fun c w _ => s.writeGen (s.ctx c).jobsel.toNat (bits w 15 6)

/-- JOBGEN_FREE (R134). -/
def execJobgenFree (s : State) : Out :=
  formCsrStep [0x102] s fun c w _ => if bit w 3 then s.writeJobgen c w else s

/-- CAPKEY_WRITE (R133). -/
def execCapkeyWrite (s : State) : Out := formCsrStep [0x103] s fun _ w _ => { s with capkey := w }

/-- THAW (R129, R133). -/
def execThaw (s : State) : Out := formCsrStep [0x111] s fun c w _ => s.writeThaw c w

/-! ## JRNL (R135) -/

/-- JRNL. -/
def execJrnl (o : KAD) (s : State) : Out :=
  s.issue ⟨o.s, none, [gr o.a, gr o.d]⟩ fun s c =>
    let a := (s.ctx c).getG o.a.toNat
    let w := match (s.journal c.core).find? fun p => p.jidx == some (bits a 5 0) with
      | some p => p.journalWord (bits a 7 6)
      | none => 0
    .ok (s.longResult c (firstWord (.jrnl o)) (gr o.d) (wide w) Config.latLocal)

/-! ## ICINV and TLBINV (R136, R137) -/

/-- PRIVILEGE for an instruction marked P in R50 (R54). -/
def State.privTrap (s : State) (w : IWord) : Option Trap :=
  if s.jobOf s.cur.core = 0 then none else some (exact cPrivilege (w.zeroExtend 64) 0)

/-- A system operation of R142 is outstanding from its issue on. -/
def State.systemOp (s : State) (c : CtxId) (w : IWord) (addr : Word) (b : OpBody) (what : Instr) (dt : Nat) : State :=
  let o := { s.newOp c w addr b none with left := true }
  ((s.addOp o).later dt none what (.num o.id)).retire c id

/-- ICINV. -/
def execIcinv (o : KAB) (s : State) : Out :=
  s.issue ⟨o.s, none, [gr o.a, gr o.b]⟩ fun s c =>
    let x := s.ctx c
    let a := x.getG o.a.toNat
    let b := x.getG o.b.toNat
    if bits a 63 48 ≠ 0 ∨ 2 ^ 48 < a.toNat + b.toNat then .error (exact cBounds a 0)
    else if b = 0 then .ok (s.retire c id)
    else .ok (s.systemOp c (firstWord (.icinv o)) a (.icinv b) .invalidateComplete 100)

/-- TLBINV. -/
def execTlbinv (o : KAB) (s : State) : Out :=
  s.issue ⟨o.s, s.privTrap (firstWord (.tlbinv o)), [gr o.a, gr o.b]⟩ fun s c =>
    let x := s.ctx c
    let b := x.getG o.b.toNat
    if bits b 9 8 = 3 then .error (exact cBounds b 0)
    else .ok (s.systemOp c (firstWord (.tlbinv o)) (x.getG o.a.toNat) (.tlbinv b) .invalidateComplete 100)

/-- Whether a body writes memory: a posted store, or an operation that writes at its home or beside it. -/
def OpBody.writes : OpBody → Bool
  | .store _ _ _ | .amo _ _ | .cas _ _ | .stc _ _ _ | .ldx _ _ | .dxsplit _ _ => true
  | .fullEmpty fn _ => fn == 2
  | _ => false

/-- A store of the same thread that was issued before an ICINV or a TLBINV and is not yet performed at its home (R136, R330). -/
def State.storesBefore (s : State) (o : Op) : Bool :=
  (s.before o).any fun p => p.body.writes && p.reason == 0 && !p.performed

/-- The lines of a code range leave every instruction cache: they are named by the virtual line of the issuing job, and by the memory they
were translated to (R136, R336). -/
def State.dropLines (s : State) (job lo hi : Nat) : State :=
  let at' (j line : Nat) : Option Nat := s.locOf j (64 * line)
  let gone := (List.range (hi + 1 - lo)).filterMap fun i => at' job (lo + i)
  s.mapClusters fun cl => { cl with icache := cl.icache.filter fun l =>
    !((l.job == job && decide (lo ≤ l.line) && decide (l.line ≤ hi))
      || (match at' l.job l.line with
          | some p => gone.contains p
          | none => false)) }

/-- Whether TLBINV names a translation of a job that covers a region (R137). -/
def tlbNamed (sel a : Word) (job base size : Nat) : Bool :=
  match bits sel 9 8 with
  | 0 => job == bits sel 5 0 && decide (base ≤ bits a 47 0) && decide (bits a 47 0 < base + size)
  | 1 => job == bits sel 5 0
  | _ => true

/-- Whether TLBINV names a translation that a walk of a region may find, whatever the size of its page (R137): for one address, that is any walk
of the same 1 GiB. -/
def walkNamed (sel a : Word) (job region : Nat) : Bool :=
  tlbNamed sel a job (region * 2 ^ 16 / 2 ^ 30 * 2 ^ 30) (2 ^ 30)

/-- INVALIDATE_COMPLETE (R136, R137, R142, R330): the caches or TLBs of every die have acknowledged. Both wait for the thread's earlier stores
first; a walk in flight for a translation that TLBINV names fills no TLB. -/
def execInvalidateComplete (s : State) : Out :=
  match s.arg with
  | .num id =>
    match s.op id with
    | none => .next s
    | some o =>
      if s.storesBefore o then .next (s.later 1 none .invalidateComplete (.num id))
      else
      match o.body with
      | .icinv len => .next ((s.dropLines o.job (o.addr.toNat / 64) ((o.addr.toNat + len.toNat - 1) / 64)).deliverTo o 0)
      | .tlbinv sel =>
        .next ((s.mapClusters fun cl => { cl with
          tlb := cl.tlb.filter fun e => !tlbNamed sel o.addr e.job e.base e.size
          walked := cl.walked.filter fun w => !walkNamed sel o.addr w.job w.region
          misses := cl.misses.map fun m => if walkNamed sel o.addr m.job m.region then { m with noFill := true } else m }).deliverTo o 0)
      | _ => .next s
  | _ => .next s

/-! ## REPART (R138) -/

/-- REPART. -/
def execRepart (o : KA) (s : State) : Out :=
  s.issue ⟨o.s, s.privTrap (firstWord (.repart o)), [gr o.a]⟩ fun s c =>
    let a := (s.ctx c).getG o.a.toNat
    if bits a 63 61 ≠ 1 then .error (exact cBounds a 0)
    else
      match s.place c.core (word (a.toNat / 2 ^ 20 * 2 ^ 20)) with
      | .ok (.pool t _) =>
        let w := (s.core t).partword
        if nbits w.toNat 27 26 = 0 ∨ 2 ≤ nbits w.toNat 29 28 then .error (exact cBounds (w.zeroExtend 64) 0)
        else .ok (s.systemOp c (firstWord (.repart o)) a .repart .repartApply (typical c.core (.pool t) / 2))
      | .error t => .error { t with value := a }
      | .ok _ => .error (exact cBounds a 0)

/-- The partition word after REPART: CTXL is one less, CLS one more (R138). -/
def repartWord (w : BitVec 32) : BitVec 32 :=
  BitVec.ofNat 32 (w.toNat - 2 ^ 26 + 2 ^ 28)

/-- REPART_APPLY (R138): dispatch on the target is held from its arrival; the change is made once every context is FREE. A second one that finds
the part refused at its turn completes with no change: DESIGN CHOICE (log entry 123). -/
def execRepartApply (s : State) : Out :=
  match s.arg with
  | .num id =>
    match s.op id with
    | none => .next s
    | some o =>
      match o.body with
      | .repart =>
        let t := coreAt (bits o.addr 59 53) (bits o.addr 52 46)
        let co := s.core t
        if co.repart.isSome && co.repart != some id then .next (s.later 1 none .repartApply (.num id))
        else if (s.coreCtxs t).any fun d => (s.ctx d).st != .free then
          .next ((s.setCore t { co with repart := some id }).later 1 none .repartApply (.num id))
        else if nbits co.partword.toNat 27 26 = 0 ∨ 2 ≤ nbits co.partword.toNat 29 28 then
          .next ((s.setCore t { co with repart := none }).deliverTo o 0)
        else
          let s := (s.coreCtxs t).foldl (fun s d => s.setCtx d { s.ctx d with g := [], v := [], m := [], sr := [] }) s
          .next ((s.setCore t { co with repart := none, partword := repartWord co.partword }).deliverTo o 0)
      | _ => .next s
  | _ => .next s

/-! ## KILLJ and CANCELJ (R139-R142) -/

/-- Whether a JOBID word names the current generation of a job in one of some states (R139, R140). -/
def State.named (s : State) (a : Word) (states : List JobState) : Bool :=
  let j := s.job (bits a 5 0)
  bits a 5 0 != 0 && j.gen == bits a 15 6 && states.contains j.st

/-- KILLJ: the kill begins at once, and the instruction is outstanding until it completes. TRAPVAL of the BOUNDS of job 0, here and in
CANCELJ, is g[A] (log entry 109). -/
def execKillj (o : KA) (s : State) : Out :=
  s.issue ⟨o.s, s.privTrap (firstWord (.killj o)), [gr o.a]⟩ fun s c =>
    let a := (s.ctx c).getG o.a.toNat
    if bits a 5 0 = 0 then .error (exact cBounds a 0)
    else if !s.named a [.live, .cancelled] then .ok (s.retire c id)
    else
      let p := { s.newOp c (firstWord (.killj o)) a .killj none with left := true }
      .ok (((s.addOp p).retire c id).kill (bits a 5 0) (p.id + 1))

/-- Whether a step of the agenda carries the stamp of a job's generation: a message, a protocol message or an engine command of it is on its
way (R139, R320). -/
def Due.carries (d : Due) (job gen : Nat) : Bool :=
  match d.arg with
  | .msg m => m.job == job && m.gen == gen
  | .net n => n.job == job && n.gen == gen
  | .cmd c | .aside c => c.job == job && c.gen == gen
  | _ => false

/-- KILLJ_COMPLETE (R139, R142, R320, R364): every core, engine, router and home has acknowledged, and nothing of the generation is on its way: PEND returns to 0, the clusters are free, KILLJ
is complete, and the context-lost record of a loss is sent. -/
def execKilljComplete (s : State) : Out :=
  match s.arg with
  | .triple job gen id =>
    let j := s.job job
    if j.st != .killed || !j.pend || j.gen != gen then .next s
    else if s.agenda.any fun d => d.carries job gen then .next (s.later 1 none .killjComplete (.triple job gen id))
    else
      let cores := s.coresOf job
      let s := cores.foldl (fun s c =>
        s.setCore c { s.core c with owner := if isMonitor c then some 0 else none, gen := 0, cancelled := false }) s
      let s := s.setJob job { j with pend := false, cmd := none }
      let s := match j.cmd with
        | some c => s.later 0 none .journalAccept (.num c)
        | none => s
      let s := (s.ops.filter fun o => o.body == .cancelj && bits o.addr 15 0 == jobid job gen).foldl (fun s o => s.deliverTo o 0) s
      let s := s.mapClusters fun cl => { cl with icache := cl.icache.filter fun l => l.job != job,
                                                 tlb := cl.tlb.filter fun e => e.job != job
                                                 walked := cl.walked.filter fun w => w.job != job }
      let s := if j.lostRec.isSome then s.later 1 none .contextLostRecord (.num job) else s
      match s.op (id - 1) with
      | some o => .next (if id = 0 then s else s.deliverTo o 0)
      | none => .next s
  | _ => .next s

/-- A cancel begins (R140): the job is cancelled, the state travels to its cores, and a switched-out job's inbox is dropped (R318). The state
takes 4 cycles and one more for each 4 hops from core (0, 0); the manual gives no delay (log entry 110). -/
def State.cancel (s : State) (job : Nat) : State :=
  let j := s.job job
  let s := s.setJob job { j with st := .cancelled }
  if j.sched == .switchedOut then
    let n := s.read j.save 4
    let s := s.write (j.save + 16) 4 (s.read (j.save + 16) 4 + n)
    let s := (s.write j.save 4 0).write (j.save + 8) 4 (s.read (j.save + 12) 4)
    let s := s.setJob job { s.job job with drop := (s.job job).drop + BitVec.ofNat 32 n }
    (s.coresOf job).foldl (fun s c => s.later 4 none .cancelArrive (.pair job c)) s
  else (s.coresOf job).foldl (fun s c => s.later (4 + hops 0 c / 4) none .cancelArrive (.pair job c)) s

/-- CANCELJ. -/
def execCancelj (o : KA) (s : State) : Out :=
  s.issue ⟨o.s, s.privTrap (firstWord (.cancelj o)), [gr o.a]⟩ fun s c =>
    let a := (s.ctx c).getG o.a.toNat
    if bits a 5 0 = 0 then .error (exact cBounds a 0)
    else if !s.named a [.live] then .ok (s.retire c id)
    else .ok ((s.systemOp c (firstWord (.cancelj o)) a .cancelj .canceljComplete 8).cancel (bits a 5 0))

/-- CANCEL_ARRIVE (R140, R202, R229): the cancelled state reaches a core: the entries of its ring are discarded and counted, and the pairs fired
before are those that are still taken. -/
def execCancelArrive (s : State) : Out :=
  match s.arg with
  | .pair job core =>
    let co := s.core core
    if co.owner != some job || (s.job job).st != .cancelled then .next s
    else
      let n := (co.ring.filter fun p => p.2.isSome).length
      let pairs := ((co.pairq.map ListEntry.count).getD 0) + co.pairWait.length
      let s := s.setCore core { co with cancelled := true, ring := [], pairsDue := pairs }
      .next (s.setJob job { s.job job with drop := (s.job job).drop + BitVec.ofNat 32 n })
  | _ => .next s

/-- Whether a message of a job is on its way (R140). -/
def inFlight (job : Nat) (d : Due) : Bool :=
  match d.arg with
  | .msg m => m.job == job
  | _ => false

/-- CANCELJ_COMPLETE (R141): the state has reached every core, no message of the job is in flight, and no context of the job is RUNNING, MARKER
or STALLED; until then the condition is looked at again. Once the job is killed it completes with the kill (R142). -/
def execCanceljComplete (s : State) : Out :=
  match s.arg with
  | .num id =>
    match s.op id with
    | none => .next s
    | some o =>
      let job := bits o.addr 5 0
      let cores := s.coresOf job
      let quiet := cores.all fun c =>
        (s.core c).cancelled && (s.coreCtxs c).all fun d => (s.ctx d).st == .free || (s.ctx d).st == .frozen
      let sends := s.ops.any fun p => p.job == job && p.body.isMessage
      if o.body != .cancelj || (s.job job).st == .killed && (s.job job).pend then .next s
      else if quiet && !sends && !(s.agenda.any (inFlight job)) then .next (s.deliverTo o 0)
      else .next (s.later 1 none .canceljComplete (.num id))
  | _ => .next s

end Sys2Proof.Machine
end

