-- ==== Sys2Proof/Machine/Island.lean ====
section
/-!
DEFINITION. The router island (R337-R356): its states, host commands of the island class, the island window, host windows, traffic with other
parts, and checkpoint streams.
-/
namespace Sys2Proof.Machine

open Sys2Proof

/-! ## Sends of hosts (R347, R348, R350) -/

/-- Word 0, the argument and the body of a send. -/
def hostWord (h : HostReq) : Word := word (leNat (h.bytes.take 8))
def hostArg (h : HostReq) : Word := word (leNat ((h.bytes.drop 8).take 8))
def hostBody (h : HostReq) : List Byte := h.bytes.drop 16
def hostCode (h : HostReq) : Nat := bits (hostWord h) 7 0
def hostTag (h : HostReq) : Nat := bits (hostWord h) 63 32

/-- A reply to a command; the status word's values are not stated (log entry 10). -/
def State.hostReply (s : State) (h : HostReq) (ok : Bool) (bytes : List Byte) : State :=
  let (w, s) := s.openWord
  { s with out := s.out ++ [Outgoing.reply h.host (hostTag h) ok w bytes] }

/-- The error reply to a command whose refusal has a cause code (R378), or whose status word is not stated (log entry 10). -/
def State.hostRefuse (s : State) (h : HostReq) (cause : Option Nat) : State :=
  match cause with
  | some c => { s with out := s.out ++ [Outgoing.reply h.host (hostTag h) false (word c) []] }
  | none => s.hostReply h false []

/-- Whether the next entry of the command ring is in use (R350). -/
def State.ringBusy (s : State) : Bool := s.island.attach.isSome && s.island.inUse.contains s.island.next

/-- Whether the island accepts a Send: not while the next entry is in use, nor another one of a host whose Send it has turned away
(R350). -/
def State.takeCommand (s : State) (h : HostReq) : Bool × State :=
  let turned := s.island.refused.find? fun p => p.1 == h.host
  let away (l : List (Word × List Byte)) : Bool × State :=
    (false, { s with out := s.out ++ [Outgoing.notReady h.host], island := { s.island with refused := l } })
  match turned with
  | some (_, b) =>
    if b ≠ h.bytes ∨ s.ringBusy then away s.island.refused
    else (true, { s with island := { s.island with refused := s.island.refused.filter fun p => p.1 != h.host } })
  | none => if s.ringBusy then away (s.island.refused ++ [(h.host, h.bytes)]) else (true, s)

/-- Whether a send breaks a rule of R347 or R348: its reserved bits, its length, or its code. -/
def badSend (h : HostReq) : Bool :=
  bits (hostWord h) 15 8 != 0 || bits (hostWord h) 31 16 != (hostBody h).length || decide (65520 < (hostBody h).length)
    || decide (12 < hostCode h) || hostCode h == 0

/-- A command of a host in the states that serve it (R338, R348): `drain` says that DRAIN serves it, `monitor` that it is of the monitor class,
and `argOk` that its ARG has no reserved bit set. What the island cannot serve is answered with an error reply. -/
def formHost (s : State) (codeOk : Nat → Bool) (drain monitor : Bool) (eff : State → HostReq → Out) (argOk : Word → Bool := fun _ => true) : Out :=
  match s.arg with
  | .host h =>
    if !codeOk (hostCode h) then .next s
    else if s.island.st = .off ∨ s.island.st = .boot then .next s
    else
      match s.takeCommand h with
      | (false, s) => .next s
      | (true, s) =>
        let closed := (s.island.st == .drain && !drain) || (monitor && (s.island.st != .full || (s.monitorFor 0).isNone))
        if badSend h || !argOk (hostArg h) || closed then .next (s.hostReply h false []) else eff s h
  | _ => .next s

/-- ISLSTATE (R19). -/
def State.islState (s : State) : Word :=
  word ((s.die 3).code * 2 ^ 10 + (s.die 2).code * 2 ^ 8 + (s.die 1).code * 2 ^ 6 + (s.die 0).code * 2 ^ 4 + s.island.st.code)

/-- STATUS (R348): ISLSTATE, the life-record header with STEP, and the closed streams. A send with an unassigned CODE is answered here with an
error reply. -/
def execHostStatus (s : State) : Out :=
  formHost s (fun c => c == 1 || c == 0 || decide (12 < c)) true false fun s h =>
    .next (s.hostReply h true (leBytes 8 s.islState.toNat ++ wordBytes s.lifeHeader ++ s.island.closed.map fun n => BitVec.ofNat 8 n))

/-- The dies that ARG bits 3:0 choose. -/
def chosenDies (a : Word) : List Nat := (List.range 4).filter fun d => bit a d

/-- The compute rail comes up after every die has been OFF (R132): CYCLE starts at 0 again, what is still to come keeps its distance, and the
life records note the restart, in the flash too (R367). -/
def State.restartCycle (s : State) : State :=
  if (List.range 4).all fun d => s.die d == .off then
    { s with cycle := 0, slots := []
             island := { s.island with lastTransit := s.island.lastTransit - s.cycle, drainSince := s.island.drainSince - s.cycle, ptp := s.ptpNow }
             life := { s.life with restarts := s.life.restarts + 1 },
             flash := { s.flash with restarts := s.life.restarts + 1 }, agenda := s.agenda.map fun d => { d with time := d.time - s.cycle } }
  else s

/-- POWER (R340, R348): dies go from OFF to RESET, or from any state to OFF. -/
def execHostPower (s : State) : Out :=
  formHost s (· == 2) false false fun s h =>
    let a := hostArg h
    if bits a 63 9 ≠ 0 ∨ bits a 7 4 ≠ 0 then .next (s.hostReply h false [])
    else if bit a 8 then
      let s := if (chosenDies a).isEmpty then s else s.restartCycle
      .next (((chosenDies a).foldl (fun s d => if s.die d = .off then s.setDie d .reset else s) s).hostReply h true [])
    else .next (((chosenDies a).foldl State.darken s).hostReply h true [])

/-- CRESET (R340, R343, R348): dies enter RESET, with the loss of their jobs, and are released to RUN. -/
def execCreset (s : State) : Out :=
  formHost s (· == 3) false false fun s h =>
    let a := hostArg h
    if bits a 63 4 ≠ 0 then .next (s.hostReply h false [])
    else
      let s := (chosenDies a).foldl State.resetDie s
      .next (((chosenDies a).foldl State.startDie s).hostReply h true [])

/-- QUOTE (R348, R368). -/
def execHostQuote (s : State) : Out :=
  formHost s (· == 4) false false fun s h =>
    let (q, s) := s.quote (hostArg h)
    .next (s.hostReply h true q)

/-- The clock cycles of a time in ns at 1.05 GHz. -/
def nsCycles (ns : Nat) : Nat := ns * 105 / 100

/-- Checkpoint streams that have begun end with ENDPOINT_DOWN once no port carries them (R341, R356). -/
def State.strandCkpts (s : State) : State :=
  if (s.island.st == .forward || s.island.st == .full) && !s.island.ports.isEmpty then s
  else s.island.ckpts.foldl (fun s c => if c.begun then s.later 1 (ckptPath c.job) .checkpointDone (.pair c.job cEndpoint) else s) s

/-- The neighbours that are told to route around this part (R338). -/
def State.routeAround (s : State) : List Outgoing :=
  (((s.island.ports.filter fun p => decide (p < 12)).map s.neighbour).filter (· != s.devnum)).eraseDups.map Outgoing.routeAround

/-- The island enters DRAIN (R338, R340) from FORWARD or FULL; the step that ends it is looked at after 100 microseconds. -/
def State.enterDrain (s : State) (fw : Option (List Byte)) : State :=
  { s with
    out := s.out ++ s.routeAround
    island := { s.island with st := .drain, firmware := fw.orElse fun _ => s.island.firmware, lastTransit := s.cycle, drainSince := s.cycle }
    }.strandCkpts.later (nsCycles 100000) none .drainEnd .nothing

/-- FWLOAD (R348, R368): island firmware takes effect through DRAIN; monitor firmware is measured and kept. -/
def execFwload (s : State) : Out :=
  formHost s (· == 5) false false fun s h =>
    if Config.isIslandFirmware (hostArg h) (hostBody h) then .next ((s.enterDrain (some (hostBody h))).hostReply h true [])
    else .next (({ s with island := { s.island with monitorFw := hostBody h } }.measure 2 (extend zero32 (hostBody h))).hostReply h true [])

/-- LIFEREAD (R348, R365). -/
def execLiferead (s : State) : Out :=
  formHost s (· == 0x0A) false false fun s h => .next (s.hostReply h true (s.lifeSlice (hostArg h).toNat))

/-- ISLRESET (R348): the island enters DRAIN. -/
def execIslreset (s : State) : Out :=
  formHost s (· == 0x0B) false false fun s h => .next ((s.enterDrain none).hostReply h true [])

/-- DOMAIN (R344, R348, R368): the device number and the torus extents, with their measurement. -/
def execHostDomain (s : State) : Out :=
  formHost s (· == 0x0C) false false fun s h =>
    let a := hostArg h
    let (x, y, z) := (bits a 19 16, bits a 23 20, bits a 27 24)
    if bits a 63 28 ≠ 0 ∨ bits a 15 10 ≠ 0 ∨ 767 < bits a 9 0 ∨ 8 < x ∨ 8 < y ∨ 12 < z then .next (s.hostReply h false [])
    else
      .next (({ s with devnum := bits a 9 0, island := { s.island with extents := (x, y, z) } }.measure 3
        (extend zero32 (leBytes 8 a.toNat))).hostReply h true [])

/-! ## The command ring and the monitor (R347, R350) -/

/-- A command of the monitor class reaches the monitor: the whole send is written into the next entry of the ring, and a job-0 message with its
words goes to the command channel, on one path, so that the commands keep their order; the physical address of the entry's end is a hole where the
ring leaves memory, which no ring of an ATTACH does. -/
def State.toRing (s : State) (h : HostReq) : Except Nat State :=
  match s.island.attach, s.monitorFor 0 with
  | some a, some m =>
    let i := s.island.next
    let at' := a.ring + 65536 * i
    if Config.hbmBytes < at' + 65536 then .error (at' + 65536)
    else
      let s := (s.writeBytes at' h.bytes).cleanse at' h.bytes.length
      let s := { s with island := { s.island with next := (i + 1) % max 1 a.entries, inUse := nset s.island.inUse i true } }
      let (w, s) := s.openWord
      .ok (s.toMonitor (w.toNat % Config.cores) m a.chan [hostWord h, word at', h.host, hostArg h] (2 ^ 21 + 1))
  | _, _ => .ok s

/-- Whether the next entry of the command ring stands at a home that does not operate (R339). -/
def State.ringDown (s : State) (n : Nat) : Bool :=
  match s.island.attach with
  | some a => s.spanDown (a.ring + 65536 * s.island.next) n
  | none => false

/-- A command of the monitor class: it reaches the monitor, which performs it (log entry 21). -/
def formMonitor (s : State) (code : Nat) (eff : State → HostReq → Out) (argOk : Word → Bool := fun _ => true) : Out :=
  formHost s (· == code) false true (fun s h =>
    if s.ringDown h.bytes.length then .next (s.hostReply h false [])
    else
    match s.toRing h with
    | .error pa => .fault (.physicalHole pa)
    | .ok s => eff s h) argOk

/-- Whether ARG of CANCEL, KILL or CHECKPOINT names a job in its bits 15:0 and has no other bit set (R348). -/
def jobArg (a : Word) : Bool := bits a 63 16 == 0

/-- CANCEL (R348): CANCELJ on ARG bits 15:0. -/
def execHostCancel (s : State) : Out :=
  formMonitor s 7 (argOk := jobArg) fun s h =>
    let a := hostArg h
    if bits a 5 0 = 0 then .next (s.hostReply h false [])
    else .next ((if s.named a [.live] then s.cancel (bits a 5 0) else s).hostReply h true [])

/-- KILL (R348): KILLJ on ARG bits 15:0. -/
def execHostKill (s : State) : Out :=
  formMonitor s 8 (argOk := jobArg) fun s h =>
    let a := hostArg h
    if bits a 5 0 = 0 then .next (s.hostReply h false [])
    else .next ((if s.named a [.live, .cancelled] then s.kill (bits a 5 0) 0 else s).hostReply h true [])

/-! ## Checkpoints (R317, R356) -/

/-- The ranges that a checkpoint of a job reads: granules 1 to 255 of its pools, its stores, and its pages of HBM. -/
def State.ckptRanges (s : State) (job : Nat) : List (Nat × Nat) :=
  let cores := s.coresOf job
  cores.map (fun c => (poolLoc c 4096, 0xFF000)) ++ ((cores.map clusterOf).eraseDups.map fun k => (storeLoc k 0, 2 ^ 21)) ++ s.pagesOf job

/-- The image of a checkpoint: its ranges, and engine state whose layout is open. -/
def State.ckptImage (s : State) (job : Nat) : List Byte :=
  (s.ckptRanges job).flatMap (fun r => s.readBytes r.1 r.2)
    ++ (List.range (544 * 1024 * ((s.coresOf job).map clusterOf).eraseDups.length)).map fun i => Config.freeByte (s.freeCount * 2 ^ 48 + i)

/-- The chunks of a stream, each of up to 64 MiB with its digest, and the manifest of the digests at the end. -/
def streamChunks (dest : Word) : Nat → List Byte → List Byte → List Outgoing
  | 0, man, _ => [.chunk dest man]
  | n + 1, man, bs =>
    if bs.isEmpty then [.chunk dest man]
    else
      let c := bs.take (2 ^ 26)
      .chunk dest (c ++ sha3 c) :: streamChunks dest n (man ++ sha3 c) (bs.drop (2 ^ 26))

/-- The checkpoint of a job is no longer in progress. -/
def State.dropCkpt (s : State) (job : Nat) : State :=
  { s with island := { s.island with ckpts := s.island.ckpts.filter fun (c : Ckpt) => c.job != job } }

/-- One more checkpoint is in progress. -/
def State.addCkpt (s : State) (c : Ckpt) : State := { s with island := { s.island with ckpts := s.island.ckpts ++ [c] } }

/-- A checkpoint stream of a quiesced job: poison is consumed, a stream with no port ends with ENDPOINT_DOWN, and otherwise the image leaves; the
acknowledgement of its endpoint, or the endpoint's failure, is an input (CHECKPOINT_DONE). What the gather engines read for it passes their contexts
Y (R251). -/
def State.startCkpt (s : State) (c : Ckpt) : State :=
  let up := (s.island.st == .forward || s.island.st == .full) && !s.island.ports.isEmpty
  let s := (s.dropCkpt c.job).addCkpt { c with begun := true }
  let rs := s.ckptRanges c.job
  let bad := s.poison.find? fun w => rs.any fun r => decide (r.1 ≤ 8 * w) && decide (8 * w < r.1 + r.2)
  match bad with
  | some w => s.lose c.job (engineLoss none (paddrOf (8 * w)) (8 * w))
  | none =>
    if !up then s.later 64 (ckptPath c.job) .checkpointDone (.pair c.job cEndpoint)
    else
      let img := s.ckptImage c.job
      { s with out := s.out ++ streamChunks c.dest (img.length / 2 ^ 26 + 1) [] img, freeCount := s.freeCount + 1 }.throughY 1 0 Config.storeBytes
        ((s.coresOf c.job).map clusterOf).eraseDups

/-- A schedule command of the monitor firmware, as if stored at the job's schedule window (R311). -/
def State.monitorSched (s : State) (job op : Nat) : State :=
  let j := s.job job
  let k := 12 * j.cy + j.cx
  let d : Word := word (op * 2 ^ 20 + jobid job j.gen)
  let o := { s.newOp ⟨monitorOf 0, 0⟩ 0 (paddrOf (storeLoc k 0x1FFFE0)) (.store 1 16 (wide d)) none with
    thread := 1, job := 0, gen := (s.job 0).gen, left := true, loc := some (storeLoc k 0x1FFFE0) }
  (s.addOp o).schedWindow o k

/-- CHECKPOINT (R348, R356): the monitor quiesces the job of ARG bits 15:0, and streams it to the endpoint that the body names; the pair of a
job and its generation is the monitor's wait for quiescence. -/
def execHostCheckpoint (s : State) : Out :=
  match s.arg with
  | .pair job gen =>
    let j := s.job job
    match s.island.ckpts.find? fun c => c.job == job && c.gen == gen && !c.begun with
    | none => .next s
    | some c =>
      if j.gen ≠ gen ∨ (j.st ≠ .live ∧ j.st ≠ .cancelled) then
        .next (s.dropCkpt job)
      else if j.sched = .quiesced then .next (s.startCkpt c)
      else .next ((if j.sched = .resident ∧ j.cmd.isNone then s.monitorSched job 1 else s).later 1024 none .hostCheckpoint (.pair job gen))
  | _ =>
    formMonitor s 9 (argOk := jobArg) fun s h =>
      let job := bits (hostArg h) 5 0
      let gen := bits (hostArg h) 15 6
      if !s.named (hostArg h) [.live, .cancelled] || (s.island.ckpts.any fun c => c.job == job) then .next (s.hostReply h false [])
      else
        let c : Ckpt := { job := job, gen := gen, dest := Config.checkpointEndpoint (hostBody h), chan := none, monitor := (s.monitorFor 0).getD 0, begun := false }
        .next (((s.addCkpt c).later 1 none .hostCheckpoint (.pair job gen)).hostReply h true [])

/-- CHECKPOINT_DONE (R356): the stream ends with success, once its endpoint has acknowledged every byte, or with the cause of its failure: a
message to the completion channel; where the monitor ran it for a host, the job is released. -/
def execCheckpointDone (s : State) : Out :=
  match s.arg with
  | .pair job cause =>
    match s.island.ckpts.find? fun c => c.job == job with
    | none => .next s
    | some c =>
      let s := s.dropCkpt job
      .next (match c.chan with
        | some ch =>
          let (w, s) := s.openWord
          s.toMonitor (w.toNat % Config.cores) c.monitor ch [word (jobid c.job c.gen), word cause]
        | none => if (s.job job).sched == .quiesced then s.monitorSched job 4 else s)
  | _ => .next s

/-! ## The island window (R349) -/

/-- The step of a command at the island window. -/
def islandStep (code : Nat) : Option Instr :=
  match code with
  | 1 => some .attachRing
  | 2 => some .hostReply
  | 3 => some .openStream
  | 4 => some .closeStream
  | 5 => some .ckpt
  | 6 => some .freeEntry
  | _ => none

/-- A command at the island window: refused where reserved bits are set or its code is unassigned, or while the island is OFF or in BOOT. -/
def State.islandWindow (s : State) (o : Op) : State :=
  match islandStep (bits o.data0 7 0) with
  | none => s.answer o (.refused cProtect 0 0)
  | some i =>
    if bits o.data0 63 15 ≠ 0 ∨ s.island.st = .off ∨ s.island.st = .boot then s.answer o (.refused cProtect 0 0)
    else s.later 0 none i (.num o.id)

/-- A command of the island window: it is performed, or refused with PROTECT, as is one whose record lies above the memory (log entry 23). -/
def formWindow (s : State) (record : Bool) (eff : State → Op → Option State) : Out :=
  match s.arg with
  | .num id =>
    match s.op id with
    | none => .next s
    | some o =>
      if record && decide (Config.hbmBytes < o.data1.toNat + 64) then .next (s.answer o (.refused cProtect 0 0))
      else
        match eff s o with
        | some s => .next (s.answer o (.done 0))
        | none => .next (s.answer o (.refused cProtect 0 0))
  | _ => .next s

/-- ATTACH (R349, R350, R368): the record's first word gives the ring and its second the entry count, bits 31:0, and the command channel, bits
37:32 (log entry 23); words 2 to 7 give up to three windows. The die of the monitor that sends it is in RUN (R340). Every entry is free, and the
island enters FULL. -/
def execAttachRing (s : State) : Out :=
  formWindow s true fun s o =>
    let at' := o.data1.toNat
    let w (i : Nat) : Word := s.rd64 (at' + 8 * i)
    if s.island.st ≠ .forward ∧ s.island.st ≠ .full then none
    else if bits (w 0) 11 0 ≠ 0 ∨ bits (w 1) 31 0 = 0 ∨ s.die (dieOf o.ctx.core) ≠ .run then none
    else if Config.hbmBytes < (w 0).toNat + 65536 * bits (w 1) 31 0 then none
    else
      let windows := ((List.range 3).map fun i => ((w (2 + 2 * i)).toNat, (w (3 + 2 * i)).toNat)).filter fun p => p.2 != 0
      let rec' := s.readBytes at' 64
      let a : Attach := { ring := (w 0).toNat, entries := bits (w 1) 31 0, chan := bits (w 1) 37 32, windows := windows, record := rec' }
      some ({ s with island := { s.island with st := .full, attach := some a, next := 0, inUse := [] } }.measure 4 (extend zero32 rec'))

/-- REPLY (R349): the island sends the record to the host that it names; which word names it is not stated. -/
def execHostReply (s : State) : Out :=
  formWindow s true fun s o =>
    let (host, s) := s.openWord
    some { s with out := s.out ++ [Outgoing.record host (s.readBytes o.data1.toNat 64)] }

/-- OPEN (R349, R351): opens an ingest stream, unless it is open. -/
def execOpenStream (s : State) : Out :=
  formWindow s true fun s o =>
    let n := bits o.data0 14 8
    if s.island.streams.any fun x => x.num == n then none
    else
      let x : Stream := { num := n, words := s.rdWords o.data1.toNat 8, index := 0, frame := none, seqs := [], last := none, due := none,
                          empties := 0, closes := [], closing := false }
      some { s with island := { s.island with streams := s.island.streams ++ [x], closed := s.island.closed.filter (· != n) } }

/-- CLOSE (R349): closes a stream after its current frame; a closed one is refused, as is an argument that is not 0. -/
def execCloseStream (s : State) : Out :=
  formWindow s false fun s o =>
    let n := bits o.data0 14 8
    match if o.data1 = 0 then s.island.streams.find? fun x => x.num == n else none with
    | none => none
    | some x =>
      if x.frame.isNone then
        some { s with island := { s.island with streams := s.island.streams.filter fun y => y.num != n, closed := nset s.island.closed n true } }
      else
        some { s with island := { s.island with streams := s.island.streams.map fun y => if y.num = n then { y with closing := true } else y } }

/-- CKPT (R349, R356): starts a checkpoint stream of a quiesced job. The layout of the plan is not stated: the job, the channel and the
endpoint that it names are open. -/
def execCkpt (s : State) : Out :=
  formWindow s true fun s o =>
    let (w, s) := s.openWord
    let (dest, s) := s.openWord
    let job := bits w 5 0
    if (s.job job).sched ≠ .quiesced ∨ (s.island.ckpts.any fun c => c.job == job) then none
    else some (s.startCkpt { job := job, gen := (s.job job).gen, dest := dest, chan := some (bits w 11 6), monitor := o.ctx.core, begun := true })

/-- FREE (R349, R350): an entry of the command ring becomes free. -/
def execFreeEntry (s : State) : Out :=
  formWindow s false fun s o =>
    match s.island.attach with
    | none => none
    | some a =>
      let i := o.data1.toNat
      if a.entries ≤ i ∨ !s.island.inUse.contains i then none
      else some { s with island := { s.island with inUse := nset s.island.inUse i false } }

/-! ## Host windows (R346) -/

/-- The physical address of an RMA in the host windows. -/
def State.rmaPlace (s : State) (r : RmaReq) : Option Nat :=
  match s.island.attach with
  | none => none
  | some a =>
    match a.windows[r.window]? with
    | none => none
    | some (base, len) => if r.offset + r.len ≤ len ∧ base + len ≤ Config.hbmBytes then some (base + r.offset) else none

/-- An RMA (R341, R342, R346): outside FULL it is answered ENDPOINT_DOWN, as where the stacks of a die in OFF or RESET hold its bytes; outside the
host windows, and in a retired granule (R362), with a protection error. -/
def formRma (s : State) (eff : RmaReq → Nat → State) : Out :=
  match s.arg with
  | .rma r =>
    if s.island.st = .off ∨ s.island.st = .boot then .next s
    else if s.island.st ≠ .full then .next { s with out := s.out ++ [Outgoing.endpointDown r.host] }
    else
      match s.rmaPlace r with
      | none => .next { s with out := s.out ++ [Outgoing.protection r.host] }
      | some pa => .next (if s.granuleRetired pa r.len then { s with out := s.out ++ [Outgoing.protection r.host] } else if s.spanDown pa r.len then { s with out := s.out ++ [Outgoing.endpointDown r.host] } else eff r pa)
  | _ => .next s

/-- RMA_WRITE (R346). -/
def execRmaWrite (s : State) : Out :=
  formRma s fun r pa => (s.writeBytes pa (r.data.take r.len)).cleanse pa (min r.len r.data.length)

/-- RMA_READ (R346). -/
def execRmaRead (s : State) : Out :=
  formRma s fun r pa => { s with out := s.out ++ [Outgoing.readData r.host (s.readBytes pa r.len)] }

/-- UNSUPPORTED_OPERATION (R346): every other operation and delivery mode is answered with an error completion. -/
def execUnsupportedOperation (s : State) : Out :=
  match s.arg with
  | .host h =>
    if s.island.st = .off ∨ s.island.st = .boot then .next s else .next { s with out := s.out ++ [Outgoing.unsupported h.host] }
  | _ => .next s

/-! ## Other parts (R341, R342, R345) -/

/-- An operation to another part that cannot go on: ENDPOINT_DOWN, exact at the instruction whose context waits for it (R191, R200). -/
def State.strand (s : State) (o : Op) : State :=
  match o.body with
  | .park _ _ _ => s.homeTrap o.ctx o.id (exact cEndpoint o.addr 0)
  | .arrive _ e _ => (s.returnEntry o.job e).homeTrap o.ctx o.id (exact cEndpoint o.addr 0)
  | _ => s.answer o (.refused cEndpoint 0 0)

/-- The operations on their way to other parts. -/
def State.outgoing (s : State) : List Op := s.ops.filter fun o => o.left && decide (2 ^ 60 ≤ o.loc.getD 0) && !o.performed && o.reason == 0

/-- What is on its way to other parts and has no way any more is answered ENDPOINT_DOWN (R342, R343): operations, requests to clear marks, and
checkpoint streams. -/
def State.strandAll (s : State) : State :=
  let s := s.outgoing.foldl (fun s o => if s.peerUp (bits o.addr 57 48) then s else s.strand o) s
  { s with peerLog := s.peerLog.filter fun m => !m.asked || s.peerUp m.dev }.strandCkpts

/-- The address of a request, and what it needs of its page. -/
def peerNeed : PeerBody → Word × Need × Nat
  | .load va n _ => (va, .read, n)
  | .store va n _ _ => (va, .write, n)
  | .amo va fn _ _ => (va, .both, amoSize fn)
  | .fullEmpty va fn _ => (va, if fn = 0 ∨ fn = 4 then .read else .both, 8)
  | .resume va _ => (va, .both, 192)
  | .member va _ => (va, .both, 64)
  | .fePark va fn _ _ => (va, if fn = 0 then .read else .both, 8)
  | .park va _ => (va, .both, 192)
  | .arrival va _ => (va, .both, 64)
  | .wake va _ => (va, .both, 192)
  | .clearMarks => (0, .nothing, 0)

/-- The operation of a request and whether it is plain. -/
def peerOp : PeerBody → OpBody × Bool
  | .load _ n p => (.load n, p)
  | .store _ n d p => (.store 1 n d, p)
  | .amo _ fn b e => (if fn = 0x0D then .cas b e else .amo fn b, false)
  | .fullEmpty _ fn d => (.fullEmpty fn d, false)
  | .resume _ v => (.resume v, false)
  | .member _ l => (.member l, false)
  | .fePark _ fn d _ => (.fullEmpty fn d, false)
  | .park _ _ => (.park 0 0 0, false)
  | .arrival _ g => (.arrive g 0 0, false)
  | .wake _ v => (.resume v, false)
  | .clearMarks => (.fence, false)

/-- A RESUME of another part at a record here (R192): the re-creation goes to the record's home core. -/
def State.peerResume (s : State) (job gen : Nat) (rec : Word) (l : Nat) (v : Word) : State :=
  let st := s.read l 1 % 4
  if st = 1 ∧ bits (s.rd64 (l + 16)) 62 59 = 0 then (s.claim l v).sendRecreate (s.recordHome l) (s.recordHome l) job gen rec
  else if st = 0 then (s.wr64 (l + 56) v).write l 1 (s.read l 1 / 4 * 4 + 3)
  else s

/-- The park request of another part's full/empty operation (R164, R165, R195): in one step the home performs it or records the waiter. -/
def State.peerPark (s : State) (dev tag job gen l fn : Nat) (data : Word) (pooled : Bool) : Outgoing × State :=
  match s.perform false ⟨some dev, ⟨0, 0⟩⟩ 0 (.fullEmpty fn data) l with
  | (.done v, s) => (.answer dev tag v, s)
  | (_, s) =>
    let mine := s.waiters.filter fun w => w.index.isSome && homeOf w.loc == homeOf l
    if !pooled && decide ((homeOf l).waiterRoom ≤ mine.length) then (.noRoom dev tag, s)
    else
      let w : Waiter := { loc := l, seq := s.waiterSeq, fn := fn, data := data, job := job, gen := gen, core := 0,
                          index := if pooled then none else some 0, record := none, op := tag, peer := some (dev, tag) }
      (.parked dev tag, { s with waiters := s.waiters ++ [w], waiterSeq := s.waiterSeq + 1 })

/-- The record that a thread of another part parks here (R191): an early resume is consumed, a free record is written, any other state is
refused. -/
def State.peerStore (s : State) (dev tag l : Nat) (ws : List Word) : Outgoing × State :=
  match s.read l 1 % 4 with
  | 3 => (.answer dev tag (wide (s.rd64 (l + 56))), (s.wr64 (l + 56) 0).write l 1 (s.read l 1 / 4 * 4))
  | 0 =>
    let t := s.wrWords l (ws.take 24)
    (.parked dev tag, t.write l 1 (t.read l 1 / 4 * 4 + 1))
  | _ => (.refusal dev tag cProtect 0, s)

/-- The arrival of a thread of another part at a group here (R200, R201). -/
def State.peerArrive (s : State) (dev tag l job gen : Nat) (gmax : Option (BitVec 32)) : Outgoing × State :=
  let s := s.countArrival l gmax
  if s.grpMembers l ≤ s.grpArrived l then
    let (r, epoch, s) := s.completePhase l job gen
    (.answer dev tag (wide (if gmax.isSome then r else epoch)), s)
  else (.parked dev tag, { s with peerArrivals := s.peerArrivals ++ [⟨l, job, dev, tag, gmax.isSome⟩] })

/-- What a park request, a record, an arrival, a resume or a wake of another part does at its home here, with its answer; none for the other
requests. -/
def State.peerSpecial (s : State) (dev tag job gen : Nat) (va : Nat) (l : Nat) : PeerBody → Option (Outgoing × State)
  | .fePark _ fn data pooled => some (s.peerPark dev tag job gen l fn data pooled)
  | .park _ ws => some (s.peerStore dev tag l ws)
  | .arrival _ g => some (s.peerArrive dev tag l job gen g)
  | .resume _ v => some (.answer dev tag 0, s.peerResume job gen (word (3 * 2 ^ 61 + va)) l v)
  | .wake _ v => some (.answer dev tag 0,
      if s.read l 1 % 4 = 1 then (s.claim l v).sendRecreate (s.recordHome l) (s.recordHome l) job gen (word (3 * 2 ^ 61 + va)) else s)
  | _ => none

/-- The path of the requests of a core of another part to a home here, which arrive in the order in which they were sent (R345). -/
def peerPath (dev core l : Nat) : Path := ⟨planeRequest, 2 ^ 21 + 4096 * dev + core, (homeOf l).num⟩

/-- The answer to a request of another part. One that waits for room for its mark stays ahead of the later requests of its core (R146, R345). -/
def State.peerAnswer (s : State) (r : PeerReq) (path : Path) (dev tag job gen : Nat) (va : Word) (a : HomeAns) : State :=
  match a with
  | .done v => { s with out := s.out ++ [Outgoing.answer dev tag v] }
  | .refused c _ info => { s with out := s.out ++ [Outgoing.refusal dev tag c info] }
  | .notReady => { s with out := s.out ++ [Outgoing.notYet dev tag] }
  | .full w => (s.askRelease w).again 2 (some path) .peerRequest (.peer r)
  | .walks _ => s.again 2 (some path) .peerRequest (.peer r)
  | .lost p => if s.stampOk job gen then s.lose job { lossOf (srcOf p) p with vaddr := va } else s

/-- A request of another part at its home here (R26, R341, R342, R345): served in FULL when the home's die operates, which comes before the other
checks; a stamp that is not live is refused with PROTECT; translated by the tables of the same job number. -/
def State.servePeer (s : State) (tag dev core k job gen : Nat) (b : PeerBody) : State :=
  let refuse (c : Nat) : State := { s with out := s.out ++ [Outgoing.refusal dev tag c 0] }
  let (a, need, n) := peerNeed b
  let va := bits a 47 0
  let at' := (s.walk job va).map fun p => (p, p.pa + (va - p.base))
  if s.island.st ≠ .full then refuse cEndpoint
  else if b = .clearMarks then
    { s with marks := s.marks.filter fun m => m.who != ⟨some dev, ⟨core, k⟩⟩, out := s.out ++ [Outgoing.cleared dev core k] }
  else if at'.any fun q => s.homeDown q.2 then refuse cEndpoint
  else if !s.stampOk job gen then { s with out := s.out ++ [Outgoing.refusal dev tag cProtect 0] }.count 0x08 (unitOf 5 0) 1
  else
    match at' with
    | none => refuse cPage
    | some (p, l) =>
      if !need.ok p.ex p.wr p.rd || s.granuleRetired l n then refuse cProtect
      else
        let back (t : State) (x : HomeAns) : State := t.peerAnswer (.held tag dev core k job gen b) (peerPath dev core l) dev tag job gen a x
        match s.consumed (peerOp b).1 l n with
        | some q => back s (.lost q)
        | none =>
          match s.peerSpecial dev tag job gen va l b, b with
          | some (o, t), _ => { t with out := t.out ++ [o] }
          | none, .member _ leave => back (s.performMember l job gen leave).2 (s.performMember l job gen leave).1
          | none, _ =>
            let (a, t) := s.perform (peerOp b).2 ⟨some dev, ⟨core, k⟩⟩ 0 (peerOp b).1 l
            back t a

/-- A request of another part arrives: behind those of its core that wait at the same home (R345), or served at once. -/
def State.takePeer (s : State) (tag dev core k job gen : Nat) (b : PeerBody) : State :=
  let va := bits (peerNeed b).1 47 0
  match ((s.walk job va).map fun p => peerPath dev core (p.pa + (va - p.base))).filter fun q => s.agenda.any fun d => d.path == some q with
  | some q => s.later 1 (some q) .peerRequest (.peer (.held tag dev core k job gen b))
  | none => s.servePeer tag dev core k job gen b

/-- The lines of another part that a plain operation touches enter its context's region log (R26). -/
def State.logLines (s : State) (o : Op) : State :=
  let write := match o.body with
    | .load _ => false
    | .ldx _ _ => false
    | _ => true
  if o.plain && o.record.isNone then
    (linesOf (bits o.addr 47 0) o.body.size).foldl (fun s l => s.logPeer o.ctx o.region (bits o.addr 57 48) l write) s
  else s

/-- A transit packet enters the island, which holds it until it goes on (R338, R340). -/
def State.enterTransit (s : State) (dest : Nat) (bytes : List Byte) : State :=
  if s.island.st = .off ∨ s.island.st = .boot ∨ dest = s.devnum then s
  else
    { s with nextId := s.nextId + 1
             island := { s.island with transit := s.island.transit ++ [(s.nextId, dest, bytes)], lastTransit := s.cycle }
             }.later 16 none .peerRequest (.peer (.forward s.nextId))

/-- A transit packet goes on to its part; one that has no way yet waits for one (R343). -/
def State.forwardTransit (s : State) (n : Nat) : State :=
  match s.island.transit.find? fun q => q.1 == n with
  | none => s
  | some (_, dest, bytes) =>
    if s.torusUp dest then
      { s with island := { s.island with transit := s.island.transit.filter fun q => q.1 != n }, out := s.out ++ [Outgoing.transit dest bytes] }
    else s.later 1024 none .peerRequest (.peer (.forward n))

/-- PEER_REQUEST (R26, R338, R341, R342, R345): an operation of this part leaves for another part, or is answered ENDPOINT_DOWN; a request of
another part is served, or refused; another part has cleared the marks of a context; a transit packet enters, or goes on. The answers of other parts
are the steps that deliver a result or a refusal. -/
def execPeerRequest (s : State) : Out :=
  match s.arg with
  | .peer (.outgoing id) =>
    match s.op id with
    | none => .next s
    | some o =>
      let dev := bits o.addr 57 48
      if s.peerUp dev then
        let s := s.logLines o
        .next { s with out := s.out ++ [Outgoing.request dev id] }
      else .next (s.strand o)
  | .peer (.incoming tag dev core k job gen b) =>
    if s.island.st = .off ∨ s.island.st = .boot then .next s
    else .next (s.takePeer tag dev core k job gen b)
  | .peer (.held tag dev core k job gen b) =>
    if s.island.st = .off ∨ s.island.st = .boot then .next s
    else .next (s.servePeer tag dev core k job gen b)
  | .peer (.cleared dev core k) =>
    .next { s with peerLog := s.peerLog.filter fun m => !(m.ctx == ⟨core, k⟩ && m.dev == dev && m.asked) }
  | .peer (.transit dest bytes) => .next (s.enterTransit dest bytes)
  | .peer (.forward n) => .next (s.forwardTransit n)
  | _ => .next s

/-! ## The island's own states (R340) -/

/-- ISLAND_POWER_GOOD (R340, R368): from OFF to BOOT. -/
def execIslandPowerGood (s : State) : Out := .next (if s.island.st = .off then s.enterBoot else s)

/-- The island carries traffic once its firmware has passed and a link is up (R340). -/
def State.tryForward (s : State) : State :=
  if s.island.st = .boot ∧ s.island.passed ∧ !s.island.ports.isEmpty then { s with island := { s.island with st := .forward } } else s

/-- ISLAND_BOOT_DONE (R340): the firmware passed its measurement, or failed it, which the life records note, and the island is OFF. -/
def execIslandBootDone (s : State) : Out :=
  match s.arg with
  | .flag passed =>
    if s.island.st ≠ .boot then .next s
    else if passed then .next { s with island := { s.island with passed := true } }.tryForward
    else
      let n := s.life.bootFails + 1
      .next { s with island := { s.island with st := .off, ports := [] }, life := { s.life with bootFails := n },
                     flash := { s.flash with bootFails := n } }
  | _ => .next s

/-- LINK_UP (R340): a port trains. -/
def execLinkUp (s : State) : Out :=
  match s.arg with
  | .num p =>
    if s.island.st = .off ∨ 16 ≤ p then .next s
    else .next { s with island := { s.island with ports := nset s.island.ports p true } }.tryForward
  | _ => .next s

/-- SPARE_LANE_SWITCH (R360): a link that fails 16 resends moves to its spare lane; one with no working spare is retired, and loses the jobs
on either die that it joins; a port goes down with its link (R342). -/
def execSpareLaneSwitch (s : State) : Out :=
  match s.arg with
  | .num l =>
    if !s.spare.contains l then .next ({ s with spare := nset s.spare l true }.count 0x0A (linkUnit l) 1)
    else
      let s := { s with deadLinks := nset s.deadLinks l true
                        retrained := s.retrained.filter fun p => p.1 != l }.retireUnit 3 cUncorrectable l
      if l < 16 then .next { s with island := { s.island with ports := nset s.island.ports l false } }.strandAll
      else .next (s.loseOn (linkDies l) 6)
  | _ => .next s

/-- LINK_DOWN (R342): a port goes down; where no path remains, what is on its way is answered ENDPOINT_DOWN. -/
def execLinkDown (s : State) : Out :=
  match s.arg with
  | .num p => .next { s with island := { s.island with ports := nset s.island.ports p false } }.strandAll
  | _ => .next s

/-- The cycle in which DRAIN ends (R340): 100 microseconds after a transit packet entered last, and 10 ms after DRAIN began at the latest. -/
def Island.drainEnd (i : Island) : Nat := min (i.lastTransit + nsCycles 100000) (i.drainSince + nsCycles 10000000)

/-- DRAIN_END (R340, R343): at the end of DRAIN the island goes through BOOT with the firmware that waits; transit packets that it holds are
dropped, stranded operations are answered ENDPOINT_DOWN, and no die changes. -/
def execDrainEnd (s : State) : Out :=
  if s.island.st ≠ .drain then .next s
  else if s.cycle < s.island.drainEnd then .next (s.later (s.island.drainEnd - s.cycle) none .drainEnd .nothing)
  else
    let fw := s.island.firmware
    let s := { s with island := { s.island with islandFw := fw.getD s.island.islandFw, firmware := none } }
    .next ((s.count 0x0C (unitOf 5 0) 1).enterBoot.strandAll)

/-- ISLAND_RAIL_LOSS (R340, R367): from any state to OFF; what flash holds of the life records remains. -/
def execIslandRailLoss (s : State) : Out :=
  .next { s with life := s.flash, island := { s.island with st := .off, ports := [], attach := none, next := 0, inUse := [], refused := [],
                                                            streams := [], firmware := none, passed := false,
                                                            transit := [] } }.strandAll

end Sys2Proof.Machine
end

