-- ==== Sys2Proof/Machine/Vector.lean ====
section
/-!
DEFINITION. The vector instructions (R95-R112): lanes, masks, the results of every operation, and the instructions.
-/
namespace Sys2Proof.Machine

open Sys2Proof

/-! ## Lanes (R14) -/

/-- Lane `i` of a vector with lanes of `w` bits. -/
def lane (w : Nat) (v : Vec) (i : Nat) : Nat := v.toNat / 2 ^ (w * i) % 2 ^ w

/-- The vector of a list of lanes of `w` bits, lane 0 first. -/
def ofLanes (w : Nat) : List Nat → Nat
  | [] => 0
  | x :: xs => x % 2 ^ w + 2 ^ w * ofLanes w xs

/-- A vector of lanes given by index. -/
def vecOf (w n : Nat) (f : Nat → Nat) : Vec := BitVec.ofNat 128 (ofLanes w ((List.range n).map f))

/-- A lane in the signedness of its type (R98). -/
def laneI (t : ETy) (v : Vec) (i : Nat) : Int :=
  if t.isSigned then sextN (lane t.bits v i) t.bits else (lane t.bits v i : Int)

/-- Bit `i` of a mask. -/
def mbit (m : BitVec 16) (i : Nat) : Bool := m.getLsbD i

/-- Lanes under a mask that governs (R95): an inactive lane keeps its old value. -/
def vmap (t : ETy) (m : BitVec 16) (old : Vec) (f : Nat → Nat) : Vec :=
  vecOf t.bits t.lanes fun i => if mbit m i then f i else lane t.bits old i

/-- Lanes under a mask, each with flags, no lane taking a stochastic step. -/
def vmapF (t : ETy) (m : BitVec 16) (old : Vec) (f : Nat → Nat × BitVec 9) : Vec × BitVec 9 :=
  (vmap t m old fun i => (f i).1,
   (List.range t.lanes).foldl (fun fl i => if mbit m i then fl ||| (f i).2 else fl) 0)

/-- Results in ascending order, each active one taking its stochastic step (R87): the values, the flags and the seed. -/
def rounded (mode : Nat) (act : Nat → Bool) (old : Nat → Nat) (f : Nat → Nat → Nat × BitVec 9) :
    List Nat → BitVec 32 → List Nat × BitVec 9 × BitVec 32
  | [], sd => ([], 0, sd)
  | i :: is, sd =>
    if act i then
      let sd' := seedFor mode sd
      let (x, fl) := f i sd'.toNat
      let (xs, fls, sd'') := rounded mode act old f is sd'
      (x :: xs, fl ||| fls, sd'')
    else
      let (xs, fls, sd') := rounded mode act old f is sd
      (old i :: xs, fls, sd')

/-- A vector of rounded lanes under a mask that governs. -/
def vround (t : ETy) (mode : Nat) (m : BitVec 16) (old : Vec) (sd : BitVec 32) (f : Nat → Nat → Nat × BitVec 9) :
    Vec × BitVec 9 × BitVec 32 :=
  let (xs, fl, sd') := rounded mode (mbit m) (lane t.bits old) f (List.range t.lanes) sd
  (BitVec.ofNat 128 (ofLanes t.bits xs), fl, sd')

/-- The rounding mode in force: FCSR.RM (R85). -/
def Ctx.rm (x : Ctx) : Nat := nbits x.fcsr.toNat 2 0

/-- Flags set in FCSR. -/
def Ctx.orFlags (x : Ctx) (fl : BitVec 9) : Ctx := { x with fcsr := x.fcsr ||| fl }

/-! ## Forms -/

/-- A short vector instruction with two sources: v[D] and the flags. -/
def formV3 (o : V3) (s : State) (f : Ctx → Vec → Vec → Vec → Vec × BitVec 9) : Out :=
  s.issueCtx o.s [vr o.d, vr o.a, vr o.b] fun x =>
    let (v, fl) := f x (x.getV o.d.toNat) (x.getV o.a.toNat) (x.getV o.b.toNat)
    (x.setV o.d.toNat v).orFlags fl

/-- A short vector instruction with one source. -/
def formV2 (o : V2) (s : State) (f : Ctx → Vec → Vec → Vec) : Out :=
  s.issueCtx o.s [vr o.d, vr o.a] fun x => x.setV o.d.toNat (f x (x.getV o.d.toNat) (x.getV o.a.toNat))

/-- A long vector instruction: its result, flags and seed are fixed at issue (R85), the seed is stepped at issue and the
flags are set when the result is written (R90). -/
def formVLong (sm : Bool) (regs : List Reg) (w : IWord) (s : State) (dst : Reg) (lat : Nat)
    (f : Ctx → Vec × BitVec 9 × BitVec 32) : Out :=
  s.issue ⟨sm, none, regs⟩ fun s c =>
    let (v, fl, sd) := f (s.ctx c)
    .ok ((s.setCtx c { s.ctx c with rndseed := sd }).longResult c w dst v lat fl)

/-- A long vector instruction with two sources and no rounding. -/
def formV3Long (o : V3) (w : IWord) (s : State) (f : Ctx → Vec → Vec → Vec → Vec) : Out :=
  formVLong o.s [vr o.d, vr o.a, vr o.b] w s (vr o.d) Config.latVec fun x =>
    (f x (x.getV o.d.toNat) (x.getV o.a.toNat) (x.getV o.b.toNat), 0, x.rndseed)

/-- A long vector instruction with two sources whose active lanes round. -/
def formV3Round (o : V3) (w : IWord) (s : State) (f : ETy → Nat → Nat → Nat → Nat → Nat → Nat × BitVec 9) : Out :=
  formVLong o.s [vr o.d, vr o.a, vr o.b] w s (vr o.d) Config.latVec fun x =>
    let d := x.getV o.d.toNat
    let a := x.getV o.a.toNat
    let b := x.getV o.b.toNat
    vround o.t x.rm (x.getM o.m.toNat) d x.rndseed fun i r =>
      f o.t x.rm r (lane o.t.bits a i) (lane o.t.bits b i) (lane o.t.bits d i)

/-- A long vector instruction with one source and no rounding. -/
def formV2Long (o : V2) (w : IWord) (s : State) (lat : Nat) (f : Ctx → Vec → Vec) : Out :=
  formVLong o.s [vr o.d, vr o.a] w s (vr o.d) lat fun x => (f x (x.getV o.a.toNat), 0, x.rndseed)

/-- A function of R105 on lanes. -/
def formVFun (o : V2) (w : IWord) (s : State) (g : FFun) : Out :=
  formVLong o.s [vr o.d, vr o.a] w s (vr o.d) Config.latFun fun x =>
    let a := x.getV o.a.toNat
    vround o.t x.rm (x.getM o.m.toNat) (x.getV o.d.toNat) x.rndseed fun i r => fFun g o.t x.rm r (lane o.t.bits a i)

/-- Integer lanes of two sources under the mask (R98). -/
def formVI (o : V3) (s : State) (f : Int → Int → Int) : Out :=
  formV3 o s fun x d a b =>
    (vmap o.t (x.getM o.m.toNat) d fun i => toBitsN (f (laneI o.t a i) (laneI o.t b i)) o.t.bits, 0)

/-- Integer lanes with saturation (R78, R98). -/
def formVSat (o : V3) (s : State) (f : Int → Int → Int) : Out :=
  formV3 o s fun x d a b =>
    vmapF o.t (x.getM o.m.toNat) d fun i =>
      let (q, sat) := saturate o.t.isSigned o.t.bits (f (laneI o.t a i) (laneI o.t b i))
      (toBitsN q o.t.bits, flag sat flSAT)

/-- Lanes as bit patterns under the mask (R99). -/
def formVB (o : V3) (s : State) (f : Nat → Nat → Nat) : Out :=
  formV3 o s fun x d a b =>
    (vmap o.t (x.getM o.m.toNat) d fun i => f (lane o.t.bits a i) (lane o.t.bits b i), 0)

/-- A compare into a mask (R101, R104): bits of inactive lanes and at or above L are 0. -/
def formVC (o : VC) (s : State) (f : Nat → Nat → Bool × BitVec 9) : Out :=
  s.issueCtx o.s [vr o.a, vr o.b] fun x =>
    let a := x.getV o.a.toNat
    let b := x.getV o.b.toNat
    let m := x.getM o.m.toNat
    let on (i : Nat) : Bool × BitVec 9 := if mbit m i then f (lane o.t.bits a i) (lane o.t.bits b i) else (false, 0)
    let bitsOf := ofLanes 1 ((List.range o.t.lanes).map fun i => if (on i).1 then 1 else 0)
    let fl := (List.range o.t.lanes).foldl (fun fl i => fl ||| (on i).2) 0
    (x.setM o.d.toNat (BitVec.ofNat 16 bitsOf)).orFlags fl

/-- A lane value in the signedness of a type. -/
def asI (t : ETy) (x : Nat) : Int := if t.isSigned then sextN x t.bits else (x : Int)

/-! ## Integer arithmetic (R98) -/

def execVadd (o : V3) (s : State) : Out := formVI o s (· + ·)
def execVsub (o : V3) (s : State) : Out := formVI o s (· - ·)
def execVadds (o : V3) (s : State) : Out := formVSat o s (· + ·)
def execVsubs (o : V3) (s : State) : Out := formVSat o s (· - ·)
def execVmin (o : V3) (s : State) : Out := formVI o s fun a b => if a ≤ b then a else b
def execVmax (o : V3) (s : State) : Out := formVI o s fun a b => if a ≤ b then b else a
def execVavg (o : V3) (s : State) : Out := formVI o s fun a b => (a + b + 1) / 2

/-- VMUL and VMULH: a slice of the exact product (R98). -/
def execVmul (o : V3) (s : State) : Out :=
  formV3Long o (firstWord (.vmul o)) s fun x d a b =>
    vmap o.t (x.getM o.m.toNat) d fun i => toBitsN (laneI o.t a i * laneI o.t b i) o.t.bits

def execVmulh (o : V3) (s : State) : Out :=
  formV3Long o (firstWord (.vmulh o)) s fun x d a b =>
    vmap o.t (x.getM o.m.toNat) d fun i => toBitsN (laneI o.t a i * laneI o.t b i / 2 ^ o.t.bits) o.t.bits

def execVabs (o : V2) (s : State) : Out :=
  formV2 o s fun x d a => vmap o.t (x.getM o.m.toNat) d fun i => toBitsN ((laneI o.t a i).natAbs : Int) o.t.bits

def execVneg (o : V2) (s : State) : Out :=
  formV2 o s fun x d a => vmap o.t (x.getM o.m.toNat) d fun i => toBitsN (-(laneI o.t a i)) o.t.bits

/-! ## Logic, shifts and selection (R99) -/

def execVand (o : V3) (s : State) : Out := formVB o s (· &&& ·)
def execVor (o : V3) (s : State) : Out := formVB o s (· ||| ·)
def execVxor (o : V3) (s : State) : Out := formVB o s (· ^^^ ·)
def execVandn (o : V3) (s : State) : Out := formVB o s fun a b => a ^^^ (a &&& b)
def execVshl (o : V3) (s : State) : Out := formVB o s fun a b => a * 2 ^ (b % o.t.bits)
def execVshr (o : V3) (s : State) : Out := formVB o s fun a b => a / 2 ^ (b % o.t.bits)
def execVsra (o : V3) (s : State) : Out :=
  formVB o s fun a b => toBitsN (sextN a o.t.bits / 2 ^ (b % o.t.bits)) o.t.bits

/-- VSEL: the mask selects (R99). -/
def execVsel (o : V3) (s : State) : Out :=
  formV3 o s fun x _ a b =>
    (vecOf o.t.bits o.t.lanes fun i => if mbit (x.getM o.m.toNat) i then lane o.t.bits a i else lane o.t.bits b i, 0)

/-! ## Dot products (R100) -/

/-- VDOT: four exact products into each destination lane, which is four times as wide. -/
def execVdot (o : V3) (s : State) : Out :=
  formV3Long o (firstWord (.vdot o)) s fun x d a b =>
    let w := 4 * o.t.bits
    vecOf w (o.t.lanes / 4) fun j =>
      if mbit (x.getM o.m.toNat) j then
        let acc : Int := if o.t.isSigned then sextN (lane w d j) w else (lane w d j : Int)
        toBitsN ((List.range 4).foldl (fun z k => z + laneI o.t a (4 * j + k) * laneI o.t b (4 * j + k)) acc) w
      else lane w d j

/-! ## Compares (R101, R104) -/

def execVcmpEq (o : VC) (s : State) : Out := formVC o s fun a b => (a == b, 0)
def execVcmpNe (o : VC) (s : State) : Out := formVC o s fun a b => (a != b, 0)
def execVcmpLt (o : VC) (s : State) : Out := formVC o s fun a b => (decide (asI o.t a < asI o.t b), 0)
def execVcmpLe (o : VC) (s : State) : Out := formVC o s fun a b => (decide (asI o.t a ≤ asI o.t b), 0)

/-- A float compare: false with a NaN; NV for a signalling NaN, and for any NaN where `anyNaN` (R104). -/
def fCompare (t : ETy) (anyNaN : Bool) (p : Int → Int → Bool) (a b : Nat) : Bool × BitVec 9 :=
  if isNaN t a || isNaN t b then (false, if anyNaN then flNV else snanFlag t [a, b]) else (p (fOrd t a) (fOrd t b), 0)

def execVfcmpEq (o : VC) (s : State) : Out := formVC o s (fCompare o.t false fun a b => a == b)
def execVfcmpLt (o : VC) (s : State) : Out := formVC o s (fCompare o.t true fun a b => decide (a < b))
def execVfcmpLe (o : VC) (s : State) : Out := formVC o s (fCompare o.t true fun a b => decide (a ≤ b))
def execVfcmpUn (o : VC) (s : State) : Out :=
  formVC o s fun a b => (isNaN o.t a || isNaN o.t b, snanFlag o.t [a, b])

/-! ## Float arithmetic (R102, R103) -/

def execVfadd (o : V3) (s : State) : Out := formV3Round o (firstWord (.vfadd o)) s fun t m r a b _ => fAdd t m r a b
def execVfsub (o : V3) (s : State) : Out := formV3Round o (firstWord (.vfsub o)) s fun t m r a b _ => fSub t m r a b
def execVfmul (o : V3) (s : State) : Out := formV3Round o (firstWord (.vfmul o)) s fun t m r a b _ => fMul t m r a b
def execVfma (o : V3) (s : State) : Out := formV3Round o (firstWord (.vfma o)) s fFma
def execVfms (o : V3) (s : State) : Out := formV3Round o (firstWord (.vfms o)) s fFms

/-- VFMIN and VFMAX (R103). -/
def formVPick (o : V3) (s : State) (greater : Bool) : Out :=
  formV3 o s fun x d a b =>
    vmapF o.t (x.getM o.m.toNat) d fun i => fPick o.t greater (lane o.t.bits a i) (lane o.t.bits b i)

def execVfmin (o : V3) (s : State) : Out := formVPick o s false
def execVfmax (o : V3) (s : State) : Out := formVPick o s true

def execVfabs (o : V2) (s : State) : Out :=
  formV2 o s fun x d a => vmap o.t (x.getM o.m.toNat) d fun i => lane o.t.bits a i % o.t.signBit

def execVfneg (o : V2) (s : State) : Out :=
  formV2 o s fun x d a => vmap o.t (x.getM o.m.toNat) d fun i => lane o.t.bits a i ^^^ o.t.signBit

/-! ## Correctly rounded functions (R105) -/

def execVrcp (o : V2) (s : State) : Out := formVFun o (firstWord (.vrcp o)) s .rcp
def execVrsq (o : V2) (s : State) : Out := formVFun o (firstWord (.vrsq o)) s .rsq
def execVsqrt (o : V2) (s : State) : Out := formVFun o (firstWord (.vsqrt o)) s .sqrt
def execVexp2 (o : V2) (s : State) : Out := formVFun o (firstWord (.vexp2 o)) s .exp2
def execVlog2 (o : V2) (s : State) : Out := formVFun o (firstWord (.vlog2 o)) s .log2

/-! ## Conversions (R106, R107) -/

/-- Whether a conversion is formed with round or round_int, and so takes a stochastic step (R87). -/
def cvtSteps (src dst : ETy) : Bool := if src.isFloat then dst != .f32 else dst.isFloat

/-- The R91 conversion of one lane, integers into integers with saturation (R106). -/
def cvtLane (src dst : ETy) (mode r x : Nat) : Nat × BitVec 9 :=
  if src.isFloat then
    if dst.isFloat then cvtFF src dst mode r x
    else
      let (i, fl) := cvtVI dst.isSigned dst.bits mode r (fval src x)
      (toBitsN i dst.bits, fl)
  else if dst.isFloat then cvtIF dst mode r (asI src x)
  else
    let (i, sat) := saturate dst.isSigned dst.bits (asI src x)
    (toBitsN i dst.bits, flag sat flSAT)

/-- The source lane that goes to destination lane `d` (R106); none where no pair names it. -/
def cvtPair (ls ld h d : Nat) : Option Nat :=
  if ld = ls then some d
  else if ld < ls then some (ld * h + d)
  else if ls * h ≤ d ∧ d < ls * h + ls then some (d - ls * h) else none

/-- VCVT (R106). -/
def execVcvt (o : V3) (s : State) : Out :=
  formVLong o.s [vr o.d, vr o.a] (firstWord (.vcvt o)) s (vr o.d) Config.latVec fun x =>
    match ETy.ofCode (o.b.extractLsb' 0 4) with
    | none => (x.getV o.d.toNat, 0, x.rndseed)
    | some dst =>
      let a := x.getV o.a.toNat
      let pair := cvtPair o.t.lanes dst.lanes (o.b.toNat / 16)
      let act (d : Nat) : Bool := mbit (x.getM o.m.toNat) d && (pair d).isSome
      let mode := if cvtSteps o.t dst then x.rm else if x.rm = rmRSTO then rmRNE else x.rm
      let (xs, fl, sd) := rounded mode act (lane dst.bits (x.getV o.d.toNat))
        (fun d r => cvtLane o.t dst mode r (lane o.t.bits a ((pair d).getD 0))) (List.range dst.lanes) x.rndseed
      (BitVec.ofNat 128 (ofLanes dst.bits xs), fl, sd)

/-- VQNT of one lane: x · 2^(127 − E) into PS(n) or PN(n) (R107). -/
def quantise (t : ETy) (mode r : Nat) (q x : Nat) : Nat × BitVec 9 :=
  let n := nbits q 11 8 + 1
  let e := nbits q 7 0
  let v : FVal := match fval t x with
    | .fin s m k => .fin s m (k + 127 - e)
    | y => y
  let (i, fl) := if e = 255 then (0, flNV) else cvtVI (nbits q 12 12 == 0) n mode r v
  (toBitsN i t.bits, fl)

/-- VQNT (R107). -/
def execVqnt (o : V3) (s : State) : Out :=
  formVLong o.s [vr o.d, vr o.a, vr o.b] (firstWord (.vqnt o)) s (vr o.d) Config.latVec fun x =>
    let a := x.getV o.a.toNat
    let q := (x.getV o.b.toNat).toNat
    vround o.t x.rm (x.getM o.m.toNat) (x.getV o.d.toNat) x.rndseed fun i r => quantise o.t x.rm r q (lane o.t.bits a i)

/-! ## Plane packing (R108) -/

/-- VPLANE: the mask selects; chunk p holds bit n − 1 − p of every lane. -/
def execVplane (o : VP) (s : State) : Out :=
  formVLong o.s [vr o.d, vr o.a] (firstWord (.vplane o)) s (vr o.d) Config.latVec fun x =>
    let n := o.n.toNat + 1
    let a := x.getV o.a.toNat
    let chunk (p : Nat) : Nat := ofLanes 1 ((List.range o.t.lanes).map fun i =>
      if mbit (x.getM o.m.toNat) i then nbits (lane o.t.bits a i) (n - 1 - p) (n - 1 - p) else 0)
    (vecOf o.t.lanes n chunk, 0, x.rndseed)

/-- VUNPLANE: the prefix value P_k of R83 in every active lane. -/
def execVunplane (o : VP) (s : State) : Out :=
  formVLong o.s [vr o.d, vr o.a] (firstWord (.vunplane o)) s (vr o.d) Config.latVec fun x =>
    let k := o.n.toNat + 1
    let a := (x.getV o.a.toNat).toNat
    let b (p i : Nat) : Int := (nbits a (o.t.lanes * p + i) (o.t.lanes * p + i) : Int)
    let w0 : Int := if o.t.isSigned then -(2 ^ (k - 1) : Int) else 2 ^ (k - 1)
    let val (i : Nat) : Int :=
      (List.range (k - 1)).foldl (fun z p => z + 2 ^ (k - 2 - p) * b (p + 1) i) (w0 * b 0 i)
    (vmap o.t (x.getM o.m.toNat) (x.getV o.d.toNat) fun i => toBitsN (val i) o.t.bits, 0, x.rndseed)

/-! ## Moving lanes (R109) -/

/-- Lanes of the destination by index, under a mask that governs. -/
def formVMove (o : V3) (s : State) (f : Vec → Vec → Nat → Nat) : Out :=
  formV3 o s fun x d a b => (vmap o.t (x.getM o.m.toNat) d (f a b), 0)

def execVmov (o : V2) (s : State) : Out :=
  formV2 o s fun x d a => vmap o.t (x.getM o.m.toNat) d (lane o.t.bits a)

def execVperm (o : V3) (s : State) : Out :=
  formVMove o s fun a b i =>
    if lane o.t.bits b i < o.t.lanes then lane o.t.bits a (lane o.t.bits b i) else 0

def execVzip (o : V3) (s : State) : Out :=
  formVMove o s fun a b i => if i % 2 = 0 then lane o.t.bits a (i / 2) else lane o.t.bits b (i / 2)

def execVunzip (o : V3) (s : State) : Out :=
  formVMove o s fun a b i =>
    if i < o.t.lanes / 2 then lane o.t.bits a (2 * i) else lane o.t.bits b (2 * i - o.t.lanes)

def execVslide (o : V3) (s : State) : Out :=
  formVMove o s fun a b i =>
    let j : Int := (i : Int) + sextN b.toNat 5
    if 0 ≤ j ∧ j < o.t.lanes then lane o.t.bits a j.toNat else 0

/-- VCOMPRESS: the active lanes fill lanes 0 up; the rest are 0. -/
def execVcompress (o : V2) (s : State) : Out :=
  formV2 o s fun x _ a =>
    let act := ((List.range o.t.lanes).filter (mbit (x.getM o.m.toNat))).map (lane o.t.bits a)
    BitVec.ofNat 128 (ofLanes o.t.bits act)

/-- VEXPAND: bit i takes the next lane of va, or 0. -/
def execVexpand (o : V2) (s : State) : Out :=
  formV2 o s fun x _ a =>
    let m := x.getM o.m.toNat
    vecOf o.t.bits o.t.lanes fun i => if mbit m i then lane o.t.bits a (popN i m.toNat) else 0

/-! ## Reductions (R92, R110, R111) -/

/-- One level of the pairwise tree: neighbours combine where both are present, with a state that runs through the nodes. -/
def treeLevel {α σ : Type} (f : α → α → σ → α × σ) : List (Option α) → σ → List (Option α) × σ
  | some a :: some b :: r, z =>
    let (x, z) := f a b z
    let (xs, z) := treeLevel f r z
    (some x :: xs, z)
  | a :: b :: r, z =>
    let (xs, z) := treeLevel f r z
    (a.orElse (fun _ => b) :: xs, z)
  | l, z => (l, z)

/-- The pairwise tree of R92 over at most 2^k lanes. -/
def tree {α σ : Type} (f : α → α → σ → α × σ) : Nat → List (Option α) → σ → Option α × σ
  | 0, l, z => (l.head?.getD none, z)
  | k + 1, l, z =>
    let (l', z') := treeLevel f l z
    tree f k l' z'

/-- The lanes of a vector that a mask makes present. -/
def present (t : ETy) (m : BitVec 16) (v : Vec) : List (Option Nat) :=
  (List.range t.lanes).map fun i => if mbit m i then some (lane t.bits v i) else none

/-- An integer reduction (R110): lane 0 of the result, 0 in every other lane. -/
def formVRed (o : V2) (w : IWord) (s : State) (f : Int → Int → Int) (none' : Int) : Out :=
  formV2Long o w s Config.latVec fun x a =>
    let l := (present o.t (x.getM o.m.toNat) a).map (Option.map (asI o.t))
    let (q, _) := tree (fun a b (z : Unit) => (asI o.t (toBitsN (f a b) o.t.bits), z)) 4 l ()
    BitVec.ofNat 128 (toBitsN (q.getD none') o.t.bits)

def execVredadd (o : V2) (s : State) : Out := formVRed o (firstWord (.vredadd o)) s (· + ·) 0
def execVredmin (o : V2) (s : State) : Out :=
  formVRed o (firstWord (.vredmin o)) s (fun a b => if a ≤ b then a else b) (intMax o.t.isSigned o.t.bits)
def execVredmax (o : V2) (s : State) : Out :=
  formVRed o (firstWord (.vredmax o)) s (fun a b => if a ≤ b then b else a) (intMin o.t.isSigned o.t.bits)

/-- A float reduction into g[G] (R111): the nodes in order, each with its flags, and its step where it rounds. -/
def formVFRed (o : VG) (w : IWord) (s : State) (steps : Bool) (f : ETy → Nat → Nat → Nat → Nat → Nat × BitVec 9)
    (none' : Nat) : Out :=
  formVLong o.s [vr o.d, gr o.g] w s (gr o.g) Config.latRed fun x =>
    let node (a b : Nat) (z : BitVec 9 × BitVec 32) : Nat × (BitVec 9 × BitVec 32) :=
      let sd := if steps then seedFor x.rm z.2 else z.2
      let (q, fl) := f o.t x.rm sd.toNat a b
      (q, (z.1 ||| fl, sd))
    let (q, fl, sd) := tree node 4 (present o.t (x.getM o.m.toNat) (x.getV o.d.toNat)) (0, x.rndseed)
    (BitVec.ofNat 128 (q.getD none'), fl, sd)

def execVfredadd (o : VG) (s : State) : Out := formVFRed o (firstWord (.vfredadd o)) s true fAdd 0
def execVfredmax (o : VG) (s : State) : Out :=
  formVFRed o (firstWord (.vfredmax o)) s false (fun t _ _ a b => fPick t true a b) (infBits o.t true)
def execVfredmin (o : VG) (s : State) : Out :=
  formVFRed o (firstWord (.vfredmin o)) s false (fun t _ _ a b => fPick t false a b) (infBits o.t false)

/-! ## Lanes and scalars (R112) -/

def execVbcast (o : VG) (s : State) : Out :=
  s.issueCtx o.s [vr o.d, gr o.g] fun x =>
    x.setV o.d.toNat (vmap o.t (x.getM o.m.toNat) (x.getV o.d.toNat) fun _ => (x.getG o.g.toNat).toNat % 2 ^ o.t.bits)

def execVext (o : VL) (s : State) : Out :=
  s.issueCtx o.s [vr o.d, gr o.g] fun x => x.setG o.g.toNat (wordI (laneI o.t (x.getV o.d.toNat) o.l.toNat))

def execVins (o : VL) (s : State) : Out :=
  s.issueCtx o.s [vr o.d, gr o.g] fun x =>
    x.setV o.d.toNat (vecOf o.t.bits o.t.lanes fun i =>
      if i = o.l.toNat then (x.getG o.g.toNat).toNat else lane o.t.bits (x.getV o.d.toNat) i)

end Sys2Proof.Machine
end

