-- ==== Sys2Proof/Machine/Nest.lean ====
section
/-!
DEFINITION. The loop nest (R113-R118): the accesses of an iteration with their checks, its operation, and the steps of a running nest.
-/
namespace Sys2Proof.Machine

open Sys2Proof

/-! ## Accesses of a context to its own pool, made in its slots (R115, R118, R271) -/

/-- The check of one access of `e` bytes (R115): SELF, aligned, and not protected. -/
def State.selfTrap (s : State) (core : Nat) (a : Word) (e : Nat) : Option Trap :=
  if bits a 63 20 ≠ 0 then some (exact cBounds a 0)
  else if a.toNat % e ≠ 0 then some (exact cMisalign a 0)
  else if s.poolRangeProtected (s.jobOf core) core (bits a 19 0) e then some (exact cProtect a 0)
  else none

/-- The first trap of a list of accesses, each an address and a size, in order. -/
def State.selfTraps (s : State) (core : Nat) : List (Word × Nat) → Option Trap
  | [] => none
  | (a, e) :: r =>
    match s.selfTrap core a e with
    | some t => some t
    | none => s.selfTraps core r

/-- How an access in a slot ends: done, a trap, or a wait for room in the mark table (R160); or the job is lost. -/
inductive SlotAns (α : Type) where
  | ok (a : α)
  | trap (t : Trap)
  | wait (w : Who)
  /-- Poisoned data is consumed at a location by an access that names an address (R358). -/
  | lost (a : Word) (loc : Nat)
deriving DecidableEq, Repr

/-- The marks of one access in a slot; RACE names the line and no other party (R117, R271). -/
def State.slotMark (s : State) (c : CtxId) (a : Word) (e : Nat) (write : Bool) : SlotAns State :=
  let loc := poolLoc c.core (bits a 19 0)
  match s.markLines ⟨none, c⟩ (s.ctx c).region write (s.markable loc e) with
  | (.ok s', _) => .ok s'
  | (.conflict _, l) => .trap (exact cRace (word (l * 64 - poolLoc c.core 0)) 0)
  | (.full y, _) => .wait y

/-- The marks of a list of accesses: address, size, and whether it writes. A read of poisoned data loses the job. -/
def State.slotMarks (s : State) (c : CtxId) : List (Word × Nat × Bool) → SlotAns State
  | [] => .ok s
  | (a, e, w) :: r =>
    match s.slotMark c a e w with
    | .ok s' =>
      match if w then s'.mergesPoison (poolLoc c.core (bits a 19 0)) e else s'.poisoned (poolLoc c.core (bits a 19 0)) e with
      | some l => .lost a l
      | none => s'.slotMarks c r
    | x => x

/-- The value at a SELF address, as the thread's job reads it (R12). -/
def State.selfRead (s : State) (core : Nat) (a : Word) (e : Nat) : Nat :=
  (s.shown (poolLoc core (bits a 19 0)) e).read (poolLoc core (bits a 19 0)) e

/-- TRAPINFO of a trap that interrupts a nest or MXSCALE at a linear index (R117, R271). -/
def nestInfo (t : Nat) : Word := word (2 ^ 63 + t % 2 ^ 55)

/-- The index at which a nest or MXSCALE starts (R117): that of TRAPINFO when TRET entered it with NEST 1. -/
def Ctx.startAt (x : Ctx) : Nat := if x.resumed && bit x.trapinfo 63 then bits x.trapinfo 54 0 else 0

/-! ## Iterations (R114) -/

/-- EXTj + 1 of each level. -/
def nestExts (n : Nest) : List Nat := n.levels.map fun l => l.ext.toNat + 1

/-- The number of iterations. -/
def nestTotal (n : Nest) : Nat := (nestExts n).foldl (· * ·) 1

/-- The indexes of a linear index, level 0 first. -/
def indexes : Nat → List Nat → List Nat
  | _, [] => []
  | t, e :: es => t % e :: indexes (t / e) es

/-- A scale of 1, 16, 256 or 4096 by its code (R40). -/
def scaleOf (c : BitVec 2) : Nat := 16 ^ c.toNat

/-- The address of an operand at an iteration. -/
def nestAddr (n : Nest) (t : Nat) (base : Word) (sc : BitVec 2) (st : Level → BitVec 10) : Word :=
  let offs := (indexes t (nestExts n)).zipWith (fun (i : Nat) (l : Level) => (i : Int) * (st l).toInt) n.levels
  base + wordI ((n.t.bytes * scaleOf sc : Nat) * offs.foldl (· + ·) 0)

/-- Whether an operation reads D (R114). -/
def opReadsD : NestOp → Bool
  | .fma | .rsum | .rdot | .rmax | .rmin => true
  | _ => false

/-- Whether an operation rounds its result on a float type (R114). -/
def opRounds : NestOp → Bool
  | .add | .sub | .mul | .fma | .rsum | .rdot => true
  | _ => false

/-- The lesser or greater of two integers by the signedness of a type. -/
def pickI (t : ETy) (greater : Bool) (a b : Nat) : Nat := if (asI t a ≤ asI t b) == greater then b else a

/-- What an iteration writes to D, with its flags (R113). -/
def opValue (op : NestOp) (t : ETy) (mode r a b d : Nat) : Nat × BitVec 9 :=
  if t.isFloat then
    match op with
    | .mov => (a, 0)
    | .add => fAdd t mode r a b
    | .sub => fSub t mode r a b
    | .mul => fMul t mode r a b
    | .fma => fFma t mode r a b d
    | .min => fPick t false a b
    | .max => fPick t true a b
    | .rsum => fAdd t mode r d a
    | .rdot => fFma t mode r a b d
    | .rmax => fPick t true d a
    | .rmin => fPick t false d a
  else
    let m := 2 ^ t.bits
    match op with
    | .mov => (a, 0)
    | .add => ((a + b) % m, 0)
    | .sub => ((a + m - b) % m, 0)
    | .mul => (a * b % m, 0)
    | .fma => ((a * b + d) % m, 0)
    | .min => (pickI t false a b, 0)
    | .max => (pickI t true a b, 0)
    | .rsum => ((d + a) % m, 0)
    | .rdot => ((d + a * b) % m, 0)
    | .rmax => (pickI t true d a, 0)
    | .rmin => (pickI t false d a, 0)

/-- What an iteration does: its flags, its RNDSEED step and its marks take effect at once, and its write, a location and a value, is performed
later (R118); an inactive iteration writes nothing. -/
abbrev Iterated : Type := State × Option (Nat × Nat)

/-- The writes of a step, in order; each clears the poison that it covers. -/
def State.nestWrites (s : State) (e : Nat) : List (Nat × Nat) → State
  | [] => s
  | (l, v) :: r => ((s.write l e v).cleanse l e).nestWrites e r

/-- One iteration (R114, R115), whose reads see the writes of the step before it: an inactive one does nothing; an active one is checked whole,
marks its lines, and reads. -/
def State.iterate (s : State) (c : CtxId) (r : NestRun) : SlotAns Iterated :=
  let n := r.nest
  let x := s.ctx c
  let e := n.t.bytes
  let i0 := (indexes r.t (nestExts n)).headD 0
  if !mbit (x.getM n.m.toNat) (i0 % n.t.lanes) then .ok (s, none)
  else
    let aa := nestAddr n r.t r.a n.sca (·.sta)
    let ab := nestAddr n r.t r.b n.scb (·.stb)
    let ad := nestAddr n r.t r.d n.scd (·.std)
    let useB := n.op.usesB
    match s.selfTraps c.core ([(aa, e)] ++ (if useB then [(ab, e)] else []) ++ [(ad, e)]) with
    | some t => .trap t
    | none =>
      match s.slotMarks c ([(aa, e, false)] ++ (if useB then [(ab, e, false)] else [])
          ++ (if opReadsD n.op then [(ad, e, false)] else []) ++ [(ad, e, true)]) with
      | .ok s =>
        let sd := if n.t.isFloat && opRounds n.op then seedFor r.mode x.rndseed else x.rndseed
        let t := s.nestWrites e r.writes
        let (v, fl) := opValue n.op n.t r.mode sd.toNat (t.selfRead c.core aa e) (if useB then t.selfRead c.core ab e else 0)
          (t.selfRead c.core ad e)
        .ok (s.setCtx c { x with rndseed := sd, fcsr := x.fcsr ||| fl }, some (poolLoc c.core (bits ad 19 0), v))
      | .trap t => .trap t
      | .wait w => .wait w
      | .lost a l => .lost a l

/-- The iterations of one step (R116): up to L consecutive level-0 iterations when every used operand's scaled level-0 stride is 0
or +1. -/
def NestRun.group (r : NestRun) : Nat :=
  let n := r.nest
  let unit (sc : BitVec 2) (st : BitVec 10) : Bool :=
    let k := (scaleOf sc : Int) * st.toInt
    k == 0 || k == 1
  match n.levels with
  | [] => 1
  | l :: _ =>
    let ext := l.ext.toNat + 1
    if unit n.sca l.sta && unit n.scd l.std && (!n.op.usesB || unit n.scb l.stb) then min n.t.lanes (ext - r.t % ext) else 1

/-- Up to `k` iterations, one at a time in order, with their writes kept: the nest goes on at the first that does not complete. -/
def State.iterations (s : State) (c : CtxId) (r : NestRun) : Nat → State × NestRun × Option (SlotAns Unit)
  | 0 => (s, r, none)
  | k + 1 =>
    match s.iterate c r with
    | .ok (s', w) => s'.iterations c { r with t := r.t + 1, writes := r.writes ++ w.toList } k
    | .trap t => (s, r, some (.trap { t with info := nestInfo r.t }))
    | .wait w => (s, r, some (.wait w))
    | .lost a l => (s, r, some (.lost a l))

/-- The nest is at iteration `r.t`: its context goes on when none is left and every write is performed. -/
def State.nestAt (s : State) (c : CtxId) (r : NestRun) : State :=
  if nestTotal r.nest ≤ r.t ∧ r.writes = [] then s.setCtx c ({ s.ctx c with busy := .idle }.advance 8)
  else s.setCtx c { s.ctx c with busy := .nest r, resumed := false, handlerFirst := false }

/-- The nest after the reads of a step: its writes follow in the next cycle, and the message sequencer and the copy engine can reach the pool
before them (R118). -/
def State.nestRead (s : State) (c : CtxId) (r : NestRun) : State :=
  if r.writes = [] then s.nestAt c r else (s.nestAt c r).later 1 none .lnestStep (.pair c.core c.k)

/-- The writes of the last step are performed. -/
def State.nestWrite (s : State) (c : CtxId) (r : NestRun) : State :=
  (s.nestWrites r.nest.t.bytes r.writes).nestAt c { r with writes := [] }

/-- LNEST (R116, R117): it waits, checks its base registers, reads them, and begins; its first step is made in this slot. -/
def execLnest (o : Nest) (s : State) : Out :=
  s.issue ⟨true, none, [gr o.bd, gr o.ba, gr o.bb]⟩ fun s c =>
    let x := s.ctx c
    let r : NestRun := { nest := o, mode := if o.rm = 7 then x.rm else o.rm.toNat, t := x.startAt, a := x.getG o.ba.toNat,
                         b := x.getG o.bb.toNat, d := x.getG o.bd.toNat, writes := [] }
    .ok { s.nestAt c r with slots := if nestTotal o ≤ r.t then s.slots else c.core :: s.slots }

/-- LNEST_STEP (R116): one step of a running nest, which waits while an earlier access of the thread orders it (R146, R155, R170); a trap
interrupts it at its iteration, with the writes before it performed (R117). In the cycle after it the writes of the step are performed. -/
def execLnestStep (s : State) : Out :=
  match s.arg with
  | .pair core k =>
    match (s.ctx ⟨core, k⟩).busy with
    | .nest r => .next (s.nestWrite ⟨core, k⟩ r)
    | _ => .next s
  | .ctx c =>
    match (s.ctx c).busy with
    | .nest r =>
      if r.writes ≠ [] then .next (s.nestWrite c r)
      else if s.poolHeld c then .next s
      else
        match s.iterations c r (min r.group (nestTotal r.nest - r.t)) with
        | (s, r, none) => .next (s.nestRead c r)
        | (s, r, some (.trap t)) =>
          .next (((s.nestWrites r.nest.t.bytes r.writes).setCtx c { s.ctx c with busy := .nest { r with writes := [] } }).takeTrap c t)
        | (s, r, some (.wait w)) => .next ((s.nestRead c r).askRelease w)
        | (s, r, some (.lost a l)) => .next ((s.nestAt c r).lose (s.jobOf c.core) (lossAt c (s.ctx c).pc a l))
        | (s, r, some (.ok _)) => .next (s.nestRead c r)
    | _ => .next s
  | _ => .next s

end Sys2Proof.Machine
end

