-- ==== Sys2Proof/Machine/MatrixOps.lean ====
section
/-!
DEFINITION. The matrix instructions (R258-R274): MXMAP with its table steps, MXA, MXB, MXSKIP, MXRUN, MXSCALE with its steps, MXSEND with
the command window, MXSTAT and MXCAP.
-/
namespace Sys2Proof.Machine

open Sys2Proof

/-- The ILLEGAL of the commands on a cluster whose engine has failed (R258), at item 5 of R54. -/
def State.mxIllegal (s : State) (w : IWord) : Option Trap :=
  if (s.cluster (clusterOf s.cur.core)).health = 2 then some (exact cIllegal (w.zeroExtend 64) 0) else none

/-! ## MXMAP (R259) -/

/-- Whether a map entry is refused at issue, for an accumulator area of `acc` granules and a pitch. -/
def mapBad (acc pitch : Nat) (e : Word) : Bool :=
  mapArr e == 3 || bits e 37 20 != 0 || decide (128 < mapCount e) ||
    (mapCount e != 0 && (decide (128 < mapFirst e + mapCount e) || mapOff e % 16 != 0
      || decide (acc * 4096 < mapOff e + mapCount e * 16 * pitch)))

/-- MXMAP: the pitch word and the table's range are checked, and the table reads begin in this slot. -/
def execMxmap (o : KAB) (s : State) : Out :=
  s.issue ⟨true, s.mxIllegal (firstWord (.mxmap o)), [gr o.a, gr o.b]⟩ fun s c =>
    let x := s.ctx c
    let a := x.getG o.a.toNat
    let b := x.getG o.b.toNat
    if bits b 63 9 ≠ 0 ∨ bits b 7 6 ≠ 0 ∨ bits b 5 0 = 0 ∨ 32 < bits b 5 0 then .error (exact cBounds b 0)
    else
      match s.rangeTrap c.core a 64 8 with
      | some t => .error t
      | none =>
        .ok { s.setCtx c { x with busy := .mxmap a b [], handlerFirst := false, resumed := false } with slots := c.core :: s.slots }

/-- The end of MXMAP's reads: the entries are checked, and the command is issued (R259). -/
def State.mxmapFinish (s : State) (c : CtxId) (w : IWord) (a b : Word) (es : List Word) : State :=
  match es.find? (mapBad (partAcc (s.core c.core).partword) (bits b 5 0)) with
  | some e => s.raise c (exact cBounds e 0)
  | none =>
    match (s.setCtx c { s.ctx c with busy := .idle }).command c w .mxmap (b :: es) [] (bit b 8) none with
    | .error t => s.raise c t
    | .ok t => if (t.ctx c).st = .stalled then t.setCtx c { t.ctx c with busy := .mxmap a b es } else t

/-- MXMAP_TABLE_STEP (R259): two entries of the table, read as plain accesses of the thread, which wait while an earlier access of it orders them
(R146, R155, R170). -/
def execMxmapTableStep (s : State) : Out :=
  match s.arg with
  | .ctx c =>
    match (s.ctx c).busy with
    | .mxmap a b es =>
      let w : IWord := firstWord (.mxmap { s := false, a := 0, b := 0 })
      if 8 ≤ es.length then .next (s.mxmapFinish c w a b es)
      else if s.poolHeld c then .next s
      else
        let off := bits a 19 0 + 8 * es.length
        match s.markLines ⟨none, c⟩ (s.ctx c).region false (s.markable (poolLoc c.core off) 16) with
        | (.conflict y, l) => .next (s.raise c (exact cRace (word (l * 64 - poolLoc c.core 0)) y.info))
        | (.full y, _) => .next (s.askRelease y)
        | (.ok s1, _) =>
          match s1.poisoned (poolLoc c.core off) 16 with
          | some l => .next (s1.lose (s1.jobOf c.core) (lossAt c (s1.ctx c).pc a l))
          | none =>
            let es := es ++ s1.rdWords (poolLoc c.core off) 2
            if 8 ≤ es.length then .next (s1.mxmapFinish c w a b es)
            else .next (s1.setCtx c { s1.ctx c with busy := .mxmap a b es })
    | _ => .next s
  | _ => .next s

/-! ## MXB, MXA, MXSKIP, MXRUN -/

/-- MXB (R260). TRAPVAL of MISALIGN is the address that is not aligned (R120), which is BASE, an offset of the cluster store. -/
def execMxb (o : KA) (s : State) : Out :=
  s.issue ⟨o.s, s.mxIllegal (firstWord (.mxb o)), [gr o.a]⟩ fun s c =>
    let w := (s.ctx c).getG o.a.toNat
    let col := mxbPlanes w * blocksOf (mxbK w) 128
    if bits w 62 61 ≠ 0 ∨ bits w 36 21 < col
        ∨ s.reservoir (s.jobOf c.core) < mxbBase w + mxbStride w * (mxbCols w - 1) + 16 * col then .error (exact cBounds w 0)
    else if mxbBase w % 16 ≠ 0 then .error (exact cMisalign (word (mxbBase w)) 0)
    else s.command c (firstWord (.mxb o)) .mxb [w] [] (bit w 63) none

/-- MXA (R261). -/
def execMxa (o : KAB) (s : State) : Out :=
  s.issue ⟨o.s, s.mxIllegal (firstWord (.mxa o)), [gr o.a, gr o.b]⟩ fun s c =>
    let x := s.ctx c
    let w := x.getG o.a.toNat
    let b := x.getG o.b.toNat
    if bits w 31 0 ≠ 0 ∨ mxaPlanes w < mxaTaken w then .error (exact cBounds w 0)
    else if 0x1FFFFF < b.toNat ∨ s.reservoir (s.jobOf c.core) < b.toNat + 4 * mxaRows w then .error (exact cBounds b 0)
    else if b.toNat % 4 ≠ 0 then .error (exact cMisalign b 0)
    else s.command c (firstWord (.mxa o)) .mxa [w, b] [] (bit w 57) (some (bits w 63 58, w))

/-- MXSKIP (R262). -/
def execMxskip (o : KSkip) (s : State) : Out :=
  s.issue ⟨o.s, none, [gr o.a, gr o.b]⟩ fun s c =>
    let x := s.ctx c
    let a := x.getG o.a.toNat
    let b := x.getG o.b.toNat
    if bits a 63 20 ≠ 0 then .error (exact cBounds a 0)
    else if 4095 < b.toNat then .error (exact cBounds b 0)
    else if 0x100000 < a.toNat + 2 * b.toNat then .error (exact cBounds a 0)
    else if a.toNat % 2 ≠ 0 then .error (exact cMisalign a 0)
    else
      match s.firstBad (s.jobOf c.core) c.core (bits a 19 0) (2 * b.toNat) with
      | some t => .error t
      | none => .ok (s.retire c fun x => x.setS o.d.toNat (word (b.toNat * 2 ^ 48 + bits a 19 0)))

/-- The cursor after a run of `k` positions (R263). -/
def cursorAfter (cur : Word) (k : Nat) : Word := setBits cur 47 32 (min 65535 (bits cur 47 32 + blocksOf k 32))

/-- MXRUN (R263). -/
def execMxrun (o : KRun) (s : State) : Out :=
  s.issue ⟨o.s, s.mxIllegal (firstWord (.mxrun o)), [gr o.a]⟩ fun s c =>
    let x := s.ctx c
    let w := x.getG o.a.toNat
    let cur := x.getS o.d.toNat
    s.command c (firstWord (.mxrun o)) .mxrun [w, cur] [] (bit w 57) (some (runTag w, w))
      fun x => if runSkips w then x.setS o.d.toNat (cursorAfter cur (runK w)) else x

/-! ## MXSCALE (R269-R271) -/

/-- The fields of a scale descriptor. -/
structure Scale where
  acco : Nat
  pso : Nat
  rows : Nat
  cols : Nat
  apitch : Nat
  ppitch : Nat
  sav : Bool
  saf : Nat
  sao : Nat
  sbv : Bool
  sbf : Nat
  sbo : Nat
deriving DecidableEq, Repr

/-- The descriptor of four words. -/
def scaleOfWords (ws : List Word) : Scale :=
  let w (i : Nat) : Word := ws.getD i 0
  { acco := bits (w 0) 51 32, pso := bits (w 0) 19 0, rows := bits (w 1) 61 55 + 1, cols := bits (w 1) 54 48 + 1,
    apitch := 16 * bits (w 1) 31 16, ppitch := 16 * bits (w 1) 15 0, sav := bit (w 2) 22, saf := bits (w 2) 21 20,
    sao := bits (w 2) 19 0, sbv := bit (w 3) 22, sbf := bits (w 3) 21 20, sbo := bits (w 3) 19 0 }

/-- The first word of a descriptor that R270 refuses. -/
def scaleBad (ws : List Word) : Option Word :=
  let w (i : Nat) : Word := ws.getD i 0
  let d := scaleOfWords ws
  let least := 16 * ((4 * d.cols + 15) / 16)
  if bits (w 0) 63 52 ≠ 0 ∨ bits (w 0) 31 20 ≠ 0 then some (w 0)
  else if bits (w 1) 63 62 ≠ 0 ∨ bits (w 1) 47 32 ≠ 0 ∨ d.apitch < least ∨ d.ppitch < least then some (w 1)
  else if bits (w 2) 63 23 ≠ 0 ∨ d.saf = 3 then some (w 2)
  else if bits (w 3) 63 23 ≠ 0 ∨ d.sbf = 3 then some (w 3)
  else none

/-- The bytes of a scale format, and the value of a scale, with whether it is a signalling NaN (R80, R91). -/
def scaleSize (f : Nat) : Nat := if f = 0 then 4 else if f = 1 then 2 else 1
def scaleVal (f v : Nat) : FVal × Bool :=
  match f with
  | 0 => (fval .f32 v, isSNaN .f32 v)
  | 1 => (fval .bf16 v, isSNaN .bf16 v)
  | _ => (if v = 255 then .nan else .fin false 1 ((v : Int) - 127), false)

/-- An infinite value. -/
def FVal.isInf : FVal → Bool
  | .inf _ => true
  | _ => false

/-- a + p · sa · sb, formed exactly and rounded once; an infinite scale times p = 0 is invalid, beside a NaN too (R270). -/
def scaleValue (mode r : Nat) (p : Int) (a : Nat) (sa sb : FVal × Bool) : Nat × BitVec 9 :=
  if isNaN .f32 a || sa.1 == .nan || sb.1 == .nan then
    (nanBits .f32, flag (isSNaN .f32 a || sa.2 || sb.2 || (p == 0 && (sa.1.isInf || sb.1.isInf))) flNV)
  else
    deliver .f32 mode r
      (((FVal.fin (decide (p < 0)) p.natAbs 0).times sa.1).bind fun q => (q.times sb.1).bind fun q => (fval .f32 a).plus mode q)

/-- One element, checked in the order partial sum, row scale, column scale, F32 tile (R271). -/
def State.scaleElement (s : State) (c : CtxId) (d : Scale) (mode t : Nat) : SlotAns State :=
  let i := t / d.cols
  let j := t % d.cols
  let pa := word (d.pso + d.ppitch * i + 4 * j)
  let aa := word (d.acco + d.apitch * i + 4 * j)
  let na := scaleSize d.saf
  let nb := scaleSize d.sbf
  let ra := word (d.sao + if d.sav then i * na else 0)
  let ca := word (d.sbo + if d.sbv then j * nb else 0)
  match s.selfTraps c.core [(pa, 4), (ra, na), (ca, nb), (aa, 4)] with
  | some t => .trap t
  | none =>
    match s.slotMarks c [(pa, 4, false), (ra, na, false), (ca, nb, false), (aa, 4, false), (aa, 4, true)] with
    | .ok s =>
      let x := s.ctx c
      let sd := seedFor mode x.rndseed
      let (v, fl) := scaleValue mode sd.toNat (sextN (s.selfRead c.core pa 4) 32) (s.selfRead c.core aa 4)
        (scaleVal d.saf (s.selfRead c.core ra na)) (scaleVal d.sbf (s.selfRead c.core ca nb))
      let loc := poolLoc c.core (bits aa 19 0)
      .ok (((s.write loc 4 v).cleanse loc 4).setCtx c { x with rndseed := sd, fcsr := x.fcsr ||| fl })
    | y => y

/-- Up to `n` elements from a linear index on. -/
def State.scaleElements (s : State) (c : CtxId) (d : Scale) (mode t : Nat) : Nat → State × Nat × Option (SlotAns Unit)
  | 0 => (s, t, none)
  | n + 1 =>
    match s.scaleElement c d mode t with
    | .ok s' => s'.scaleElements c d mode (t + 1) n
    | .trap u => (s, t, some (.trap { u with info := nestInfo t }))
    | .wait w => (s, t, some (.wait w))
    | .lost a l => (s, t, some (.lost a l))

/-- MXSCALE stands at a linear index: it goes on when none is left. -/
def State.scaleAt (s : State) (c : CtxId) (ws : List Word) (mode t : Nat) : State :=
  let d := scaleOfWords ws
  if d.rows * d.cols ≤ t then s.setCtx c ({ s.ctx c with busy := .idle }.advance 1)
  else s.setCtx c { s.ctx c with busy := .mxscale ws mode t, resumed := false, handlerFirst := false }

/-- MXSCALE (R270, R271): the descriptor is read and checked, the rounding mode taken, and the first step is made in this slot. A trap that
the descriptor raises has the progress in TRAPINFO, as R120 states of every cause of MXSCALE. Its accesses wait while an earlier one of the thread
orders them (R146, R155, R170). -/
def execMxscale (o : KA) (s : State) : Out :=
  s.issue ⟨true, none, [gr o.a]⟩ fun s c =>
    let x := s.ctx c
    let a := x.getG o.a.toNat
    let info := nestInfo x.startAt
    match s.rangeTrap c.core a 32 8 with
    | some t => .error { t with info := info }
    | none =>
      if s.poolHeld c then .ok s
      else
      let loc := poolLoc c.core (bits a 19 0)
      match s.markLines ⟨none, c⟩ x.region false (s.markable loc 32) with
      | (.conflict _, l) => .error (exact cRace (word (l * 64 - poolLoc c.core 0)) info)
      | (.full y, _) => .ok (s.askRelease y)
      | (.ok s, _) =>
        match s.poisoned loc 32 with
        | some l => .ok (s.lose (s.jobOf c.core) (lossAt c x.pc a l))
        | none =>
          let ws := s.rdWords loc 4
          match scaleBad ws with
          | some w => .error (exact cBounds w info)
          | none =>
            let t := x.startAt
            let d := scaleOfWords ws
            .ok { s.scaleAt c ws x.rm t with slots := if d.rows * d.cols ≤ t then s.slots else c.core :: s.slots }

/-- MXSCALE_STEP (R270): up to four consecutive columns of one row. -/
def execMxscaleStep (s : State) : Out :=
  match s.arg with
  | .ctx c =>
    match (s.ctx c).busy with
    | .mxscale ws mode t =>
      let d := scaleOfWords ws
      if s.poolHeld c then .next s
      else
      match s.scaleElements c d mode t (min 4 (d.cols - t % d.cols)) with
      | (s, t, none) => .next (s.scaleAt c ws mode t)
      | (s, t, some (.trap u)) => .next ((s.setCtx c { s.ctx c with busy := .mxscale ws mode t }).takeTrap c u)
      | (s, t, some (.wait w)) => .next ((s.scaleAt c ws mode t).askRelease w)
      | (s, t, some (.lost a l)) => .next ((s.scaleAt c ws mode t).lose (s.jobOf c.core) (lossAt c (s.ctx c).pc a l))
      | (s, t, some (.ok _)) => .next (s.scaleAt c ws mode t)
    | _ => .next s
  | _ => .next s

/-! ## Capabilities (R273, R274) -/

/-- The tag value of a capability's body under a key. -/
def capTag (key : Word) (body : Nat) : Nat := leNat ((sha3 (leBytes 8 key.toNat ++ leBytes 4 body)).take 4)

/-- MXCAP (R273): privileged. -/
def execMxcap (o : KAD) (s : State) : Out :=
  s.issue ⟨o.s, s.privTrap (firstWord (.mxcap o)), [gr o.a, gr o.d]⟩ fun s c =>
    let a := (s.ctx c).getG o.a.toNat
    if bits a 63 32 ≠ 0 ∨ bits a 15 9 ≠ 0 ∨ 11 < bits a 8 5 then .error (exact cBounds a 0)
    else .ok (s.retire c fun x => x.setG o.d.toNat (word (capTag s.capkey (bits a 31 0) * 2 ^ 32 + bits a 31 0)))

/-- MXSEND (R274): CT is taken, and the run is posted to the command window of the capability's cluster. -/
def execMxsend (o : KAB) (s : State) : Out :=
  s.issue ⟨o.s, none, [gr o.a, gr o.b]⟩ fun s c =>
    let x := s.ctx c
    let cap := x.getG o.a.toNat
    let run := x.getG o.b.toNat
    let weak := bit run 57
    if runSkips run then .error (exact cBounds run 0)
    else if 11 < bits cap 8 5 then .error (exact cBounds cap 0)
    else
      match s.tagOwned c.core (some (runTag run, run)) with
      | some t => .error t
      | none =>
        if 64 ≤ (s.journal c.core).length then .ok (s.setCtx c { x with st := .stalled })
        else
          match s.takeTag c.core (runTag run) run with
          | .error t => .error t
          | .ok s =>
            let body : OpBody := .store 1 16 (BitVec.ofNat 128 (run.toNat * 2 ^ 64 + cap.toNat))
            let p := { s.newOp c (firstWord (.mxsend o)) (storeAddr (capTarget cap) 0x1FFFF0) body none with
                         mx := true, ord := if weak then .plain else .release }
            .ok (s.post p fun s => s.retire c fun x => if weak then x else { x with region := x.region + 1 })

/-- Whether the job of a capability still owns a cluster, with that generation. -/
def State.capOwner (s : State) (k : Nat) (cap : Word) : Bool :=
  let job := bits cap 21 16
  (s.core ((clusterCores k).getD 0 0)).owner == some job && s.stampOk job (bits cap 31 22)

/-- Whether the window of a cluster accepts a capability (R274). -/
def State.capOk (s : State) (k : Nat) (cap : Word) : Bool :=
  bits cap 63 32 == capTag s.capkey (bits cap 31 0) && capTarget cap == k && s.capOwner k cap
    && (s.job (bits cap 21 16)).st == .live && (s.cluster k).health != 2

/-- The entry of an MXSEND at the window of its cluster, and whether the engine has accepted it: an accepted entry stays until the queue has
room, and its run then enters the queue; any other is refused with CAP_REFUSED (R274). The end of the job that owned the cluster takes an
accepted entry with it, and the sender hears CAP_REFUSED. -/
def State.mxWindow (s : State) (o : Op) (data : Vec) (taken : Bool) : State :=
  let cap : Word := data.truncate 64
  let run : Word := (data >>> 64).truncate 64
  let k := 12 * bits o.addr 55 51 + bits o.addr 59 56
  if !(if taken then s.capOwner k cap else s.capOk k cap) then s.answer { o with loc := some (storeLoc k 0x1FFFF0) } (.refused cCapRefused 0 0)
  else if !s.mxRoom k then s.later 1 none .mxCommandWindow (.pair o.id 1)
  else
    let cmd : Cmd := { kind := .mxrun, ctx := o.ctx, job := bits cap 21 16, gen := bits cap 31 22, words := [run, 0] }
    (s.mxEnqueue k cmd).answer { o with loc := some (storeLoc k 0x1FFFF0) } (.done 0)

/-- MX_COMMAND_WINDOW (R274): an entry at the window of its cluster; the second number 1 says that the engine has accepted it. -/
def execMxCommandWindow (s : State) : Out :=
  let at' (id : Nat) (taken : Bool) : Out :=
    match s.op id with
    | none => .next s
    | some o =>
      match o.body with
      | .store _ _ data => .next (s.mxWindow o data taken)
      | _ => .next s
  match s.arg with
  | .num id => at' id false
  | .pair id 1 => at' id true
  | _ => .next s

/-! ## MXSTAT (R272) -/

/-- The status word. -/
def Cluster.mxStatus (cl : Cluster) : Word :=
  let f (b : Bool) (n : Nat) : Nat := if b then 2 ^ n else 0
  word (cl.mx.cause * 2 ^ 56 + cl.mxq.length * 2 ^ 48 + f cl.mxBusy 7 + f cl.mx.sat 6 + f cl.mx.mv 5 + f cl.mx.bv 4 + f cl.mx.lv 3 + cl.health)

/-- What a selector reads, with the state after. -/
def State.mxRead (s : State) (k sel : Nat) : Word × State :=
  let cl := s.cluster k
  match sel with
  | 0 => (cl.mxStatus, s)
  | 1 => (cl.mx.lctl, s)
  | 2 => (cl.mx.breg, s)
  | 3 => (cl.mx.faddr, s)
  | 4 => (cl.mx.runs, s)
  | _ => (cl.mxStatus, s.setMx k fun m => { m with sat := false, cause := 0 })

/-- MXSTAT: the selector is checked, and the operation waits at the core. -/
def execMxstat (o : KAD) (s : State) : Out :=
  s.issue ⟨o.s, none, [gr o.a, gr o.d]⟩ fun s c =>
    let a := (s.ctx c).getG o.a.toNat
    if 5 < a.toNat then .error (exact cBounds a 0)
    else
      let p := { s.newOp c (firstWord (.mxstat o)) a .mxstat (some (gr o.d)) with left := true }
      .ok (((s.addOp p).later 1 none .homeAccess (.num p.id)).retire c fun x => x.setPend (gr o.d))

/-- MXSTAT reads the engine once none of its context's engine commands is left in the command queue (R272). -/
def State.performMxstat (s : State) (o : Op) : State :=
  if (s.commands o.ctx.core).any fun p => p.ctx == o.ctx then s.later 1 none .homeAccess (.num o.id)
  else
    let (v, s) := s.mxRead (clusterOf o.ctx.core) o.addr.toNat
    s.answer { o with loc := some (storeLoc (clusterOf o.ctx.core) 0) } (.done (wide v))

end Sys2Proof.Machine
end

