-- ==== Sys2Proof/Machine/HomeAccess.lean ====
section
/-!
DEFINITION. HOME_ACCESS: the arrival of a thread's access at its home (R143), with its translation (R326-R329), the stamp (R320), the
protected areas (R12, R240, R280, R362) and the windows of the clusters (R240, R274, R311, R349).
-/
namespace Sys2Proof.Machine

open Sys2Proof

/-- Whether an operation is a command for a window of the page of R240: a 16-byte STV with ORD 2 of job 0. -/
def Op.isWindowStore (o : Op) : Bool :=
  o.job == 0 && o.ord == .release &&
    match o.body with
    | .store 1 16 _ => true
    | _ => false

/-- Whether an operation is a command for the island window, which the island takes (R349): it is up when the die of cluster (0, 0) is not (R337). -/
def Op.toIsland (o : Op) (loc : Nat) : Bool := o.isWindowStore && loc == storeLoc 0 0x1FFFD0

/-- An access to the window page of a cluster store (R240): the schedule window (R311), the island window of cluster (0, 0) (R349), and
PROTECT for everything else. -/
def State.windowPage (s : State) (o : Op) (k off : Nat) : State :=
  if o.isWindowStore && off == 0x1FFFE0 then s.schedWindow o k
  else if o.isWindowStore && off == 0x1FFFD0 && k == 0 then s.islandWindow o
  else s.answer o (.refused cProtect 0 0)

/-- An access whose location is known, at its home: the die of the home (R339), the stamp, the protected areas, and then the operation. An access
of a stamp that is not accepted is discarded and counted. -/
def State.atHome (s : State) (o : Op) (loc : Nat) : State :=
  if s.homeDown loc && !o.toIsland loc then s.answer o (.refused cEndpoint 0 0)
  else if !s.stampOk o.job o.gen then (s.dropOp o.id).refuseStamp
  else if 2 ^ 42 ≤ loc ∧ 0x1FFF00 ≤ (loc - 2 ^ 42) % 2 ^ 21 then
    s.windowPage o ((loc - 2 ^ 42) / 2 ^ 21) ((loc - 2 ^ 42) % 2 ^ 21)
  else
    match o.body with
    | .dxsplit ws count => ((s.performSplit o ws count).2.unmark o).answer o (s.performSplit o ws count).1
    | .tref drop => (s.performTref o drop).2.answer o (s.performTref o drop).1
    | .wlcount => (s.performCount o).2.answer o (s.performCount o).1
    | _ =>
      if s.locProtected o.job loc o.body.size || s.granuleRetired loc o.body.size then s.answer o (.refused cProtect 0 0)
      else ((s.performOp o loc).2.unmark o).answer o (s.performOp o loc).1

/-- An access to a DEVICE address on its way (R328, R329): through the TLB of the issuer's cluster, or held by a miss. -/
def State.throughTlb (s : State) (o : Op) : State :=
  let k := clusterOf o.ctx.core
  let va := bits o.addr 47 0
  if !s.stampOk o.job o.gen then (s.dropOp o.id).refuseStamp
  else
    match s.tlbHit k o.job va with
    | none => (s.addMiss k o.job va).again 1 (some (s.opPath o)) .homeAccess (.num o.id)
    | some e =>
      if !o.body.need.ok e.ex e.wr e.rd then s.answer o (.refused cProtect 0 0)
      else (s.setOp { o with loc := some (e.pick va) }).later 0 none .homeAccess (.num o.id)

/-- PAGE_WALK (R326-R330): the walk reads the tables, each entry once; a poisoned entry loses the job (R358). The walker is then free, and the
requesters are answered. -/
def execPageWalk (s : State) : Out :=
  match s.arg with
  | .triple k job region =>
    let cl := s.cluster k
    match cl.misses.find? fun m => m.job == job && m.region == region && m.walking with
    | none => .next s
    | some m =>
      let s := (s.setCluster k { cl with misses := cl.misses.filter (· != m) }).later 0 none .walkerGrant (.num (walkDie k))
      if m.gen ≠ (s.job job).gen then .next s
      else
        match (s.walkReads m.root (region * 2 ^ 16)).findSome? fun l => s.poisoned l 8 with
        | some l => .next (s.lose job { cause := cUncorrectable, src := srcOf l, paddr := paddrOf l, vaddr := word (region * 2 ^ 16),
                                        core := none, k := 0, pc := 0 })
        | none => .next (if s.walkDown m.root (region * 2 ^ 16) then s.walkFails k m else s.walkEnds k m)
  | _ => .next s

/-- HOME_ACCESS. -/
def execHomeAccess (s : State) : Out :=
  match s.arg with
  | .num id =>
    match s.op id with
    | none => .next s
    | some o =>
      if o.performed || o.reason != 0 then .next s
      else
        match o.body with
        | .mxstat => .next (s.performMxstat o)
        | _ =>
          if o.mx then .next (s.later 0 none .mxCommandWindow (.num id))
          else if !o.left then .next (if o.thread = 1 then s.unitLeave o else s.tryLeave o .homeAccess)
          else
            match o.loc with
            | none => .next (s.throughTlb o)
            | some l => if 2 ^ 60 ≤ l then .next (s.later 0 none .peerRequest (.peer (.outgoing id))) else .next (s.atHome o l)
  | _ => .next s

end Sys2Proof.Machine
end

