-- ==== Sys2Proof/Machine/Ingest.lean ====
section
/-!
DEFINITION. Ingest (R351-R355): packets of ST 2110 streams, the frames that they fill in a job's memory, the bitmap and the message of a frame
that closes, and empty frames.
-/
namespace Sys2Proof.Machine

open Sys2Proof

/-! ## The stream descriptor (R351) -/

def Stream.w (x : Stream) (i : Nat) : Word := x.words.getD i 0
def Stream.fstride (x : Stream) : Nat := bits (x.w 1) 63 32
def Stream.lstride (x : Stream) : Nat := bits (x.w 1) 31 0
def Stream.period (x : Stream) : Nat := bits (x.w 3) 63 32
def Stream.guardNs (x : Stream) : Nat := bits (x.w 3) 31 0
def Stream.lines (x : Stream) : Nat := bits (x.w 4) 63 52 + 1
def Stream.lbytes (x : Stream) : Nat := bits (x.w 4) 51 32
def Stream.dual (x : Stream) : Bool := bit (x.w 4) 28

/-- The bytes of a pgroup by SAMP: 5 for 4:2:2 and 15 for 4:4:4; a reserved SAMP is taken as the first (log entry 81). -/
def Stream.pgroup (x : Stream) : Nat := if bits (x.w 4) 31 30 = 1 then 15 else 5
def Stream.chan (x : Stream) : Nat := bits (x.w 5) 37 32
def Stream.dest (x : Stream) : Nat := (coreOfField (bits (x.w 5) 30 16)).getD 0
def Stream.job (x : Stream) : Nat := bits (x.w 5) 5 0
def Stream.gen (x : Stream) : Nat := bits (x.w 5) 15 6

/-- The slot of the frame that is open or next, and the DEVICE address of its bitmap (R352). -/
def Stream.slot (x : Stream) : Nat := x.index % 4
def Stream.bitmap (x : Stream) : Word := x.w 2 + word (512 * x.slot)

/-- The path of a stream that a packet comes on, by its destination address and UDP port (R351): 0 is A, and 1 is B, which counts where DUAL is 1. -/
def Stream.pathOf (x : Stream) (p : Packet) : Option Nat :=
  let hits (w : Word) : Bool := bits w 15 0 == p.port && bits w 23 16 == p.dest
  if hits (x.w 6) then some 0 else if x.dual && hits (x.w 7) then some 1 else none

/-- The stream of a packet, and its path. -/
def State.streamOf (s : State) (p : Packet) : Option (Stream × Nat) :=
  s.island.streams.findSome? fun x => (x.pathOf p).map fun q => (x, q)

/-- Whether the memory of a stream's job does not change, because the job is quiesced: the unit keeps what it has for it (R317, log entry 117). -/
def State.streamHeld (s : State) (x : Stream) : Bool := (s.job x.job).sched == .quiesced

/-- Replaces a stream, known by its number. -/
def State.setStream (s : State) (x : Stream) : State :=
  { s with island := { s.island with streams := s.island.streams.map fun y => if y.num = x.num then x else y } }

/-- A stream is closed. -/
def State.endStream (s : State) (n : Nat) : State :=
  { s with island := { s.island with streams := s.island.streams.filter fun y => y.num != n, closed := nset s.island.closed n true } }

/-! ## Writing into a job's memory -/

/-- Writes bytes at a virtual address of a job, without marks (R232, R351): a range at a time within one 4 KiB granule, at most `n` of them;
none on a translation fault, or where the home refuses the range (R339, R362). -/
def State.ingestWrite (s : State) (job : Nat) : Nat → Nat → List Byte → Option State
  | 0, _, _ => some s
  | n + 1, va, bs =>
    if bs.isEmpty then some s
    else
      let k := min bs.length (4096 - va % 4096)
      match s.walk job va with
      | none => none
      | some p =>
        let l := p.pa + (va - p.base)
        if !p.wr || s.homeDown l || s.granuleRetired l k then none
        else
          match s.mergesPoison l k with
          | some q => some (s.lose job (engineLoss none (word va) q))
          | none => ((s.writeBytes l (bs.take k)).cleanse l k).ingestWrite job n (va + k) (bs.drop k)

/-- Writes bytes for a stream, through context Y of DEST's gather engine (R251, R351): refused where its stamp is not live or its address is no
DEVICE address. -/
def State.streamWrite (s : State) (x : Stream) (a : Word) (bs : List Byte) : Option State :=
  if !s.stampOk x.job x.gen || bits a 63 48 != 0x6000 then none
  else (s.throughY 2 a bs.length [clusterOf x.dest]).ingestWrite x.job (bs.length / 4096 + 2) (bits a 47 0) bs

/-! ## Closing a frame (R354) -/

/-- How many bytes from the start of a line are covered by ranges, in at most `n` rounds. -/
def covered (rs : List (Nat × Nat)) : Nat → Nat → Nat
  | 0, x => x
  | n + 1, x => covered rs n (rs.foldl (fun m r => if r.1 ≤ x then max m (r.1 + r.2) else m) x)

/-- Whether any part of a line is missing. -/
def Frame.misses (f : Frame) (lbytes l : Nat) : Bool :=
  let rs := (f.got.filter fun g => g.1 == l).map fun g => (g.2.1, g.2.2)
  decide (covered rs rs.length 0 < lbytes)

/-- The missing-line bitmap: 512 bytes. -/
def bitmapBytes (lines : Nat) (miss : Nat → Bool) : List Byte :=
  (List.range 512).map fun i => BitVec.ofNat 8 (bitsNat ((List.range 8).map fun j => decide (8 * i + j < lines) && miss (8 * i + j)))

/-- The message of a frame, a release by the unit (R354). -/
def State.frameMessage (s : State) (x : Stream) (pathB pathA overrun incomplete : Bool) (missing rtp first : Nat) : State :=
  let g1 := word (bitAt pathB 43 + bitAt pathA 42 + bitAt overrun 41 + bitAt incomplete 40 + x.num * 2 ^ 32 + x.index % 2 ^ 32)
  let (w, s) := s.openWord
  s.later 1 (some ⟨planeMessage, 2 ^ 21, x.dest⟩) .messageArrive
    (.msg { job := x.job, gen := x.gen, src := w.toNat % Config.cores, target := x.dest, op := none, via := 2 ^ 21
            body := .start x.chan 4 [g1, word (missing * 2 ^ 32 + rtp % 2 ^ 32), word first, x.bitmap] })

/-- A translation fault closes the stream; its last message says that every line is missing (R355). -/
def State.faultStream (s : State) (x : Stream) (f : Frame) : State :=
  (s.endStream x.num).frameMessage x f.pathB f.pathA false true x.lines f.rtpTime f.first

/-- The frame that is open closes at a time, at its deadline or not: its bitmap is written and its message sent, and the next frame is due a period
after its first packet (R354, R355). -/
def State.closeFrame (s : State) (x : Stream) (now : Nat) (late : Bool) : State :=
  match x.frame with
  | none => s
  | some f =>
    let miss := f.misses x.lbytes
    let missing := ((List.range x.lines).filter miss).length
    match s.streamWrite x x.bitmap (bitmapBytes x.lines miss) with
    | none => s.faultStream x f
    | some s =>
      let overrun := match x.closes.find? fun p => p.1 == x.slot with
        | some p => decide (f.first < p.2 + 3 * x.period)
        | none => false
      let s := s.frameMessage x f.pathB f.pathA overrun (late || missing != 0) missing f.rtpTime f.first
      let due := f.first + x.period
      let y := { x with index := x.index + 1, frame := none, seqs := [], last := some f.rtpTime, due := some due, empties := 0,
                        closes := (x.closes.filter fun p => p.1 != x.slot) ++ [(x.slot, now)] }
      if x.closing then s.endStream x.num
      else (s.setStream y).later (nsCycles (due + x.period + x.guardNs - now)) none .emptyFrame (.pair x.num y.index)

/-! ## Packets (R352, R353) -/

/-- Whether an RTP timestamp is newer than another, modulo 2^32. -/
def newer (a b : Nat) : Bool := (a + 2 ^ 32 - b) % 2 ^ 32 != 0 && decide ((a + 2 ^ 32 - b) % 2 ^ 32 < 2 ^ 31)

/-- The whole pgroups of a sample row that lie in its line: their byte offset in the line, and their bytes (R351, R352). -/
def Stream.row (x : Stream) (r : SampleRow) : Nat × List Byte :=
  let off := x.pgroup * r.offset
  (off, if r.line < x.lines then r.data.take (min r.data.length (x.lbytes - off) / x.pgroup * x.pgroup) else [])

/-- Writes the sample rows of a packet into the slot of the open frame: what they cover, by line, offset and length; none on a translation fault
(R352, R355). -/
def State.writeRows (s : State) (x : Stream) : List SampleRow → Option (List (Nat × Nat × Nat) × State)
  | [] => some ([], s)
  | r :: rs =>
    let (off, bs) := x.row r
    match s.streamWrite x (x.w 0 + word (x.fstride * x.slot + x.lstride * r.line + off)) bs with
    | none => none
    | some t => (t.writeRows x rs).map fun q => (if bs.isEmpty then q.1 else (r.line, off, bs.length) :: q.1, q.2)

/-- A packet of a path joins the open frame of its stream: the first copy is used, a later one is discarded; its pgroups are written into the
slot. -/
def State.joinFrame (s : State) (x : Stream) (f : Frame) (p : Packet) (path now : Nat) : State :=
  let f := { f with pathA := f.pathA || path == 0, pathB := f.pathB || path == 1 }
  if x.seqs.contains p.rtpSeq then s.setStream { x with frame := some f }
  else
    match s.writeRows x p.rows with
    | none => s.faultStream x f
    | some (got, s) =>
      let f := { f with got := f.got ++ got }
      let y := { x with frame := some f, seqs := x.seqs ++ [p.rtpSeq] }
      let s := s.setStream y
      if p.marker then s.closeFrame y now false else s

/-- The first packet of a frame opens it until its deadline (R354). -/
def State.openFrame (s : State) (x : Stream) (p : Packet) (path now : Nat) : State :=
  let f : Frame := { first := now, rtpTime := p.rtpTime, got := [], pathA := false, pathB := false }
  let y := { x with frame := some f }
  ((s.setStream y).later (nsCycles (x.period + x.guardNs)) none .frameDeadline (.pair x.num x.index)).joinFrame y f p path now

/-- The path of what the unit writes for a stream (R331, R351). -/
def Stream.path (x : Stream) : Option Path := bulkPath (2 ^ 24 + x.num)

/-- INGEST_PACKET (R351-R354): a packet of an open stream is stamped on arrival, and goes on by the bulk plane; a packet of an older frame is
discarded; a newer timestamp closes the open frame. -/
def execIngestPacket (s : State) : Out :=
  match s.arg with
  | .packet p =>
    match s.streamOf p with
    | none => .next s
    | some (x, path) =>
      match p.stamp with
      | none => .next (if s.island.st ≠ .full then s else s.later 0 x.path .ingestPacket (.packet { p with stamp := some s.ptpNow }))
      | some now =>
      if s.streamHeld x then .next (s.again 64 x.path .ingestPacket (.packet p))
      else
        match x.frame with
        | some f =>
          if p.rtpTime = f.rtpTime then .next (s.joinFrame x f p path now)
          else if !newer p.rtpTime f.rtpTime then .next s
          else
            let s := s.closeFrame x now false
            .next (match s.island.streams.find? fun y => y.num == x.num with
              | some y => s.openFrame y p path now
              | none => s)
        | none =>
          let fresh := match x.last with
            | some l => newer p.rtpTime l
            | none => true
          .next (if fresh then s.openFrame x p path now else s)
  | _ => .next s

/-- FRAME_DEADLINE (R354): the frame of an index closes at its deadline, if it is still open. -/
def execFrameDeadline (s : State) : Out :=
  match s.arg with
  | .pair n i =>
    match s.island.streams.find? fun x => x.num == n with
    | none => .next s
    | some x =>
      if s.streamHeld x then .next (s.later 64 none .frameDeadline (.pair n i))
      else
      match x.frame with
      | none => .next s
      | some f => .next (if x.index = i then s.closeFrame x (f.first + x.period + x.guardNs) true else s)
  | _ => .next s

/-- EMPTY_FRAME (R355): no packet has come by the time: an empty frame closes, with every line missing, and the time base advances; after eight in
a row the stream is silent. Its RTP timestamp is not stated. -/
def execEmptyFrame (s : State) : Out :=
  match s.arg with
  | .pair n i =>
    match s.island.streams.find? fun x => x.num == n with
    | none => .next s
    | some x =>
      if s.streamHeld x then .next (s.later 64 none .emptyFrame (.pair n i))
      else
      match x.frame, x.due with
      | none, some due =>
        if x.index ≠ i ∨ 8 ≤ x.empties then .next s
        else
          let (w, s) := s.openWord
          let now := due + x.period + x.guardNs
          let none' : Frame := { first := 0, rtpTime := bits w 31 0, got := [], pathA := false, pathB := false }
          match s.streamWrite x x.bitmap (bitmapBytes x.lines fun _ => true) with
          | none => .next (s.faultStream x none')
          | some s =>
            let s := s.frameMessage x false false false true x.lines none'.rtpTime 0
            let y := { x with index := x.index + 1, due := some (due + x.period), empties := x.empties + 1,
                              closes := (x.closes.filter fun p => p.1 != x.slot) ++ [(x.slot, now)] }
            .next ((s.setStream y).later (nsCycles x.period) none .emptyFrame (.pair n y.index))
      | _, _ => .next s
  | _ => .next s

end Sys2Proof.Machine
end

