-- ==== Sys2Proof/Machine/Loader.lean ====
section
/-!
DEFINITION. The LAUNCH command (R348, R370-R378): the checks of the launch record, the image, the kernel control block and the rectangle, and
the building of the job, which the model performs in the step that receives the command (log entry 21).
-/
namespace Sys2Proof.Machine

open Sys2Proof

/-! ## The launch record (R378) -/

/-- The fields of a launch record. -/
structure LaunchRecord where
  image : Nat
  len : Nat
  corner : Nat
  hashes : Nat
  npage : Nat
deriving DecidableEq, Repr

/-- Whether a range lies in one host window (R346). -/
def State.inWindow (s : State) (loc n : Nat) : Bool :=
  match s.island.attach with
  | none => false
  | some a => a.windows.any fun w => decide (w.1 ≤ loc) && decide (loc + n ≤ w.1 + w.2) && decide (w.1 + w.2 ≤ Config.hbmBytes)

/-- The launch record of a body: 48 bytes, with the image and the hashes in host windows. -/
def State.launchRecord (s : State) (b : List Byte) : Option LaunchRecord :=
  let f (at' n : Nat) : Nat := leNat ((b.drop at').take n)
  let r : LaunchRecord := { image := f 0 8, len := f 8 8, corner := f 16 2, hashes := f 24 8, npage := f 32 4 }
  if b.length = 48 ∧ f 18 6 = 0 ∧ f 36 12 = 0 ∧ s.inWindow r.image r.len ∧ s.inWindow r.hashes (32 * r.npage) then some r else none

/-! ## The image (R370-R372) -/

/-- A section of an image: its type and flags, its address, where its bytes stand, its size, and sh_info. -/
structure Sect where
  type : Nat
  flags : Nat
  addr : Nat
  loc : Nat
  size : Nat
  info : Nat
deriving DecidableEq, Repr

/-- Whether a section is loaded into the job's virtual space (ALLOC). -/
def Sect.alloc (t : Sect) : Bool := (t.type == 1 || t.type == 8) && t.flags / 2 % 2 == 1

/-- Whether it is code (EXECINSTR). -/
def Sect.code (t : Sect) : Bool := t.alloc && t.flags / 4 % 2 == 1

/-- The permissions of its page entries (R371): EX and RD, RD and WR, or RD. -/
def Sect.perm (t : Sect) : Nat :=
  if t.flags / 4 % 2 = 1 then 2 ^ 6 + 2 ^ 4 else if t.flags % 2 = 1 then 2 ^ 5 + 2 ^ 4 else 2 ^ 4

/-- The pages of a loaded section. -/
def Sect.pages (t : Sect) : Nat := t.size / 65536

/-- Whether a loaded section has the sizes of R371. -/
def Sect.ok (t : Sect) : Bool :=
  !t.alloc || (t.addr % 65536 == 0 && t.size % 65536 == 0 && decide (t.addr + t.size ≤ 2 ^ 48))

/-- Whether the loader reads the bytes of a section in the image: data and code, notes, pool and store images; it ignores other types (R371). -/
def Sect.read (t : Sect) : Bool := (t.alloc && t.type != 8) || t.type == 7 || t.type == 0x70000010 || t.type == 0x70000011

/-- The sections of an image: the ELF64 header is checked as R370 states, and every section that the loader reads lies in the image. -/
def State.sections (s : State) (img len : Nat) : Option (List Sect) :=
  let f (at' n : Nat) : Nat := s.read (img + at') n
  let off := f 40 8
  let n := f 60 2
  if len < 64 ∨ f 0 8 ≠ 0x00010102464C457F ∨ f 16 4 ≠ 0x534B0002 ∨ f 20 4 ≠ 1 ∨ f 24 8 ≠ 0 ∨ 8 ≤ f 48 4 ∨ f 58 2 ≠ 64 ∨ len < off + 64 * n then none
  else
    let secs := (List.range n).map fun i =>
      let h := off + 64 * i
      ({ type := f (h + 4) 4, flags := f (h + 8) 8, addr := f (h + 16) 8, loc := img + f (h + 24) 8, size := f (h + 32) 8,
         info := f (h + 44) 4 } : Sect)
    if secs.all fun t => t.ok && (!t.read || decide (t.loc + t.size ≤ img + len)) then some secs else none

/-- The descriptor of the note with name "Skelmin" and type 1 among `fuel` notes of a range: its place and its length (R377). -/
def State.findNote (s : State) (loc fin : Nat) : Nat → Option (Nat × Nat)
  | 0 => none
  | fuel + 1 =>
    if fin < loc + 12 then none
    else
      let nl := s.read loc 4
      let dl := s.read (loc + 4) 4
      let d := loc + 12 + (nl + 3) / 4 * 4
      if nl = 8 ∧ s.read (loc + 8) 4 = 1 ∧ s.read (loc + 12) 8 = 0x006E696D6C656B53 ∧ d + dl ≤ fin then some (d, dl)
      else s.findNote (d + (dl + 3) / 4 * 4) fin fuel

/-! ## The kernel control block (R377) -/

/-- An entry of the channel array, of the start array, and of the co-resident array, with its core field. -/
structure ChanEntry where
  core : Nat
  chan : Nat
  w0 : Word
  w1 : Word
deriving DecidableEq, Repr

structure StartEntry where
  core : Nat
  chan : Nat
  nw : Nat
  payload : List Word
deriving DecidableEq, Repr

structure SetEntry where
  core : Nat
  chan : Nat
  count : Nat
deriving DecidableEq, Repr

/-- The kernel control block. -/
structure Kcb where
  part : BitVec 32
  rw : Nat
  rh : Nat
  mx : Bool
  feretry : Nat
  corner : Nat
  trapvec : Word
  wdlog : Nat
  rsvb : Nat
  poolBase : Word
  poolN : Nat
  abase : Nat
  atotal : Nat
  tnote : Nat
  snote : Nat
  rules : Word
  qarea : Nat
  qscap : Nat
  qspill : Word
  chans : List ChanEntry
  starts : List StartEntry
  sets : List SetEntry
deriving DecidableEq, Repr

/-- Whether a word is an address of the DEVICE space (R22). -/
def isDevice (w : Word) : Bool := bits w 63 61 == 3 && bits w 60 48 == 0

/-- Whether a partition word is valid (R10, R11). -/
def partOk (w : BitVec 32) : Bool :=
  decide (w.toNat < 2 ^ 30) && nbits w.toNat 29 28 != 3 && decide (ctxCount w * (256 * 2 ^ nbits w.toNat 29 28) ≤ 4096)
    && decide (5 ≤ partSys w) && decide (1 + partSys w + partAcc w + partSpad w ≤ 256)

/-- Whether the fields of a control block obey R377, with R12 for the arena. -/
def Kcb.ok (k : Kcb) : Bool :=
  partOk k.part && decide (1 ≤ k.rw) && decide (k.rw ≤ 12) && decide (1 ≤ k.rh) && decide (k.rh ≤ 32)
    && (k.wdlog == 0 || (decide (16 ≤ k.wdlog) && decide (k.wdlog ≤ 40)))
    && (k.rsvb == 0xFFFF || decide (k.rsvb ≤ 384))
    && isDevice k.poolBase && k.poolBase.toNat % 64 == 0 && decide (1 ≤ k.poolN)
    && k.abase % 32 == 0 && decide (k.abase + 32 * k.atotal ≤ Config.poolBytes)
    && (k.atotal == 0 || decide (dataStart k.part ≤ k.abase))
    && k.tnote / 64 % 2 == 0 && k.snote / 64 % 2 == 0
    && ((k.rules == 0 && k.atotal == 0) || isDevice k.rules) && k.rules.toNat % 4096 == 0

/-- Whether a channel entry obeys R175 and R176. -/
def ChanEntry.ok (e : ChanEntry) : Bool :=
  decide (e.chan < 64) && bits e.w0 63 48 == 0 && bits e.w0 1 0 == 0 && bits e.w1 63 13 == 0 && liveSetOk e.w1

/-- The control block at a place, with its reserved bytes checked. -/
def State.kcb (s : State) (loc len : Nat) : Option Kcb :=
  let f (at' n : Nat) : Nat := s.read (loc + at') n
  let nc := f 0x58 2
  let ns := f 0x5A 2
  let nr := f 0x5C 2
  let a1 := 96
  let a2 := a1 + 24 * nc
  let a3 := a2 + 40 * ns
  let zero := [(0x19, 1), (0x1C, 4), (0x2C, 4), (0x3A, 6), (0x5E, 2)].all (fun (p : Nat × Nat) => f p.1 p.2 == 0)
    && (List.range nc).all (fun i => f (a1 + 24 * i + 3) 5 == 0) && (List.range ns).all (fun i => f (a2 + 40 * i + 4) 4 == 0)
    && (List.range nr).all fun i => f (a3 + 8 * i + 4) 4 == 0
  let k : Kcb := {
    part := BitVec.ofNat 32 (f 4 4), rw := f 8 1, rh := f 9 1, mx := f 0x0A 1 % 2 == 1,
    feretry := if f 0x0A 1 / 2 % 2 = 1 then f 0x0C 2 else 64, corner := f 0x0E 2, trapvec := word (f 0x10 8), wdlog := f 0x18 1,
    rsvb := f 0x1A 2, poolBase := word (f 0x20 8), poolN := f 0x28 4, abase := f 0x30 4, atotal := f 0x34 4, tnote := f 0x38 1,
    snote := f 0x39 1, rules := word (f 0x40 8), qarea := f 0x48 4, qscap := f 0x4C 4, qspill := word (f 0x50 8),
    chans := (List.range nc).map fun i =>
      { core := f (a1 + 24 * i) 2, chan := f (a1 + 24 * i + 2) 1, w0 := word (f (a1 + 24 * i + 8) 8), w1 := word (f (a1 + 24 * i + 16) 8) },
    starts := (List.range ns).map fun i =>
      let e := a2 + 40 * i
      { core := f e 2, chan := f (e + 2) 1, nw := f (e + 3) 1, payload := (List.range (f (e + 3) 1)).map fun q => word (f (e + 8 + 8 * q) 8) },
    sets := (List.range nr).map fun i => { core := f (a3 + 8 * i) 2, chan := f (a3 + 8 * i + 2) 1, count := f (a3 + 8 * i + 3) 1 } }
  if len < 96 ∨ len ≠ a3 + 8 * nr ∨ f 0 4 ≠ 1 ∨ 4 ≤ f 0x0A 2 ∨ !zero ∨ !k.ok then none
  else if k.chans.all ChanEntry.ok && (k.starts.all fun e => decide (e.chan < 64) && decide (e.nw ≤ 4))
      && (k.sets.all fun e => decide (e.chan < 64)) then some k
  else none

/-! ## The rectangle (R375, R376) -/

/-- Where a job is linked and placed: corner cores and extents in clusters. -/
structure Placing where
  lx : Nat
  ly : Nat
  px : Nat
  py : Nat
  w : Nat
  h : Nat
deriving DecidableEq, Repr

/-- The corner that an absolute coordinate field names, when a rectangle of `w` by `h` clusters from it lies in the mesh. -/
def cornerOf (f w h : Nat) : Option (Nat × Nat) :=
  if f / 2 ^ 14 = 1 ∧ nbits f 13 7 % 4 = 0 ∧ nbits f 6 0 % 2 = 0 ∧ nbits f 13 7 + 4 * w ≤ 48 ∧ nbits f 6 0 + 2 * h ≤ 64 then
    some (nbits f 13 7, nbits f 6 0)
  else none

/-- The cores and clusters of the placed rectangle. -/
def Placing.cores (p : Placing) : List Nat :=
  (List.range (2 * p.h)).flatMap fun r => (List.range (4 * p.w)).map fun q => coreAt (p.px + q) (p.py + r)
def Placing.clusters (p : Placing) : List Nat :=
  (List.range p.h).flatMap fun r => (List.range p.w).map fun q => 12 * (p.py / 2 + r) + p.px / 4 + q

/-- The placed cores that a core field in the form of R372 names: every core, or one core of the linked rectangle. -/
def Placing.coresOf (p : Placing) (all f : Nat) : Option (List Nat) :=
  let x := nbits f 13 7
  let y := nbits f 6 0
  if f = all then some p.cores
  else if f / 2 ^ 14 = 1 ∧ p.lx ≤ x ∧ x < p.lx + 4 * p.w ∧ p.ly ≤ y ∧ y < p.ly + 2 * p.h then
    some [coreAt (x - p.lx + p.px) (y - p.ly + p.py)]
  else none

/-- The placed clusters that sh_info of a store image names (R372). -/
def Placing.clustersOf (p : Placing) (f : Nat) : Option (List Nat) :=
  let cx := nbits f 12 8
  let cy := nbits f 4 0
  if f = 0xFFFFFFFF then some p.clusters
  else if f = cx * 256 + cy ∧ p.lx / 4 ≤ cx ∧ cx < p.lx / 4 + p.w ∧ p.ly / 2 ≤ cy ∧ cy < p.ly / 2 + p.h then
    some [12 * (cy - p.ly / 2 + p.py / 2) + (cx - p.lx / 4 + p.px / 4)]
  else none

/-- Whether a core has been retired (R361, R366). -/
def State.coreRetired (s : State) (core : Nat) : Bool :=
  s.life.retired.any fun w => bits w 63 60 == 1 && bits w 15 0 == unitOf 0 core

/-- Whether a job on some dies would route across a retired link (R360): one between dies on the way to or from any die, since the job's memory
lies on the stacks of every die (R321); any other one of its own dies. -/
def routesOver (dies : List Nat) (l : Nat) : Bool :=
  if 16 ≤ l ∧ l < 20 then dies.any fun d => (List.range 4).any fun e => (dieRoute d e ++ dieRoute e d).contains l
  else (linkDies l).any dies.contains

/-- Whether a rectangle is eligible (R376). -/
def State.eligible (s : State) (p : Placing) (mx : Bool) : Bool :=
  let cs := p.cores
  let dies := (cs.map dieOf).eraseDups
  cs.all (fun c => !s.coreRetired c && (s.core c).owner.isNone && s.die (dieOf c) == .run)
    && p.clusters.all (fun k => !([0, 11, 372, 383].contains k) && ((s.cluster k).health != 2 || !mx))
    && !(s.deadLinks.any (routesOver dies))

/-! ## Memory for a job -/

/-- The ranges of HBM that are in use: the command ring and the host windows, the memory of jobs, the save areas, and retired granules. -/
def State.usedRanges (s : State) : List (Nat × Nat) :=
  let rings := match s.island.attach with
    | none => []
    | some a => (a.ring, 65536 * a.entries) :: a.windows
  let jobs := s.jobs.filterMap fun q =>
    if q.2.st == .free || (q.2.st == .killed && !q.2.pend && q.2.lostRec.isNone) then none else some (q.2.pbase, q.2.psize)
  let saves := s.jobs.filterMap fun q =>
    if q.2.sched == .switchedOut || q.2.sched == .switching then some (q.2.save, saveBytes q.2.icap (q.2.cw * q.2.ch)) else none
  (rings ++ jobs ++ saves ++ s.badGranules.map fun g => (4096 * g, 4096)).filter fun r => r.2 != 0

/-- The first free range of `n` bytes from a place on, on a 64 KiB boundary; each turn passes one range that is in use. -/
def freePlace (used : List (Nat × Nat)) (n : Nat) : Nat → Nat → Option Nat
  | 0, _ => none
  | fuel + 1, c =>
    if Config.hbmBytes < c + n then none
    else
      match used.find? fun r => overlaps r (c, n) with
      | none => some c
      | some r => freePlace used n fuel ((r.1 + r.2 + 65535) / 65536 * 65536)

/-- A job number for a launch (R134, R378): free, or killed with PEND 0. -/
def State.freeJob (s : State) (from' : Nat) : Option Nat :=
  ((List.range 63).map fun i => (from' + i) % 63 + 1).find? fun n =>
    let j := s.job n
    j.lostRec.isNone && (j.st == .free || (j.st == .killed && !j.pend))

/-- Removes a range from the ranges of open contents. -/
def carveRange (loc n : Nat) (l : List Vague) : List Vague :=
  l.flatMap fun v =>
    if v.base < loc + n ∧ loc < v.base + v.len then
      (if v.base < loc then [{ v with len := loc - v.base }] else [])
        ++ (if loc + n < v.base + v.len then [{ v with base := loc + n, len := v.base + v.len - (loc + n) }] else [])
    else [v]

/-- Scrubs a range (R25): every word zero and FULL; fresh check bits. -/
def State.scrub (s : State) (loc n : Nat) : State :=
  let out (x : Nat) : Bool := decide (x < loc) || decide (loc + n ≤ x)
  { s with mem := s.mem.filter fun c => out c.1, empty := s.empty.filter fun w => out (8 * w), poison := s.poison.filter fun w => out (8 * w),
           vague := carveRange loc n s.vague }

/-! ## Page tables (R324, R325) -/

/-- A page that a launch maps: its number (virtual address divided by 64 KiB), its physical address, and its permissions. -/
structure Mapped where
  page : Nat
  pa : Nat
  perm : Nat
deriving DecidableEq, Repr

/-- The pages of the loaded sections, in section order, from a physical address on. -/
def mapPages (base : Nat) : List Sect → List Mapped
  | [] => []
  | t :: ts =>
    ((List.range t.pages).map fun i => ⟨t.addr / 65536 + i, base + 65536 * i, t.perm⟩) ++ mapPages (base + 65536 * t.pages) ts

/-- The level-2 and level-3 tables that a list of pages needs, by the index of what they cover. -/
def tables2 (ms : List Mapped) : List Nat := (ms.map fun m => m.page / 2 ^ 22).eraseDups
def tables3 (ms : List Mapped) : List Nat := (ms.map fun m => m.page / 2 ^ 11).eraseDups

/-- Writes the page tables from a physical address on: the top-level table, the level-2 tables and the level-3 tables. -/
def State.writeTables (s : State) (tb : Nat) (ms : List Mapped) : State :=
  let t2 := tables2 ms
  let t3 := tables3 ms
  let a2 (k : Nat) : Nat := tb + 16384 * (1 + t2.idxOf k)
  let a3 (k : Nat) : Nat := tb + 16384 * (1 + t2.length + t3.idxOf k)
  let s := t2.foldl (fun s k => s.wr64 (tb + 8 * k) (word (a2 k + 1))) s
  let s := t3.foldl (fun s k => s.wr64 (a2 (k / 2 ^ 11) + 8 * (k % 2 ^ 11)) (word (a3 k + 1))) s
  ms.foldl (fun s m => s.wr64 (a3 (m.page / 2 ^ 11) + 8 * (m.page % 2 ^ 11)) (word (m.pa + m.perm + 2))) s

/-- Copies the bytes of the data sections, in section order, to their pages; code pages are copied when they are verified (R379). -/
def State.copyData (s : State) (base : Nat) : List Sect → State
  | [] => s
  | t :: ts =>
    let s := if t.code || t.type == 8 then s else s.writeBytes base (s.readBytes t.loc t.size)
    s.copyData (base + 65536 * t.pages) ts

/-- The code pages of the loaded sections, in section order, with the place of their image. -/
def codeFrom (base : Nat) : List Sect → List (Nat × Nat × Nat)
  | [] => []
  | t :: ts =>
    (if t.code then (List.range t.pages).map fun i => (t.addr / 65536 + i, base + 65536 * i, t.loc + 65536 * i) else [])
      ++ codeFrom (base + 65536 * t.pages) ts

/-- The code pages of a job (R378, R379): the hashes stand in address order. -/
def codePages (hashes : Nat) (l : List (Nat × Nat × Nat)) : List CodePage :=
  l.map fun p =>
    { page := p.1, pa := p.2.1, src := p.2.2, hash := hashes + 32 * (l.filter fun q => decide (q.1 < p.1)).length,
      verified := false, failed := false }

/-! ## Building a job (R378) -/

/-- What a step of a launch ends in: the state as built so far, or a refusal with the step's cause code, where the manual names one (log entry
10). -/
abbrev Built := Except (Option Nat) State

/-- A step whose refusal has no cause that the manual names. -/
def built : Option State → Built
  | some s => .ok s
  | none => .error none

/-- The steps of a launch over a list, in order. -/
def buildAll {α : Type} (f : State → α → Built) : State → List α → Built
  | s, [] => .ok s
  | s, x :: xs =>
    match f s x with
    | .error c => .error c
    | .ok t => buildAll f t xs

/-- A core's start state (R28): the task table, the contexts, and the core's own state. -/
def State.startCore (s : State) (k : Kcb) (job gen core : Nat) : State :=
  let s := (s.scrub (poolLoc core 0) Config.poolBytes).setCore core
    { Core.init core with owner := some job, gen := gen, partword := k.part }
  let s := (List.range 16).foldl (fun s c => s.setCtx ⟨core, c⟩ { Ctx.init core c with feretry := BitVec.ofNat 16 k.feretry }) s
  (List.range 64).foldl (fun s ch => s.wr64 (taskLoc core ch 1) 4) s

/-- The channels of the control block in the task tables of their cores. -/
def State.startChannels (s : State) (p : Placing) : List ChanEntry → Option State
  | [] => some s
  | e :: es =>
    match p.coresOf 0xFFFF e.core with
    | none => none
    | some cs => (cs.foldl (fun s c => s.wrWords (taskLoc c e.chan 0) [e.w0, e.w1]) s).startChannels p es

/-- The pool and store images, in section order (R372). -/
def State.images (s : State) (p : Placing) (k : Kcb) (rsvb : Nat) : List Sect → Option State
  | [] => some s
  | t :: ts =>
    if t.type = 0x70000010 then
      match p.coresOf 0xFFFFFFFF t.info with
      | none => none
      | some cs =>
        if t.addr < 4096 * (1 + partSys k.part) ∨ Config.poolBytes < t.addr + t.size then none
        else (cs.foldl (fun s c => s.writeBytes (poolLoc c t.addr) (s.readBytes t.loc t.size)) s).images p k rsvb ts
    else if t.type = 0x70000011 then
      match p.clustersOf t.info with
      | none => none
      | some cs =>
        if 0x1FDF00 - 4096 * rsvb < t.addr + t.size then none
        else (cs.foldl (fun s c => s.writeBytes (storeLoc c t.addr) (s.readBytes t.loc t.size)) s).images p k rsvb ts
    else s.images p k rsvb ts

/-- The arena of a core (R210, R372, R378): the records whose TYPE is 0 form the free list in address order; every other has LIFE 1, OWNER 0
and PEND 0. -/
def State.startArena (s : State) (k : Kcb) (core : Nat) : Option State :=
  let node (i : Nat) : Nat := k.abase + 32 * i
  let typeOf (i : Nat) : Nat := hdrType (s.rd64 (poolLoc core (node i)))
  let used := (List.range k.atotal).filter fun i => typeOf i != 0
  let free := (List.range k.atotal).filter fun i => typeOf i == 0
  if used.all fun i => hdrFresh (s.rd64 (poolLoc core (node i))) then
    let nexts := free.drop 1
    let s := (List.range free.length).foldl (fun s q =>
      s.wr64 (poolLoc core (node (free.getD q 0)) + 8) (word ((nexts[q]?.map node).getD 0))) s
    let head := (free.head?.map node).getD 0
    let tail := (free.getLast?.map node).getD 0
    some (s.wrWords (poolLoc core (sysBase + 0x4800))
      [word (tail * 2 ^ 32 + head), word (k.atotal * 2 ^ 32 + free.length), word (free.length * 2 ^ 32 + k.abase), k.rules, 0,
       word (k.tnote / 128 * 2 ^ 31 + k.tnote % 64 * 2 ^ 24 + k.snote / 128 * 2 ^ 15 + k.snote % 64 * 2 ^ 8), 0, 0])
  else none
where
  /-- TYPE of a node header (R208). -/
  hdrType (h : Word) : Nat := bits h 63 56
  /-- LIFE 1, OWNER 0 and PEND 0 (R205, R372). -/
  hdrFresh (h : Word) : Bool := bits h 51 50 == 1 && bits h 30 16 == 0 && bits h 53 52 == 0

/-- The active-pair queue of a core (R282, R377): its descriptor, made live where it passes the checks of WLINIT, and else the cause of the first
that fails (R378). -/
def State.startQueue (s : State) (k : Kcb) (job gen core : Nat) : Built :=
  let rank := ((s.rectCores job).filter fun d => decide (s.orderKey job d < s.orderKey job core)).length
  let qstr := (24 * k.qscap + 4095) / 4096 * 4096
  let t := s.wrWords (poolLoc core (pairDesc + 8)) [word (2 ^ 24 + k.qarea), k.qspill + word (rank * qstr), word k.qscap]
  if 2 ^ 20 ≤ k.qarea then .error (some cBounds)
  else
    match t.listCheck core pairDesc with
    | none => .ok (t.putList core (t.freshList core pairDesc job gen))
    | some c => .error (some c)

/-- The continuation pool's free chain in entry order, and its header (R190), or the cause for which the pool is not mapped for reading and
writing. -/
def State.startPool (s : State) (k : Kcb) (job : Nat) : Built :=
  let at' (off : Nat) : Except Nat Nat := s.walkTo job (bits k.poolBase 47 0 + off) .both
  match at' 0, (List.range k.poolN).mapM fun i => at' (64 + 256 * i) with
  | .error c, _ => .error (some c)
  | _, .error c => .error (some c)
  | .ok h, .ok ls =>
    let entry (i : Nat) : Word := k.poolBase + word (64 + 256 * i)
    let s := (List.range k.poolN).foldl (fun s i =>
      s.wr64 (ls.getD i 0 + 56) (if i + 1 < k.poolN then entry (i + 1) else 0)) s
    .ok (s.wrWords h [entry 0, word (k.poolN * 2 ^ 32 + k.poolN), word k.poolN])

/-- The start messages of a list with their cores, in array order. -/
def startTargets (p : Placing) (l : List StartEntry) : Option (List (Nat × StartEntry)) :=
  match l with
  | [] => some []
  | e :: es =>
    match p.coresOf 0xFFFF e.core, startTargets p es with
    | some cs, some r => some (cs.map (fun c => (c, e)) ++ r)
    | _, _ => none

/-- The placed entries of the co-resident sets: core, channel and count. -/
def setPlaces (p : Placing) (l : List SetEntry) : Option (List SetEntry) :=
  match l with
  | [] => some []
  | e :: es =>
    match p.coresOf 0xFFFF e.core, setPlaces p es with
    | some cs, some r => some (cs.map (fun c => { e with core := c }) ++ r)
    | _, _ => none

/-- The members of the co-resident sets: cores and channels, as often as their counts say. -/
def setMembers (l : List SetEntry) : List (Nat × Nat) := l.flatMap fun e => List.replicate e.count (e.core, e.chan)

/-- Splits the start messages into those of members of co-resident sets and the rest (R310, R378). -/
def splitStarts : List (Nat × Nat) → List (Nat × StartEntry) → List (Nat × StartEntry) × List (Nat × StartEntry)
  | _, [] => ([], [])
  | ms, m :: r =>
    if ms.contains (m.1, m.2.chan) then
      let (a, b) := splitStarts (ms.erase (m.1, m.2.chan)) r
      (m :: a, b)
    else
      let (a, b) := splitStarts ms r
      (a, m :: b)

/-- R310: no core's count exceeds C, or C - 1 with a reserved context 0; no set names a held channel. -/
def State.setsOk (s : State) (k : Kcb) (es : List SetEntry) : Bool :=
  let room := ctxCount k.part - k.part.toNat % 2
  es.all fun e => decide (((es.filter fun f => f.core == e.core).map (·.count)).sum ≤ room) && !(bit (s.task e.core e.chan 1) 2)

/-- Sends the start messages from the monitor core (R378). -/
def State.sendStarts (s : State) (job gen mon : Nat) : List (Nat × StartEntry) → State
  | [] => s
  | m :: ms =>
    (s.later 1 (some ⟨planeMessage, mon, m.1⟩) .messageArrive
      (.msg { job := job, gen := gen, src := mon, target := m.1, body := .start m.2.chan m.2.nw m.2.payload, op := none, via := mon })).sendStarts job gen mon ms

/-- What the checks of a launch find. -/
structure Plan where
  record : LaunchRecord
  secs : List Sect
  kcb : Kcb
  place : Placing
  job : Nat
  base : Nat
  size : Nat
deriving DecidableEq, Repr

/-- The loaded sections of an image. -/
def Plan.loaded (p : Plan) : List Sect := p.secs.filter Sect.alloc

/-- The pages that a launch maps, and the place of its page tables after them. -/
def Plan.mapped (p : Plan) : List Mapped := mapPages p.base p.loaded
def Plan.tables (p : Plan) : Nat := p.base + 65536 * p.mapped.length

/-- The checks of step 1 of R378 with the choice of a job number and of memory. -/
def State.planLaunch (s : State) (body : List Byte) : Option Plan :=
  match s.launchRecord body with
  | none => none
  | some r =>
    match s.sections r.image r.len with
    | none => none
    | some secs =>
      match (secs.filter fun t => t.type == 7).findSome? fun t => s.findNote t.loc (t.loc + t.size) (t.size / 12) with
      | none => none
      | some (loc, len) =>
        match s.kcb loc len with
        | none => none
        | some k =>
          match cornerOf k.corner k.rw k.rh, cornerOf r.corner k.rw k.rh with
          | some (lx, ly), some (px, py) =>
            let p : Placing := { lx := lx, ly := ly, px := px, py := py, w := k.rw, h := k.rh }
            let code := (secs.filter Sect.code).map Sect.pages
            let ms := mapPages 0 (secs.filter Sect.alloc)
            let n := (65536 * ms.length + 16384 * (1 + (tables2 ms).length + (tables3 ms).length) + 65535) / 65536 * 65536
            let pick := Config.launchPlace s.freeCount
            let used := s.usedRanges
            let fuel := used.length + 1
            if code.foldl (· + ·) 0 ≠ r.npage ∨ !s.eligible p k.mx then none
            else
              match s.freeJob pick, (freePlace used n fuel (65536 * pick)).orElse fun _ => freePlace used n fuel 0 with
              | some job, some base => some { record := r, secs := secs, kcb := k, place := p, job := job, base := base, size := n }
              | _, _ => none
          | _, _ => none

/-- Steps 2 and 3 of R378: the job becomes live, its memory is scrubbed, and its tables and data are built; and the start state of its
cores and clusters (R28). -/
def State.layJob (s : State) (p : Plan) (host : Word) : State :=
  let k := p.kcb
  let gen := ((s.job p.job).gen + 1) % 1024
  let s := { s with freeCount := s.freeCount + 1 }.setJob p.job { Job.init p.job with
    st := .live, gen := gen, ptroot := word (p.tables + 1), cx := p.place.px / 4, cy := p.place.py / 2, cw := p.place.w, ch := p.place.h,
    trapvec := word (bits k.trapvec 63 2 * 4), wdlimit := if k.wdlog = 0 then 2 ^ 26 else 2 ^ k.wdlog, poolBase := k.poolBase,
    feretry := k.feretry, rsvb := if k.rsvb = 0xFFFF then 128 else k.rsvb, mxused := k.mx, poolN := k.poolN, rules := k.rules,
    abase := k.abase, atotal := k.atotal, tnote := k.tnote, snote := k.snote, qspill := k.qspill, qscap := k.qscap,
    pages := codePages p.record.hashes (codeFrom p.base p.loaded), host := host, pbase := p.base, psize := p.size }
  let s := ((s.scrub p.base p.size).writeTables p.tables p.mapped).copyData p.base p.loaded
  let s := p.place.cores.foldl (fun s c => s.startCore k p.job gen c) s
  let s := p.place.clusters.foldl (fun s c => (s.scrub (storeLoc c 0) Config.storeBytes).setCluster c { s.cluster c with
    misses := [], gatherq := [], yserve := none, ysaved := [], mx := Mx.init, mxq := [], mxBusy := false }) s
  s.throughY 0 (word p.base) p.size p.place.clusters

/-- Step 7 of R378: the sets are checked (R310), and the start messages are sent, those of the members of sets first. -/
def State.launchStarts (s : State) (p : Plan) : Built :=
  match startTargets p.place p.kcb.starts, setPlaces p.place p.kcb.sets with
  | some starts, some es =>
    if !s.setsOk p.kcb es then .error none
    else
      let (first, rest) := splitStarts (setMembers es) starts
      let s := s.setJob p.job { s.job p.job with coset := setMembers es }
      .ok (s.sendStarts p.job (s.job p.job).gen ((s.monitorFor 0).getD 0) (first ++ rest))
  | _, _ => .error none

/-- Steps 4 to 7 of R378, in order. -/
def State.fillJob (s : State) (p : Plan) : Built := do
  let k := p.kcb
  let gen := (s.job p.job).gen
  let s ← built (s.images p.place k (s.job p.job).rsvb p.secs)
  let s ← built (s.startChannels p.place k.chans)
  let s ← buildAll (fun s c => built (s.startArena k c)) s p.place.cores
  let s ← buildAll (fun s c => s.startQueue k p.job gen c) s p.place.cores
  let s ← s.startPool k p.job
  s.launchStarts p

/-- LAUNCH (R348, R378): a launch that is refused at any step is answered with the step's cause code, and nothing of it stays. Its memory and its
windows must stand at homes that operate (R339, log entry 120). -/
def execHostLaunch (s : State) : Out :=
  formMonitor s 6 fun s h =>
    match s.planLaunch (hostBody h) with
    | none => .next (s.hostReply h false [])
    | some p =>
      if s.spanDown p.base p.size || s.spanDown p.record.image p.record.len || s.spanDown p.record.hashes (32 * p.record.npage) then
        .next (s.hostRefuse h (some cEndpoint))
      else
        match (s.layJob p h.host).fillJob p with
        | .error cause => .next (s.hostRefuse h cause)
        | .ok t => .next (t.hostReply h true (leBytes 8 (jobid p.job (t.job p.job).gen)))

end Sys2Proof.Machine
end

