-- ==== Sys2Proof/Machine/Scalar.lean ====
section
/-!
DEFINITION. The scalar instructions: register arithmetic and logic (R57), multiply and divide (R58), bit and field
operations (R59), compares (R60), immediates (R61, R62), and coordinates (R63, R64).
-/
namespace Sys2Proof.Machine

open Sys2Proof

/-! ## Values -/

/-- 1 or 0 (R60). -/
def oneIf (b : Bool) : Word := if b then 1 else 0

/-- The shift count b[5:0] (R57). -/
def shiftCount (b : Word) : Nat := bits b 5 0

def valShl (a b : Word) : Word := a <<< shiftCount b
def valShr (a b : Word) : Word := a >>> shiftCount b
def valSra (a b : Word) : Word := a.sshiftRight (shiftCount b)
def valRol (a b : Word) : Word := a <<< shiftCount b ||| a >>> (64 - shiftCount b)
def valMinS (a b : Word) : Word := if a.toInt ≤ b.toInt then a else b
def valMaxS (a b : Word) : Word := if a.toInt ≤ b.toInt then b else a
def valMinN (a b : Word) : Word := if a.toNat ≤ b.toNat then a else b
def valMaxN (a b : Word) : Word := if a.toNat ≤ b.toNat then b else a

/-- MULH.s: bits 127:64 of the signed product (R58). -/
def valMulhS (a b : Word) : Word := wordI (a.toInt * b.toInt / 2 ^ 64)

/-- MULH.n: bits 127:64 of the unsigned product (R58). -/
def valMulhN (a b : Word) : Word := word (a.toNat * b.toNat / 2 ^ 64)

/-- The quotient of DIV.s, toward zero (R58). -/
def quoS (a b : Word) : Int :=
  if b = 0 then -1
  else if a.toInt = -(2 ^ 63) ∧ b.toInt = -1 then -(2 ^ 63)
  else (if (a.toInt < 0) = (b.toInt < 0) then 1 else -1) * ((a.toInt.natAbs / b.toInt.natAbs : Nat) : Int)

def valDivS (a b : Word) : Word := wordI (quoS a b)

def valRemS (a b : Word) : Word :=
  if b = 0 then a
  else if a.toInt = -(2 ^ 63) ∧ b.toInt = -1 then 0
  else wordI (a.toInt - b.toInt * quoS a b)

def valDivN (a b : Word) : Word := if b = 0 then BitVec.allOnes 64 else word (a.toNat / b.toNat)
def valRemN (a b : Word) : Word := if b = 0 then a else word (a.toNat % b.toNat)

/-- CLZ: leading zero bits, 64 for 0 (R59). -/
def valClz (a : Word) : Word := if a = 0 then 64 else word (63 - log2 a.toNat)

/-- Trailing zero bits of a number, `n` when its low `n` bits are 0. -/
def ctzN : Nat → Nat → Nat
  | 0, _ => 0
  | n + 1, x => if x % 2 = 1 then 0 else 1 + ctzN n (x / 2)

def valCtz (a : Word) : Word := word (ctzN 64 a.toNat)
def valPopc (a : Word) : Word := word (popN 64 a.toNat)
def valBswap (a : Word) : Word := word (leNat (leBytes 8 a.toNat).reverse)
def valSel (d a b : Word) : Word := if d ≠ 0 then a else b

/-- n = min(b[6:0], 64) of SEXT and ZEXT (R59). -/
def extWidth (b : Word) : Nat := min (bits b 6 0) 64

def valZext (a b : Word) : Word := word (a.toNat % 2 ^ extWidth b)
def valSext (a b : Word) : Word := if extWidth b = 0 then 0 else wordI (sextN a.toNat (extWidth b))

/-- p and w of BFX and BFI (R59). -/
def fieldPos (b : Word) : Nat := bits b 5 0
def fieldWidth (b : Word) : Nat := min (bits b 14 8) 64

def valBfx (a b : Word) : Word := word (a.toNat / 2 ^ fieldPos b % 2 ^ fieldWidth b)

/-- BFI: bits p + w − 1 : p of the old g[D] replaced by a[w−1:0], what lies above bit 63 dropped (R59). -/
def valBfi (d a b : Word) : Word :=
  let m : Nat := (2 ^ fieldWidth b - 1) * 2 ^ fieldPos b
  (d &&& ~~~(word m)) ||| (word (a.toNat % 2 ^ fieldWidth b * 2 ^ fieldPos b))

/-! ## Register arithmetic and logic -/

/-- ADD (R57). -/
def execAdd (o : R3) (s : State) : Out := formRR o s (· + ·)

/-- SUB (R57). -/
def execSub (o : R3) (s : State) : Out := formRR o s (· - ·)

/-- AND (R57). -/
def execAndR (o : R3) (s : State) : Out := formRR o s (· &&& ·)

/-- OR (R57). -/
def execOrR (o : R3) (s : State) : Out := formRR o s (· ||| ·)

/-- XOR (R57). -/
def execXorR (o : R3) (s : State) : Out := formRR o s (· ^^^ ·)

/-- ANDN (R57). -/
def execAndn (o : R3) (s : State) : Out := formRR o s fun a b => a &&& ~~~b

/-- SHL (R57). -/
def execShl (o : R3) (s : State) : Out := formRR o s valShl

/-- SHR (R57). -/
def execShr (o : R3) (s : State) : Out := formRR o s valShr

/-- SRA (R57). -/
def execSra (o : R3) (s : State) : Out := formRR o s valSra

/-- ROL (R57). -/
def execRol (o : R3) (s : State) : Out := formRR o s valRol

/-- MIN.s (R57). -/
def execMinS (o : R3) (s : State) : Out := formRR o s valMinS

/-- MIN.n (R57). -/
def execMinN (o : R3) (s : State) : Out := formRR o s valMinN

/-- MAX.s (R57). -/
def execMaxS (o : R3) (s : State) : Out := formRR o s valMaxS

/-- MAX.n (R57). -/
def execMaxN (o : R3) (s : State) : Out := formRR o s valMaxN

/-! ## Multiply and divide -/

/-- MUL (R58). -/
def execMul (o : R3) (s : State) : Out := formRRLong o (firstWord (.mul o)) s Config.latMul (· * ·)

/-- MULH.s (R58). -/
def execMulhS (o : R3) (s : State) : Out := formRRLong o (firstWord (.mulhS o)) s Config.latMul valMulhS

/-- MULH.n (R58). -/
def execMulhN (o : R3) (s : State) : Out := formRRLong o (firstWord (.mulhN o)) s Config.latMul valMulhN

/-- DIV.s (R58). -/
def execDivS (o : R3) (s : State) : Out := formRRLong o (firstWord (.divS o)) s Config.latDiv valDivS

/-- DIV.n (R58). -/
def execDivN (o : R3) (s : State) : Out := formRRLong o (firstWord (.divN o)) s Config.latDiv valDivN

/-- REM.s (R58). -/
def execRemS (o : R3) (s : State) : Out := formRRLong o (firstWord (.remS o)) s Config.latDiv valRemS

/-- REM.n (R58). -/
def execRemN (o : R3) (s : State) : Out := formRRLong o (firstWord (.remN o)) s Config.latDiv valRemN

/-! ## Bits and fields -/

/-- CLZ (R59). -/
def execClz (o : R2) (s : State) : Out := formR o s valClz

/-- CTZ (R59). -/
def execCtz (o : R2) (s : State) : Out := formR o s valCtz

/-- POPC (R59). -/
def execPopc (o : R2) (s : State) : Out := formR o s valPopc

/-- BSWAP (R59). -/
def execBswap (o : R2) (s : State) : Out := formR o s valBswap

/-- SEL (R59). -/
def execSel (o : R3) (s : State) : Out := formRRD o s valSel

/-- SEXT (R59). -/
def execSext (o : R3) (s : State) : Out := formRR o s valSext

/-- ZEXT (R59). -/
def execZext (o : R3) (s : State) : Out := formRR o s valZext

/-- BFX (R59). -/
def execBfx (o : R3) (s : State) : Out := formRR o s valBfx

/-- BFI (R59). -/
def execBfi (o : R3) (s : State) : Out := formRRD o s valBfi

/-! ## Compares -/

/-- CMP.eq (R60). -/
def execCmpEq (o : R3) (s : State) : Out := formRR o s fun a b => oneIf (a == b)

/-- CMP.ne (R60). -/
def execCmpNe (o : R3) (s : State) : Out := formRR o s fun a b => oneIf (a != b)

/-- CMP.lt (R60). -/
def execCmpLt (o : R3) (s : State) : Out := formRR o s fun a b => oneIf (a.slt b)

/-- CMP.ge (R60). -/
def execCmpGe (o : R3) (s : State) : Out := formRR o s fun a b => oneIf (!a.slt b)

/-- CMP.ltn (R60). -/
def execCmpLtn (o : R3) (s : State) : Out := formRR o s fun a b => oneIf (a.ult b)

/-- CMP.gen (R60). -/
def execCmpGen (o : R3) (s : State) : Out := formRR o s fun a b => oneIf (!a.ult b)

/-! ## Immediates (R61) -/

/-- ADDI: the immediate is sign-extended (R61). -/
def execAddi (o : RI) (s : State) : Out := formRI o.s o.d o.a s fun a => a + o.i.signExtend 64

/-- ANDI: the immediate is sign-extended (R61). -/
def execAndi (o : RI) (s : State) : Out := formRI o.s o.d o.a s fun a => a &&& o.i.signExtend 64

/-- ORI: the immediate is zero-extended (R61). -/
def execOri (o : RI) (s : State) : Out := formRI o.s o.d o.a s fun a => a ||| o.i.zeroExtend 64

/-- XORI (R61). -/
def execXori (o : RI) (s : State) : Out := formRI o.s o.d o.a s fun a => a ^^^ o.i.zeroExtend 64

/-- SHLI (R61). -/
def execShli (o : RS) (s : State) : Out := formRI o.s o.d o.a s fun a => a <<< o.i.toNat

/-- SHRI (R61). -/
def execShri (o : RS) (s : State) : Out := formRI o.s o.d o.a s fun a => a >>> o.i.toNat

/-- SRAI (R61). -/
def execSrai (o : RS) (s : State) : Out := formRI o.s o.d o.a s fun a => a.sshiftRight o.i.toNat

/-- CMPI.lt: signed (R61). -/
def execCmpiLt (o : RI) (s : State) : Out := formRI o.s o.d o.a s fun a => oneIf (a.slt (o.i.signExtend 64))

/-- CMPI.eq (R61). -/
def execCmpiEq (o : RI) (s : State) : Out := formRI o.s o.d o.a s fun a => oneIf (a == o.i.signExtend 64)

/-- MULI: long (R61). -/
def execMuli (o : RI) (s : State) : Out :=
  s.issue ⟨o.s, none, [gr o.d, gr o.a]⟩ fun s c =>
    .ok (s.longResult c (firstWord (.muli o)) (gr o.d)
      (((s.ctx c).getG o.a.toNat * o.i.signExtend 64).zeroExtend 128) Config.latMul)

/-! ## Long immediates (R62) -/

/-- An instruction of two words that changes its context and goes on. -/
def formL (sm : Bool) (regs : List Reg) (s : State) (f : Ctx → Ctx) : Out :=
  s.issue ⟨sm, none, regs⟩ fun s c => .ok (s.setCtx c ((f (s.ctx c)).advance 2))

/-- LI (R62). -/
def execLi (o : LD1) (s : State) : Out := formL o.s [gr o.d] s fun x => x.setG o.d.toNat (o.i.signExtend 64)

/-- LIH (R62). -/
def execLih (o : LDA) (s : State) : Out :=
  formL o.s [gr o.d, gr o.a] s fun x =>
    x.setG o.d.toNat ((o.i.zeroExtend 64 <<< 32) ||| ((x.getG o.a.toNat).truncate 32).zeroExtend 64)

/-- LA: a byte offset from the instruction's first word (R62). -/
def execLa (o : LD1) (s : State) : Out := formL o.s [gr o.d] s fun x => x.setG o.d.toNat (x.pc + o.i.signExtend 64)

/-! ## Coordinates -/

/-- R41: the core that a coordinate field names, seen from a core; none outside the mesh. -/
def resolveField (core : Nat) (f : BitVec 15) : Option (Nat × Nat) :=
  let n := f.toNat
  let x : Int := if f.getLsbD 14 then (nbits n 13 7 : Nat) else (xOf core : Int) + sextN (nbits n 13 7) 7
  let y : Int := if f.getLsbD 14 then (nbits n 6 0 : Nat) else (yOf core : Int) + sextN (nbits n 6 0) 7
  if 0 ≤ x ∧ x ≤ 47 ∧ 0 ≤ y ∧ y ≤ 63 then some (x.toNat, y.toNat) else none

/-- XY (R63). TRAPINFO of its MESH_BOUNDS, which R41 and R120 do not give, is 0: DESIGN CHOICE (log entry 119). -/
def execXy (o : LXY) (s : State) : Out :=
  s.issue ⟨o.s, none, [gr o.d, gr o.a]⟩ fun s c =>
    match resolveField c.core o.f with
    | none => .error (exact cMesh (o.f.zeroExtend 64) 0)
    | some (x, y) =>
      let z := s.ctx c
      .ok (s.setCtx c ((z.setG o.d.toNat (coreAddr (coreAt x y) (bits (z.getG o.a.toNat) 19 0))).advance 2))

/-- XYADD (R64): the reference in g[A] keeps its form. -/
def execXyadd (o : R3) (s : State) : Out :=
  s.issue ⟨o.s, none, [gr o.d, gr o.a, gr o.b]⟩ fun s c =>
    let z := s.ctx c
    let a := z.getG o.a.toNat
    let b := z.getG o.b.toNat
    let isCore := bits a 63 60 = 2 ∧ bits a 45 20 = 0
    let isField := bits a 63 15 = 0 ∧ bits a 14 14 = 1
    if ¬ isCore ∧ ¬ isField then .error (exact cBounds a 0)
    else
      let x0 := if isCore then bits a 59 53 else bits a 13 7
      let y0 := if isCore then bits a 52 46 else bits a 6 0
      let x : Int := x0 + sextN (bits b 13 7) 7
      let y : Int := y0 + sextN (bits b 6 0) 7
      if 0 ≤ x ∧ x ≤ 47 ∧ 0 ≤ y ∧ y ≤ 63 ∧ s.inRect (s.jobOf c.core) (coreAt x.toNat y.toNat) then
        let r := if isCore then setBits (setBits a 59 53 x.toNat) 52 46 y.toNat else word (coordField (coreAt x.toNat y.toNat))
        .ok (s.retire c fun z => z.setG o.d.toNat r)
      else .error (exact cMesh a (word ((x % 128).toNat * 128 + (y % 128).toNat)))

end Sys2Proof.Machine
end

