-- ==== Sys2Proof/Machine/Slot.lean ====
section
/-!
DEFINITION. Instruction fetch (R31, R72, R73, R125, R335, R379) and what a slot of the issue wheel does (R9, R46, R54, R116, R124): the
part of a step that comes before an instruction is executed.
-/
namespace Sys2Proof.Machine

open Sys2Proof

/-! ## Fetching words -/

/-- What fetching a word ends in. -/
inductive Fetched where
  | word (w : IWord)
  | miss (line : Nat)
  | fault (t : Trap)
deriving DecidableEq, Repr

/-- The trap of a fetch (R31, R125): TRAPVAL the code address, TRAPINFO 1. -/
def fetchTrap (cause : Nat) (a : Word) : Trap := exact cause a 1

/-- Whether an address lies in the body of a context's active loop. -/
def Ctx.inBody (x : Ctx) (a : Word) : Bool :=
  x.loopcnt != 0 && decide (x.loopstart.toNat ≤ a.toNat) && decide (a.toNat ≤ x.loopend.toNat)

/-- Whether the loop buffer holds the whole body (R72). -/
def Ctx.bodyHeld (x : Ctx) : Bool :=
  x.loopbuf.length == (x.loopend.toNat - x.loopstart.toNat) / 4 + 1

/-- The instruction word at an address, as a context fetches it: from its loop buffer, or from the cluster's instruction cache. -/
def State.fetchWord (s : State) (c : CtxId) (a : Word) : Fetched :=
  let x := s.ctx c
  let co := s.core c.core
  if x.inBody a && x.bodyHeld then .word (mget 0 x.loopbuf a.toNat)
  else if bits a 63 48 ≠ 0 then .fault (fetchTrap cBounds a)
  else
    let job := s.jobOf c.core
    match (s.cluster (clusterOf c.core)).icache.find? fun l => l.job == job && l.gen == co.gen && l.line == a.toNat / 64 with
    | some l => .word (l.words.getD (a.toNat % 64 / 4) 0)
    | none => .miss (a.toNat / 64)

/-- What fetching an instruction's words ends in. -/
inductive FetchedAll where
  | words (ws : List IWord)
  | miss (line : Nat)
  | fault (t : Trap)
deriving DecidableEq, Repr

/-- The words of an instruction from an address on. -/
def State.fetchWords (s : State) (c : CtxId) (a : Word) : Nat → FetchedAll
  | 0 => .words []
  | n + 1 =>
    match s.fetchWord c a with
    | .miss l => .miss l
    | .fault t => .fault t
    | .word w =>
      match s.fetchWords c (a + 4) n with
      | .words ws => .words (w :: ws)
      | .miss l => .miss l
      | .fault t => .fault t

/-- The instruction at the program counter of a context: as many words as its first word says (R31). -/
def State.fetch (s : State) (c : CtxId) : FetchedAll :=
  let pc := (s.ctx c).pc
  match s.fetchWord c pc with
  | .miss l => .miss l
  | .fault t => .fault t
  | .word w => s.fetchWords c pc (wordCount w)

/-- A fetch fault on an instruction that is to issue is exact; one on a handler's first instruction freezes the context (R125, R128). -/
def State.fetchFault (s : State) (c : CtxId) (t : Trap) : State :=
  if (s.ctx c).handlerFirst then s.freeze c else s.raise c t

/-- The code address that a context misses in a line: its program counter, or the line's first word. -/
def State.missAddr (s : State) (c : CtxId) (line : Nat) : Word :=
  if (s.ctx c).pc.toNat / 64 = line then (s.ctx c).pc else word (64 * line)

/-- Sixteen words of memory. -/
def State.lineWords (s : State) (pa : Nat) : List IWord := (List.range 16).map fun i => BitVec.ofNat 32 (s.read (pa + 4 * i) 4)

/-- ICACHE_FILL (R329, R335, R379): the line is translated with a check of EX, and waits for a walk where the TLB misses; a page that is not verified makes the context wait; else the line
is read at its home. Poison there is consumed (R125). -/
def execIcacheFill (s : State) : Out :=
  match s.arg with
  | .line c line =>
    let job := s.jobOf c.core
    let k := clusterOf c.core
    let va := 64 * line
    match s.pageAt k job va .fetch with
    | .error 0 => .next (s.addMiss k job va [.fetch])
    | .error cause => .next ((s.spent k job (word va)).fetchFault c (fetchTrap cause (s.missAddr c line)))
    | .ok pa =>
      if s.homeDown pa then .next (s.fetchFault c (fetchTrap cEndpoint (s.missAddr c line)))
      else if s.granuleRetired pa 64 then .next (s.fetchFault c (fetchTrap cProtect (s.missAddr c line)))
      else
      match (s.job job).pages.find? fun p => p.page == va / 65536 && !p.verified with
      | some p =>
        let x := s.ctx c
        let s := (s.setCtx c { x with st := .marker, busy := .codeWait p.page }).tellMonitor c.core (dieOf c.core) cIntegrity []
        let ev := s.agenda.any fun d => d.what == .codePageVerify && d.arg == .pair job p.page
        .next (if ev then s else s.later 4096 none .codePageVerify (.pair job p.page))
      | none =>
        match s.poisoned pa 64 with
        | some l => .next (s.lose job { lossAt c (s.missAddr c line) (s.missAddr c line) l with src := 4 })
        | none =>
          let cl := s.cluster k
          let l : ILine := { job := job, gen := (s.core c.core).gen, line := line, words := s.lineWords pa }
          .next (s.setCluster k { cl with icache := (l :: cl.icache).take 1024 })
  | _ => .next s

/-- Replaces a code page of a job. -/
def State.setPage (s : State) (job : Nat) (p : CodePage) : State :=
  s.setJob job { s.job job with pages := (s.job job).pages.map fun q => if q.page = p.page then p else q }

/-- The contexts of a job that wait for a code page. -/
def State.codeWaiters (s : State) (job page : Nat) : List CtxId :=
  (s.coresOf job).flatMap fun core => (s.coreCtxs core).filter fun c => (s.ctx c).busy == .codeWait page

/-- The word of its instruction with which a context waits for a code page (R31): the first, or the first that lies in the page. -/
def State.pageWord (s : State) (c : CtxId) (page : Nat) : Word :=
  if (s.ctx c).pc.toNat / 65536 = page then (s.ctx c).pc else word (65536 * page)

/-- CODE_PAGE_VERIFY (R379): the monitor copies the page from its window and hashes it. The first mismatch is told to the host, which
writes the page again; after a match the waiting contexts fetch again, or take INTEGRITY when the page had failed; a second mismatch loses
the job. -/
def execCodePageVerify (s : State) : Out :=
  match s.arg with
  | .pair job page =>
    match (s.job job).pages.find? fun p => p.page == page && !p.verified with
    | none => .next s
    | some p =>
      let bytes := s.readBytes p.src 65536
      let s := (s.writeBytes p.pa bytes).cleanse p.pa 65536
      if sha3 bytes = s.readBytes p.hash 32 then
        let s := s.setPage job { p with verified := true }
        .next ((s.codeWaiters job page).foldl (fun s c =>
          let s := s.setCtx c { s.ctx c with st := .running, busy := .idle }
          if p.failed then s.fetchFault c (fetchTrap cIntegrity (s.pageWord c page)) else s) s)
      else if p.failed then
        .next (s.lose job
          { cause := cIntegrity, src := 4, paddr := word p.pa, vaddr := word (65536 * page), core := none, k := 0, pc := 0 })
      else
        let (w, s) := ((s.count 0x07 (unitOf 5 0) 1).setPage job { p with failed := true }).openWord
        .next ({ s with out := s.out ++ [Outgoing.record (s.job job).host (leBytes 8 w.toNat)] }.later 65536 none .codePageVerify (.pair job page))
  | _ => .next s

/-- UNASSIGNED_ENCODING (R53): exact ILLEGAL, with the first word and the index of the first offending word. -/
def execUnassignedEncoding (s : State) : Out :=
  match s.arg with
  | .word w i => .next (s.raise s.cur (exact cIllegal (w.zeroExtend 64) (word i)))
  | _ => .next s

/-! ## Loop bodies (R72, R73) -/

/-- An instruction that a loop body must not hold (R73). -/
def loopForbidden (i : Instr) : Bool :=
  match i with
  | .branch _ | .call _ | .bz _ | .bnz _ | .bmAny _ | .bmAll _ | .bmNone _ | .br _ | .callr _ | .ret _ | .loop _ | .bl _ | .calll _
  | .tend _ | .park _ | .tret _ => true
  | _ => false

/-- The LOOP_FORM trap of an instruction of a loop body that is fetched from memory (R73). A word that is both forbidden and the first of two of
which the second lies beyond LOOPEND (BL or CALLL at LOOPEND) is reported as forbidden, TRAPINFO 0: DESIGN CHOICE (log entry 60). -/
def Ctx.loopTrap (x : Ctx) (i : Instr) (w : IWord) (n : Nat) : Option Trap :=
  if !x.inBody x.pc || x.bodyHeld then none
  else if loopForbidden i then some (exact cLoopForm (w.zeroExtend 64) 0)
  else if x.loopend.toNat < x.pc.toNat + 4 * (n - 1) then some (exact cLoopForm (w.zeroExtend 64) 1)
  else none

/-- Whether a word is the next of the body that the loop buffer takes: the words before it are there. A discard in the middle of a pass leaves the
buffer empty, so that nothing is captured until the next pass begins at LOOPSTART (R20, R72). -/
def Ctx.captures (x : Ctx) (a : Word) : Bool :=
  x.inBody a && decide (x.loopbuf.length < 64) && a.toNat == x.loopstart.toNat + 4 * x.loopbuf.length

/-- The words of an instruction are captured into the loop buffer, which holds 64 (R72). -/
def Ctx.capture (x : Ctx) (a : Word) : List IWord → Ctx
  | [] => x
  | w :: ws => Ctx.capture (if x.captures a then { x with loopbuf := mput x.loopbuf a.toNat w } else x) (a + 4) ws

/-! ## Slots (R8, R9) -/

/-- What a slot does: nothing, a change of state of its own, a step of the table, or the execution of an instruction. -/
inductive Act where
  | bubble
  | go (s : State)
  | event (what : Instr) (arg : Arg)
  | run (i : Instr) (s : State)
deriving DecidableEq, Repr

/-- The lowest-numbered context of a core with a running nest, to which the core's bubbles go (R116). -/
def State.nestCtx (s : State) (core : Nat) : Option CtxId :=
  (s.coreCtxs core).find? fun c =>
    (s.ctx c).st == .running && (match (s.ctx c).busy with | .nest _ => true | _ => false)

/-- A slot that issues a bubble. -/
def State.bubbleAct (s : State) (core : Nat) : Act :=
  match s.nestCtx core with
  | some c => .event .lnestStep (.ctx c)
  | none => .bubble

/-- Whether a slot has turned out to issue a bubble: its context entered a wait where it stands, or was not RUNNING and waits on, or gave up its
context (R8, R116). -/
def State.wasted (s u : State) (c : CtxId) : Bool :=
  match (s.ctx c).st, (u.ctx c).st with
  | .running, .stalled => true
  | .running, .marker => (u.ctx c).busy == .idle
  | .marker, .marker => true
  | .marker, .free => true
  | .stalled, .marker => true
  | _, _ => false

/-- Whether what a slot does is to fetch a line that is missing. -/
def Act.misses : Act → Bool
  | .event .icacheFill _ => true
  | _ => false

/-- Whether what a slot does is a bubble, with the nest step that it gives. -/
def Act.bubbles : Act → Bool
  | .bubble => true
  | .event .lnestStep _ => true
  | _ => false

/-- The end of the slot of a context: a bubble is a step of the core's nest (R116). -/
def State.endSlot (s : State) (c : CtxId) (a : Act) : Out → Out
  | .next u =>
    match if a.misses || (!a.bubbles && s.wasted u c) then u.nestCtx c.core else none with
    | some d => .next (u.later 0 none .lnestStep (.ctx d))
    | none => .next u
  | r => r

/-! ## What a slot finds before it acts -/

/-- The monitor's thread that was told of a FROZEN context has itself trapped before it thawed the context or killed its job: the job is lost
(R129, R363). -/
def State.loseHandled (s : State) (c : CtxId) : State :=
  let x := s.ctx c
  match x.handling with
  | none => s
  | some (d, id) =>
    if !x.intrap then s
    else
      let t := s.setCtx c { x with handling := none }
      let job := s.jobOf d.core
      if (s.ctx d).st == .frozen && job != 0 && jobid job (s.core d.core).gen == id then
        t.lose job { cause := cHandlerFetch, src := 8, paddr := 0, vaddr := 0, core := some d.core, k := d.k, pc := (s.ctx d).pc }
      else t

/-- Whether a thread stands in a wait at which it can become a continuation (R306). -/
def State.waitsToBlock (s : State) (c : CtxId) : Bool :=
  let x := s.ctx c
  match x.st, x.busy with
  | .marker, .idle => s.markerBlocks c
  | .running, .tagWait _ _ _ _ => s.canBlock c
  | .running, .ringWait _ _ _ => s.canBlock c
  | _, _ => false

/-- What a slot finds before it acts: a handler of the monitor that has trapped (R129), or a wait that has become a blocking point, which is
counted once (R308) and asks other parts to clear the marks of the thread's region (R154). -/
def State.atSlot (s : State) (c : CtxId) : State :=
  let s := s.loseHandled c
  if s.waitsToBlock c then (s.setCtx c ((s.ctx c).reachOnce s.cycle true)).askPeers c (s.ctx c).region .dom else s

/-- The refused journal entry that a context's next JOURNAL trap reports (R124). -/
def State.journalDue (s : State) (c : CtxId) : Option Op :=
  if (s.ctx c).intrap then none
  else (s.opsOf c).find? fun o => o.jidx.isSome && o.reason != 0 && !o.reported

/-- The JOURNAL trap of a refused entry. -/
def Op.journalTrap (o : Op) : Trap :=
  ⟨.asynchronous, cJournal, o.addr, Machine.word (o.reason * 256 + o.jidx.getD 0), none⟩

/-- Fetching, decoding and executing the instruction at the program counter. -/
def State.issueAct (s : State) (c : CtxId) : Act :=
  match s.fetch c with
  | .miss line => .event .icacheFill (.line c line)
  | .fault t => .go (s.fetchFault c t)
  | .words [] => .bubble
  | .words (w :: ws) =>
    let x := s.ctx c
    match decode (w :: ws) with
    | .unassigned k => .event .unassignedEncoding (.word w k)
    | .ok i =>
      match x.loopTrap i w (ws.length + 1) with
      | some t => .go (s.raise c t)
      | none => .run i (s.setCtx c (x.capture x.pc (w :: ws)))

/-- A WATCHDOG trap that is due waits for what is outstanding (R54); that wait does not restart the count (R308). -/
def State.watchWait (s : State) (c : CtxId) : State := s.setCtx c { s.ctx c with st := .marker, blocked := true }

/-- An asynchronous trap that is due at a context (R124, R308), with the state in which it is taken. -/
def State.asyncDue (s : State) (c : CtxId) : Option Act :=
  match s.journalDue c with
  | some o => some (.go ((s.setOp { o with reported := true }).takeTrap c o.journalTrap))
  | none => if s.watchDue c then some (.event .watchdog (.ctx c)) else none

/-- The slot of a context that is RUNNING with nothing under way: an asynchronous trap that is due is taken before the next instruction,
once nothing is outstanding, after a marker-precise trap, which is due at the same point where the fault list holds an entry to report. -/
def State.idleAct (s : State) (c : CtxId) : Act :=
  match s.asyncDue c with
  | none => s.issueAct c
  | some a =>
    if s.outstanding c then .go (if (s.journalDue c).isSome then s.marker c else s.watchWait c)
    else if (s.ctx c).faultTrap.isSome then .go (s.faultFirst c s)
    else a

/-- The slot of a STALLED context (R124): an asynchronous trap takes it out of STALLED. -/
def State.stalledAct (s : State) (c : CtxId) : Act :=
  match s.asyncDue c with
  | none => s.bubbleAct c.core
  | some _ => s.idleAct c

/-- The slot of a context in MARKER (R46, R165, R307). -/
def State.markerAct (s : State) (c : CtxId) : Act :=
  let x := s.ctx c
  match x.busy with
  | .idle =>
    if !s.outstanding c || ((s.opsOf c).any fun o => o.parked && o.widx.isSome) && s.mayBlock c then .event .markerWaitEnd (.ctx c)
    else if (s.core c.core).held && s.atMarkerBlock c then .event .preempt (.ctx c)
    else s.bubbleAct c.core
  | _ => s.bubbleAct c.core

/-- Whether an ICINV of a thread is outstanding: its next instruction is fetched after it completes (R136). -/
def State.icinvOut (s : State) (c : CtxId) : Bool :=
  (s.opsOf c).any fun o => match o.body with | .icinv _ => true | _ => false

/-- The context whose slot a core has in this cycle (R9). -/
def State.slotCtx (s : State) (core : Nat) : CtxId := ⟨core, s.cycle % ctxCount (s.core core).partword⟩

/-- What the slot of a core does in this cycle (R8, R9). The cores of a die in OFF or RESET do nothing (R339). -/
def State.slotAct (s : State) (core : Nat) : Act :=
  let c := s.slotCtx core
  let x := s.ctx c
  let die := s.die (dieOf core)
  if die = .off ∨ die = .reset then .bubble
  else
    match x.st with
    | .marker => s.markerAct c
    | .stalled => s.stalledAct c
    | .running =>
      match x.busy with
      | .nest _ => .event .lnestStep (.ctx c)
      | .stcScan _ _ _ _ _ => .event .stcScanStep (.ctx c)
      | .mxmap _ _ _ => .event .mxmapTableStep (.ctx c)
      | .mxscale _ _ _ => .event .mxscaleStep (.ctx c)
      | .tagWait _ _ _ _ => (s.asyncDue c).getD (.event .tagWaitRetest (.ctx c))
      | .ringWait _ _ _ => (s.asyncDue c).getD (.event .tagWaitRetest (.ctx c))
      | _ => if s.cycle < x.notBefore || s.icinvOut c then s.bubbleAct core else s.idleAct c
    | _ => s.bubbleAct core

end Sys2Proof.Machine
end

