-- ==== Sys2Proof/Machine/Dispatch.lean ====
section
/-!
DEFINITION. The meaning of each instruction and step: one arm per constructor of Instr.
-/
namespace Sys2Proof.Machine

open Sys2Proof

def exec (i : Instr) (s : State) : Host.Outcome State Fault Refusal :=
  match i with
  | .add o => Sys2Proof.Machine.execAdd o s
  | .sub o => Sys2Proof.Machine.execSub o s
  | .andR o => Sys2Proof.Machine.execAndR o s
  | .orR o => Sys2Proof.Machine.execOrR o s
  | .xorR o => Sys2Proof.Machine.execXorR o s
  | .andn o => Sys2Proof.Machine.execAndn o s
  | .shl o => Sys2Proof.Machine.execShl o s
  | .shr o => Sys2Proof.Machine.execShr o s
  | .sra o => Sys2Proof.Machine.execSra o s
  | .rol o => Sys2Proof.Machine.execRol o s
  | .mul o => Sys2Proof.Machine.execMul o s
  | .mulhS o => Sys2Proof.Machine.execMulhS o s
  | .mulhN o => Sys2Proof.Machine.execMulhN o s
  | .divS o => Sys2Proof.Machine.execDivS o s
  | .divN o => Sys2Proof.Machine.execDivN o s
  | .remS o => Sys2Proof.Machine.execRemS o s
  | .remN o => Sys2Proof.Machine.execRemN o s
  | .minS o => Sys2Proof.Machine.execMinS o s
  | .minN o => Sys2Proof.Machine.execMinN o s
  | .maxS o => Sys2Proof.Machine.execMaxS o s
  | .maxN o => Sys2Proof.Machine.execMaxN o s
  | .clz o => Sys2Proof.Machine.execClz o s
  | .ctz o => Sys2Proof.Machine.execCtz o s
  | .popc o => Sys2Proof.Machine.execPopc o s
  | .bswap o => Sys2Proof.Machine.execBswap o s
  | .sel o => Sys2Proof.Machine.execSel o s
  | .cmpEq o => Sys2Proof.Machine.execCmpEq o s
  | .cmpNe o => Sys2Proof.Machine.execCmpNe o s
  | .cmpLt o => Sys2Proof.Machine.execCmpLt o s
  | .cmpGe o => Sys2Proof.Machine.execCmpGe o s
  | .cmpLtn o => Sys2Proof.Machine.execCmpLtn o s
  | .cmpGen o => Sys2Proof.Machine.execCmpGen o s
  | .sext o => Sys2Proof.Machine.execSext o s
  | .zext o => Sys2Proof.Machine.execZext o s
  | .bfx o => Sys2Proof.Machine.execBfx o s
  | .bfi o => Sys2Proof.Machine.execBfi o s
  | .xyadd o => Sys2Proof.Machine.execXyadd o s
  | .addi o => Sys2Proof.Machine.execAddi o s
  | .andi o => Sys2Proof.Machine.execAndi o s
  | .ori o => Sys2Proof.Machine.execOri o s
  | .xori o => Sys2Proof.Machine.execXori o s
  | .shli o => Sys2Proof.Machine.execShli o s
  | .shri o => Sys2Proof.Machine.execShri o s
  | .srai o => Sys2Proof.Machine.execSrai o s
  | .cmpiLt o => Sys2Proof.Machine.execCmpiLt o s
  | .cmpiEq o => Sys2Proof.Machine.execCmpiEq o s
  | .muli o => Sys2Proof.Machine.execMuli o s
  | .li o => Sys2Proof.Machine.execLi o s
  | .lih o => Sys2Proof.Machine.execLih o s
  | .la o => Sys2Proof.Machine.execLa o s
  | .xy o => Sys2Proof.Machine.execXy o s
  | .branch o => Sys2Proof.Machine.execBranch o s
  | .call o => Sys2Proof.Machine.execCall o s
  | .bz o => Sys2Proof.Machine.execBz o s
  | .bnz o => Sys2Proof.Machine.execBnz o s
  | .bl o => Sys2Proof.Machine.execBl o s
  | .calll o => Sys2Proof.Machine.execCalll o s
  | .br o => Sys2Proof.Machine.execBr o s
  | .callr o => Sys2Proof.Machine.execCallr o s
  | .ret o => Sys2Proof.Machine.execRet o s
  | .loop o => Sys2Proof.Machine.execLoop o s
  | .nop o => Sys2Proof.Machine.execNop o s
  | .bmAny o => Sys2Proof.Machine.execBmAny o s
  | .bmAll o => Sys2Proof.Machine.execBmAll o s
  | .bmNone o => Sys2Proof.Machine.execBmNone o s
  | .mand o => Sys2Proof.Machine.execMand o s
  | .mor o => Sys2Proof.Machine.execMor o s
  | .mxor o => Sys2Proof.Machine.execMxor o s
  | .mandn o => Sys2Proof.Machine.execMandn o s
  | .mnot o => Sys2Proof.Machine.execMnot o s
  | .mmov o => Sys2Proof.Machine.execMmov o s
  | .mset o => Sys2Proof.Machine.execMset o s
  | .mget o => Sys2Proof.Machine.execMget o s
  | .mpopc o => Sys2Proof.Machine.execMpopc o s
  | .mfirst o => Sys2Proof.Machine.execMfirst o s
  | .ld o => Sys2Proof.Machine.execLd o s
  | .st o => Sys2Proof.Machine.execSt o s
  | .ldv o => Sys2Proof.Machine.execLdv o s
  | .stv o => Sys2Proof.Machine.execStv o s
  | .ldf o => Sys2Proof.Machine.execLdf o s
  | .ldt o => Sys2Proof.Machine.execLdt o s
  | .stf o => Sys2Proof.Machine.execStf o s
  | .stw o => Sys2Proof.Machine.execStw o s
  | .fee o => Sys2Proof.Machine.execFee o s
  | .feq o => Sys2Proof.Machine.execFeq o s
  | .amoAdd o => Sys2Proof.Machine.execAmoAdd o s
  | .amoAnd o => Sys2Proof.Machine.execAmoAnd o s
  | .amoOr o => Sys2Proof.Machine.execAmoOr o s
  | .amoXor o => Sys2Proof.Machine.execAmoXor o s
  | .amoMinS o => Sys2Proof.Machine.execAmoMinS o s
  | .amoMinN o => Sys2Proof.Machine.execAmoMinN o s
  | .amoMaxS o => Sys2Proof.Machine.execAmoMaxS o s
  | .amoMaxN o => Sys2Proof.Machine.execAmoMaxN o s
  | .amoSwap o => Sys2Proof.Machine.execAmoSwap o s
  | .amoFadd o => Sys2Proof.Machine.execAmoFadd o s
  | .cas o => Sys2Proof.Machine.execCas o s
  | .fence o => Sys2Proof.Machine.execFence o s
  | .pref o => Sys2Proof.Machine.execPref o s
  | .stc o => Sys2Proof.Machine.execStc o s
  | .ldx o => Sys2Proof.Machine.execLdx o s
  | .vadd o => Sys2Proof.Machine.execVadd o s
  | .vsub o => Sys2Proof.Machine.execVsub o s
  | .vadds o => Sys2Proof.Machine.execVadds o s
  | .vsubs o => Sys2Proof.Machine.execVsubs o s
  | .vmul o => Sys2Proof.Machine.execVmul o s
  | .vmulh o => Sys2Proof.Machine.execVmulh o s
  | .vmin o => Sys2Proof.Machine.execVmin o s
  | .vmax o => Sys2Proof.Machine.execVmax o s
  | .vabs o => Sys2Proof.Machine.execVabs o s
  | .vneg o => Sys2Proof.Machine.execVneg o s
  | .vand o => Sys2Proof.Machine.execVand o s
  | .vor o => Sys2Proof.Machine.execVor o s
  | .vxor o => Sys2Proof.Machine.execVxor o s
  | .vandn o => Sys2Proof.Machine.execVandn o s
  | .vshl o => Sys2Proof.Machine.execVshl o s
  | .vshr o => Sys2Proof.Machine.execVshr o s
  | .vsra o => Sys2Proof.Machine.execVsra o s
  | .vsel o => Sys2Proof.Machine.execVsel o s
  | .vcmpEq o => Sys2Proof.Machine.execVcmpEq o s
  | .vcmpNe o => Sys2Proof.Machine.execVcmpNe o s
  | .vcmpLt o => Sys2Proof.Machine.execVcmpLt o s
  | .vcmpLe o => Sys2Proof.Machine.execVcmpLe o s
  | .vavg o => Sys2Proof.Machine.execVavg o s
  | .vdot o => Sys2Proof.Machine.execVdot o s
  | .vfadd o => Sys2Proof.Machine.execVfadd o s
  | .vfsub o => Sys2Proof.Machine.execVfsub o s
  | .vfmul o => Sys2Proof.Machine.execVfmul o s
  | .vfma o => Sys2Proof.Machine.execVfma o s
  | .vfms o => Sys2Proof.Machine.execVfms o s
  | .vfmin o => Sys2Proof.Machine.execVfmin o s
  | .vfmax o => Sys2Proof.Machine.execVfmax o s
  | .vfabs o => Sys2Proof.Machine.execVfabs o s
  | .vfneg o => Sys2Proof.Machine.execVfneg o s
  | .vfcmpEq o => Sys2Proof.Machine.execVfcmpEq o s
  | .vfcmpLt o => Sys2Proof.Machine.execVfcmpLt o s
  | .vfcmpLe o => Sys2Proof.Machine.execVfcmpLe o s
  | .vfcmpUn o => Sys2Proof.Machine.execVfcmpUn o s
  | .vrcp o => Sys2Proof.Machine.execVrcp o s
  | .vrsq o => Sys2Proof.Machine.execVrsq o s
  | .vsqrt o => Sys2Proof.Machine.execVsqrt o s
  | .vexp2 o => Sys2Proof.Machine.execVexp2 o s
  | .vlog2 o => Sys2Proof.Machine.execVlog2 o s
  | .vcvt o => Sys2Proof.Machine.execVcvt o s
  | .vqnt o => Sys2Proof.Machine.execVqnt o s
  | .vplane o => Sys2Proof.Machine.execVplane o s
  | .vunplane o => Sys2Proof.Machine.execVunplane o s
  | .vmov o => Sys2Proof.Machine.execVmov o s
  | .vperm o => Sys2Proof.Machine.execVperm o s
  | .vcompress o => Sys2Proof.Machine.execVcompress o s
  | .vexpand o => Sys2Proof.Machine.execVexpand o s
  | .vzip o => Sys2Proof.Machine.execVzip o s
  | .vunzip o => Sys2Proof.Machine.execVunzip o s
  | .vslide o => Sys2Proof.Machine.execVslide o s
  | .vredadd o => Sys2Proof.Machine.execVredadd o s
  | .vredmin o => Sys2Proof.Machine.execVredmin o s
  | .vredmax o => Sys2Proof.Machine.execVredmax o s
  | .vbcast o => Sys2Proof.Machine.execVbcast o s
  | .vext o => Sys2Proof.Machine.execVext o s
  | .vins o => Sys2Proof.Machine.execVins o s
  | .vfredadd o => Sys2Proof.Machine.execVfredadd o s
  | .vfredmax o => Sys2Proof.Machine.execVfredmax o s
  | .vfredmin o => Sys2Proof.Machine.execVfredmin o s
  | .lnest o => Sys2Proof.Machine.execLnest o s
  | .send o => Sys2Proof.Machine.execSend o s
  | .sendk o => Sys2Proof.Machine.execSendk o s
  | .park o => Sys2Proof.Machine.execPark o s
  | .resume o => Sys2Proof.Machine.execResume o s
  | .tend o => Sys2Proof.Machine.execTend o s
  | .taskset o => Sys2Proof.Machine.execTaskset o s
  | .taskrd o => Sys2Proof.Machine.execTaskrd o s
  | .join o => Sys2Proof.Machine.execJoin o s
  | .leave o => Sys2Proof.Machine.execLeave o s
  | .gbar o => Sys2Proof.Machine.execGbar o s
  | .gmax o => Sys2Proof.Machine.execGmax o s
  | .nalloc o => Sys2Proof.Machine.execNalloc o s
  | .nkill o => Sys2Proof.Machine.execNkill o s
  | .link o => Sys2Proof.Machine.execLink o s
  | .relink o => Sys2Proof.Machine.execRelink o s
  | .nseal o => Sys2Proof.Machine.execNseal o s
  | .ntype o => Sys2Proof.Machine.execNtype o s
  | .tref o => Sys2Proof.Machine.execTref o s
  | .tdrop o => Sys2Proof.Machine.execTdrop o s
  | .wlinit o => Sys2Proof.Machine.execWlinit o s
  | .wlpush o => Sys2Proof.Machine.execWlpush o s
  | .wlinsu o => Sys2Proof.Machine.execWlinsu o s
  | .wlpopb o => Sys2Proof.Machine.execWlpopb o s
  | .wlcount o => Sys2Proof.Machine.execWlcount o s
  | .wldrain o => Sys2Proof.Machine.execWldrain o s
  | .copy o => Sys2Proof.Machine.execCopy o s
  | .copyr o => Sys2Proof.Machine.execCopyr o s
  | .waitany o => Sys2Proof.Machine.execWaitany o s
  | .waitall o => Sys2Proof.Machine.execWaitall o s
  | .tagff o => Sys2Proof.Machine.execTagff o s
  | .tagclr o => Sys2Proof.Machine.execTagclr o s
  | .subscribe o => Sys2Proof.Machine.execSubscribe o s
  | .unsub o => Sys2Proof.Machine.execUnsub o s
  | .ringpop o => Sys2Proof.Machine.execRingpop o s
  | .ringrel o => Sys2Proof.Machine.execRingrel o s
  | .gather o => Sys2Proof.Machine.execGather o s
  | .scatter o => Sys2Proof.Machine.execScatter o s
  | .mxmap o => Sys2Proof.Machine.execMxmap o s
  | .mxa o => Sys2Proof.Machine.execMxa o s
  | .mxb o => Sys2Proof.Machine.execMxb o s
  | .mxskip o => Sys2Proof.Machine.execMxskip o s
  | .mxrun o => Sys2Proof.Machine.execMxrun o s
  | .mxscale o => Sys2Proof.Machine.execMxscale o s
  | .mxsend o => Sys2Proof.Machine.execMxsend o s
  | .mxstat o => Sys2Proof.Machine.execMxstat o s
  | .mxcap o => Sys2Proof.Machine.execMxcap o s
  | .dxenc o => Sys2Proof.Machine.execDxenc o s
  | .dxdec o => Sys2Proof.Machine.execDxdec o s
  | .dxadd o => Sys2Proof.Machine.execDxadd o s
  | .dxsub o => Sys2Proof.Machine.execDxsub o s
  | .dxin o => Sys2Proof.Machine.execDxin o s
  | .dxnext o => Sys2Proof.Machine.execDxnext o s
  | .dxsplit o => Sys2Proof.Machine.execDxsplit o s
  | .dxlev o => Sys2Proof.Machine.execDxlev o s
  | .dxcell o => Sys2Proof.Machine.execDxcell o s
  | .dxcmp o => Sys2Proof.Machine.execDxcmp o s
  | .trap o => Sys2Proof.Machine.execTrap o s
  | .tret o => Sys2Proof.Machine.execTret o s
  | .csrr o => Sys2Proof.Machine.execCsrr o s
  | .csrw o => Sys2Proof.Machine.execCsrw o s
  | .csrx o => Sys2Proof.Machine.execCsrx o s
  | .csrs o => Sys2Proof.Machine.execCsrs o s
  | .csrc o => Sys2Proof.Machine.execCsrc o s
  | .brk o => Sys2Proof.Machine.execBrk o s
  | .jrnl o => Sys2Proof.Machine.execJrnl o s
  | .icinv o => Sys2Proof.Machine.execIcinv o s
  | .tlbinv o => Sys2Proof.Machine.execTlbinv o s
  | .repart o => Sys2Proof.Machine.execRepart o s
  | .killj o => Sys2Proof.Machine.execKillj o s
  | .cancelj o => Sys2Proof.Machine.execCancelj o s
  | .stcScanStep => Sys2Proof.Machine.execStcScanStep s
  | .lnestStep => Sys2Proof.Machine.execLnestStep s
  | .parkAtHome => Sys2Proof.Machine.execParkAtHome s
  | .resumeAtHome => Sys2Proof.Machine.execResumeAtHome s
  | .tasksetAtTarget => Sys2Proof.Machine.execTasksetAtTarget s
  | .groupArrival => Sys2Proof.Machine.execGroupArrival s
  | .nkillAtHome => Sys2Proof.Machine.execNkillAtHome s
  | .relinkAtHome => Sys2Proof.Machine.execRelinkAtHome s
  | .nsealAtHome => Sys2Proof.Machine.execNsealAtHome s
  | .netReady => Sys2Proof.Machine.execNetReady s
  | .pairEnqueueRetry => Sys2Proof.Machine.execPairEnqueueRetry s
  | .ligatureTakePair => Sys2Proof.Machine.execLigatureTakePair s
  | .netJoin => Sys2Proof.Machine.execNetJoin s
  | .netBind => Sys2Proof.Machine.execNetBind s
  | .netRedirect => Sys2Proof.Machine.execNetRedirect s
  | .netSettle => Sys2Proof.Machine.execNetSettle s
  | .wlinitAtHome => Sys2Proof.Machine.execWlinitAtHome s
  | .wlpushAtHome => Sys2Proof.Machine.execWlpushAtHome s
  | .wlinsuAtHome => Sys2Proof.Machine.execWlinsuAtHome s
  | .wlpopbAtHome => Sys2Proof.Machine.execWlpopbAtHome s
  | .wlPopRetry => Sys2Proof.Machine.execWlPopRetry s
  | .wlParkRequest => Sys2Proof.Machine.execWlParkRequest s
  | .wldrainAtHome => Sys2Proof.Machine.execWldrainAtHome s
  | .wlSpillMove => Sys2Proof.Machine.execWlSpillMove s
  | .tagWaitRetest => Sys2Proof.Machine.execTagWaitRetest s
  | .engineCommandLeave => Sys2Proof.Machine.execEngineCommandLeave s
  | .copyChunk => Sys2Proof.Machine.execCopyChunk s
  | .subscriptionStart => Sys2Proof.Machine.execSubscriptionStart s
  | .feedTilePlace => Sys2Proof.Machine.execFeedTilePlace s
  | .feedRelease => Sys2Proof.Machine.execFeedRelease s
  | .unsubArrive => Sys2Proof.Machine.execUnsubArrive s
  | .gatherWindow => Sys2Proof.Machine.execGatherWindow s
  | .gatherSystemSwitch => Sys2Proof.Machine.execGatherSystemSwitch s
  | .mxmapTableStep => Sys2Proof.Machine.execMxmapTableStep s
  | .mxscaleStep => Sys2Proof.Machine.execMxscaleStep s
  | .mxmapPerform => Sys2Proof.Machine.execMxmapPerform s
  | .mxbPerform => Sys2Proof.Machine.execMxbPerform s
  | .mxaPerform => Sys2Proof.Machine.execMxaPerform s
  | .mxrunPerform => Sys2Proof.Machine.execMxrunPerform s
  | .mxCommandWindow => Sys2Proof.Machine.execMxCommandWindow s
  | .mxEngineFail => Sys2Proof.Machine.execMxEngineFail s
  | .repartApply => Sys2Proof.Machine.execRepartApply s
  | .killjComplete => Sys2Proof.Machine.execKilljComplete s
  | .cancelArrive => Sys2Proof.Machine.execCancelArrive s
  | .canceljComplete => Sys2Proof.Machine.execCanceljComplete s
  | .invalidateComplete => Sys2Proof.Machine.execInvalidateComplete s
  | .longResultReturn => Sys2Proof.Machine.execLongResultReturn s
  | .fallibleOpFault => Sys2Proof.Machine.execFallibleOpFault s
  | .markerWaitEnd => Sys2Proof.Machine.execMarkerWaitEnd s
  | .journalLeave => Sys2Proof.Machine.execJournalLeave s
  | .journalAccept => Sys2Proof.Machine.execJournalAccept s
  | .journalRefuse => Sys2Proof.Machine.execJournalRefuse s
  | .homeAccess => Sys2Proof.Machine.execHomeAccess s
  | .markClear => Sys2Proof.Machine.execMarkClear s
  | .implicitReleaseRequest => Sys2Proof.Machine.execImplicitReleaseRequest s
  | .feRetry => Sys2Proof.Machine.execFeRetry s
  | .feParkRequest => Sys2Proof.Machine.execFeParkRequest s
  | .feNoRoom => Sys2Proof.Machine.execFeNoRoom s
  | .feWake => Sys2Proof.Machine.execFeWake s
  | .poolRetry => Sys2Proof.Machine.execPoolRetry s
  | .messageArrive => Sys2Proof.Machine.execMessageArrive s
  | .messageRetry => Sys2Proof.Machine.execMessageRetry s
  | .dispatchMessage => Sys2Proof.Machine.execDispatchMessage s
  | .dispatchRecreation => Sys2Proof.Machine.execDispatchRecreation s
  | .dispatchWake => Sys2Proof.Machine.execDispatchWake s
  | .watchdog => Sys2Proof.Machine.execWatchdog s
  | .preempt => Sys2Proof.Machine.execPreempt s
  | .continuationResultFill => Sys2Proof.Machine.execContinuationResultFill s
  | .icacheFill => Sys2Proof.Machine.execIcacheFill s
  | .codePageVerify => Sys2Proof.Machine.execCodePageVerify s
  | .pageWalk => Sys2Proof.Machine.execPageWalk s
  | .walkerGrant => Sys2Proof.Machine.execWalkerGrant s
  | .csrWrite => Sys2Proof.Machine.execCsrWrite s
  | .fcsrWrite => Sys2Proof.Machine.execFcsrWrite s
  | .rndseedWrite => Sys2Proof.Machine.execRndseedWrite s
  | .loopCsrWrite => Sys2Proof.Machine.execLoopCsrWrite s
  | .tagsWrite => Sys2Proof.Machine.execTagsWrite s
  | .ptrootWrite => Sys2Proof.Machine.execPtrootWrite s
  | .jobgenGen => Sys2Proof.Machine.execJobgenGen s
  | .jobgenFree => Sys2Proof.Machine.execJobgenFree s
  | .capkeyWrite => Sys2Proof.Machine.execCapkeyWrite s
  | .thaw => Sys2Proof.Machine.execThaw s
  | .quiesce => Sys2Proof.Machine.execQuiesce s
  | .switchOut => Sys2Proof.Machine.execSwitchOut s
  | .switchIn => Sys2Proof.Machine.execSwitchIn s
  | .releaseJob => Sys2Proof.Machine.execReleaseJob s
  | .abortSwitch => Sys2Proof.Machine.execAbortSwitch s
  | .holdArrive => Sys2Proof.Machine.execHoldArrive s
  | .quiesced => Sys2Proof.Machine.execQuiesced s
  | .switchOutSaveDone => Sys2Proof.Machine.execSwitchOutSaveDone s
  | .inboxDeliver => Sys2Proof.Machine.execInboxDeliver s
  | .attachRing => Sys2Proof.Machine.execAttachRing s
  | .hostReply => Sys2Proof.Machine.execHostReply s
  | .openStream => Sys2Proof.Machine.execOpenStream s
  | .closeStream => Sys2Proof.Machine.execCloseStream s
  | .ckpt => Sys2Proof.Machine.execCkpt s
  | .freeEntry => Sys2Proof.Machine.execFreeEntry s
  | .hostStatus => Sys2Proof.Machine.execHostStatus s
  | .hostPower => Sys2Proof.Machine.execHostPower s
  | .creset => Sys2Proof.Machine.execCreset s
  | .hostQuote => Sys2Proof.Machine.execHostQuote s
  | .fwload => Sys2Proof.Machine.execFwload s
  | .hostLaunch => Sys2Proof.Machine.execHostLaunch s
  | .hostCancel => Sys2Proof.Machine.execHostCancel s
  | .hostKill => Sys2Proof.Machine.execHostKill s
  | .hostCheckpoint => Sys2Proof.Machine.execHostCheckpoint s
  | .liferead => Sys2Proof.Machine.execLiferead s
  | .islreset => Sys2Proof.Machine.execIslreset s
  | .hostDomain => Sys2Proof.Machine.execHostDomain s
  | .rmaWrite => Sys2Proof.Machine.execRmaWrite s
  | .rmaRead => Sys2Proof.Machine.execRmaRead s
  | .peerRequest => Sys2Proof.Machine.execPeerRequest s
  | .islandPowerGood => Sys2Proof.Machine.execIslandPowerGood s
  | .islandBootDone => Sys2Proof.Machine.execIslandBootDone s
  | .drainEnd => Sys2Proof.Machine.execDrainEnd s
  | .islandRailLoss => Sys2Proof.Machine.execIslandRailLoss s
  | .heartbeatTimeout => Sys2Proof.Machine.execHeartbeatTimeout s
  | .linkResend => Sys2Proof.Machine.execLinkResend s
  | .spareLaneSwitch => Sys2Proof.Machine.execSpareLaneSwitch s
  | .ingestPacket => Sys2Proof.Machine.execIngestPacket s
  | .frameDeadline => Sys2Proof.Machine.execFrameDeadline s
  | .emptyFrame => Sys2Proof.Machine.execEmptyFrame s
  | .checkpointDone => Sys2Proof.Machine.execCheckpointDone s
  | .contextLostRecord => Sys2Proof.Machine.execContextLostRecord s
  | .patrolScrub => Sys2Proof.Machine.execPatrolScrub s
  | .lateEdgeWindow => Sys2Proof.Machine.execLateEdgeWindow s
  | .thermalTrip => Sys2Proof.Machine.execThermalTrip s
  | .lifeFlush => Sys2Proof.Machine.execLifeFlush s
  | .unassignedEncoding => Sys2Proof.Machine.execUnassignedEncoding s
  | .linkUp => Sys2Proof.Machine.execLinkUp s
  | .linkDown => Sys2Proof.Machine.execLinkDown s
  | .computeRailFault => Sys2Proof.Machine.execComputeRailFault s
  | .unsupportedOperation => Sys2Proof.Machine.execUnsupportedOperation s
  | .lifeMinute => Sys2Proof.Machine.execLifeMinute s

end Sys2Proof.Machine
end

