-- ==== Sys2Proof/Machine/Tick.lean ====
section
/-!
DEFINITION. The order of steps (log entry 1): the steps that are due, the slots of the cycle, and the turn to the next cycle with its dispatches
(R9, R186); and the placing of one instruction where the machine fetches next.
-/
namespace Sys2Proof.Machine

open Sys2Proof

/-! ## Steps that are due -/

/-- The first step of the agenda that is due in a cycle and has no step of its path before it, and the agenda without it; `seen` are the paths
of the steps before. -/
def firstDue (now : Nat) (seen : List Path) : List Due → Option (Due × List Due)
  | [] => none
  | d :: r =>
    let blocked := match d.path with
      | none => false
      | some p => seen.contains p
    if d.time ≤ now ∧ !blocked then some (d, r)
    else
      match firstDue now (d.path.toList ++ seen) r with
      | none => none
      | some (x, r') => some (x, d :: r')

/-! ## Cycles -/

/-- The cores with a context that is not FREE, rising. -/
def State.busyCores (s : State) : List Nat :=
  (s.ctxs.foldl (fun (l : List Nat) p => if p.2.st == .free then l else nset l (p.1 / 16) true) [])

/-- The step of a dispatch for a ring entry. -/
def RingEntry.dispatch (e : RingEntry) : Instr :=
  match e.body with
  | .start _ _ _ => .dispatchMessage
  | .recreate _ => .dispatchRecreation
  | .wake _ _ => .dispatchWake

/-- The dispatcher of a core (R186): at most one dispatch in a cycle, of the best ready entry, when a context can take it. -/
def State.dispatchCore (s : State) (core : Nat) : State :=
  let co := s.core core
  let die := s.die (dieOf core)
  if co.held || co.repart.isSome || die == .off || die == .reset then s
  else
    match s.bestEntry core co.ring with
    | none => s
    | some (i, e) => if (s.chooseCtx core e).isSome then s.later 0 none e.dispatch (.pair core i) else s

/-- The next cycle: its dispatches, and the slots of every core with a thread. -/
def State.tick (s : State) : State :=
  let s := { s with cycle := s.cycle + 1 }
  let s := s.cores.foldl (fun s p => if p.2.ring.isEmpty then s else s.dispatchCore p.1) s
  { s with slots := s.busyCores }

/-! ## One step -/

/-- What a slot does, performed. -/
def State.doAct (s : State) : Act → Out
  | .bubble => .next s
  | .go t => .next t
  | .event what arg => exec what { s with arg := arg }
  | .run i t => exec i t

/-- One step: a step of the agenda that is due; else the next slot of the cycle; else the next cycle. -/
def State.oneStep (s : State) : Out :=
  match firstDue s.cycle [] s.agenda with
  | some (d, rest) => exec d.what { s with agenda := rest, arg := d.arg }
  | none =>
    match s.slots with
    | core :: r =>
      let c := s.slotCtx core
      let t := { s with slots := r, cur := c }.atSlot c
      let a := t.slotAct core
      t.endSlot c a (t.doAct a)
    | [] => .next s.tick

/-! ## Placing an instruction -/

/-- The context (0, k) whose slot comes in this cycle, RUNNING with nothing under way. -/
def Ctx.ready (x : Ctx) (thread cycle : Nat) : Ctx :=
  { x with st := .running, busy := .idle, notBefore := 0, since := cycle, watched := 0, thread := thread, loopcnt := 0,
           pc := if bits x.pc 63 48 = 0 ∧ x.pc.toNat + 64 < 2 ^ 48 then x.pc else 0 }

/-- The words stand in the lines of cluster 0's instruction cache at the program counter of core 0's context of this cycle; nothing else is
due (log entry 1). -/
def State.placeWord (s : State) (nbits w : Nat) : State :=
  let c := s.slotCtx 0
  let x := (s.ctx c).ready s.nextThread s.cycle
  let job := s.jobOf 0
  let gen := (s.core 0).gen
  let line := x.pc.toNat / 64
  let ws := List.replicate (x.pc.toNat % 64 / 4) 0 ++ tableWords (w % 2 ^ nbits) ++ List.replicate 31 0
  let cl := s.cluster 0
  let s := s.setCluster 0 { cl with icache :=
    ({ job := job, gen := gen, line := line, words := ws.take 16 } : ILine) ::
    { job := job, gen := gen, line := line + 1, words := (ws.drop 16).take 16 } :: cl.icache }
  { (s.setCtx c x).setDie 0 .run with
    slots := [0], nextThread := s.nextThread + 1, agenda := s.agenda.filter fun d => decide (s.cycle < d.time) }

end Sys2Proof.Machine
end

