-- ==== Sys2Proof/Machine/Step.lean ====
section
/-!
DEFINITION. The step function, and the placing of one instruction where it fetches next.
-/
namespace Sys2Proof.Machine

open Sys2Proof

/-- One step of the machine (`State.oneStep`). -/
def step (s : State) : Host.Outcome State Fault Refusal := s.oneStep

/-- The state with an instruction of the opcode table, its bits numbered as the table numbers them, where `step` fetches next. -/
def State.withFetchWord (s : State) (nbits w : Nat) : State := s.placeWord nbits w

end Sys2Proof.Machine
end

