-- ==== Sys2Proof/Safety.lean ====
section
/-!
DEFINITION. What counts as a good state and as an instruction that may take its effect, in the terms that the statements use: the canonical form
of memory and of the machine's other indexed data, the conditions of R54 under which an instruction executes, and what a state keeps of another.
-/
namespace Sys2Proof.Machine

open Sys2Proof

/-! ## Canonical data -/

/-- Memory in its canonical form: locations strictly rising, and no entry 0, which is what an unlisted location reads as (log entry 3). -/
def Memory.wf (m : List Host.Cell) : Bool := mwf (fun _ => 0#8) m

/-- Indexes strictly rising from `lo` on. -/
def risingFrom {α : Type} : Nat → Map α → Bool
  | _, [] => true
  | lo, (j, _) :: r => decide (lo ≤ j) && risingFrom (j + 1) r

/-- Indexed data with strictly rising indexes, so that no index is listed twice. -/
def rising {α : Type} (m : Map α) : Bool := risingFrom 0 m

/-- The machine's data are in canonical form: memory, contexts, cores, clusters, dies and jobs. -/
structure State.Ok (s : State) : Prop where
  mem : Memory.wf s.mem = true
  ctxs : rising s.ctxs = true
  cores : rising s.cores = true
  clusters : rising s.clusters = true
  dies : rising s.dies = true
  jobs : rising s.jobs = true

/-! ## When an instruction takes its effect (R45, R46, R54) -/

/-- No check of R54 stops the instruction of the current context: where it waits as R46 states, nothing is outstanding and no fault of an earlier
operation is to be reported, and no register that it names lies beyond its class or is pending. -/
structure State.Ready (s : State) (waits : Bool) (regs : List Reg) : Prop where
  settled : waits = true → s.outstanding s.cur = false
  noFault : waits = true → (s.ctx s.cur).faultTrap = none
  regs : regTrap (s.core s.cur.core).partword (s.ctx s.cur) regs = none

/-- The context whose instruction is executed. -/
def State.now (s : State) : Ctx := s.ctx s.cur

/-- The state in which the current context has changed by `f` and has gone on to its next instruction. -/
def State.after (s : State) (f : Ctx → Ctx) : State := s.setCtx s.cur ((f s.now).advance 1)

/-- A long operation of the current context that has been issued (R43, R44): its destination is pending, and the result and its flags stand in
an operation that returns them after `lat` cycles; RNDSEED holds `sd` from the issue on (R85). -/
def State.longAfter (s : State) (i : Instr) (dst : Reg) (v : Vec) (lat : Nat) (fl : BitVec 9) (sd : BitVec 32) : State :=
  (s.setCtx s.cur { s.now with rndseed := sd }).longResult s.cur (firstWord i) dst v lat fl

/-- The state of the stochastic generator after a number of steps (R87). -/
def seedAfter : Nat → BitVec 32 → BitVec 32
  | 0, sd => sd
  | n + 1, sd => seedAfter n (seedStep sd)

/-! ## What is kept -/

/-- Every byte of memory reads as before. -/
def State.sameMemory (s t : State) : Prop := ∀ loc, t.byte loc = s.byte loc

/-- Nothing but the contexts has changed. -/
def State.onlyCtxs (s t : State) : Prop := t = { s with ctxs := t.ctxs }

/-- Every other context is as before. -/
def State.otherCtxs (s t : State) (c : CtxId) : Prop := ∀ d, ctxKey d ≠ ctxKey c → t.ctx d = s.ctx d

/-- A context that agrees with another in everything but its scalar registers and what going on changes: the program counter, the loop count
and the loop buffer, and the marks of a handler's, a resumed, a waiting or a released instruction. -/
def Ctx.sameButG (x y : Ctx) : Prop :=
  y = { x with g := y.g, pc := y.pc, loopcnt := y.loopcnt, loopbuf := y.loopbuf, handlerFirst := y.handlerFirst, resumed := y.resumed,
               blocked := y.blocked, released := y.released }

/-- The same for vector registers and the flags of FCSR. -/
def Ctx.sameButV (x y : Ctx) : Prop :=
  y = { x with v := y.v, fcsr := y.fcsr, pc := y.pc, loopcnt := y.loopcnt, loopbuf := y.loopbuf, handlerFirst := y.handlerFirst,
               resumed := y.resumed, blocked := y.blocked, released := y.released }

/-- The same for mask registers and the flags of FCSR. -/
def Ctx.sameButM (x y : Ctx) : Prop :=
  y = { x with m := y.m, fcsr := y.fcsr, pc := y.pc, loopcnt := y.loopcnt, loopbuf := y.loopbuf, handlerFirst := y.handlerFirst,
               resumed := y.resumed, blocked := y.blocked, released := y.released }

/-! ## Operations -/

/-- No operation of the current context's thread is outstanding. -/
def State.noneOut (s : State) : Prop := ∀ p ∈ s.ops, p.thread ≠ s.now.thread

/-- The plain access of the current context to `n` bytes finds no conflicting mark and room for its own (R158-R161). -/
def State.marksAllow (s : State) (write : Bool) (loc n : Nat) : Prop :=
  ∃ t k, s.markLines ⟨none, s.cur⟩ s.now.region write (s.markable loc n) = (.ok t, k)

/-- The current context has issued an operation that is still to be performed: it stands among the outstanding ones under the next
identifier, no byte and no other context has changed, and its own has gone on with the destination pending. -/
structure State.Issued (s t : State) (b : OpBody) (addr : Word) (dst : Option Reg) : Prop where
  op : ∃ q ∈ t.ops, q.id = s.nextId ∧ q.ctx = s.cur ∧ q.thread = s.now.thread ∧ q.addr = addr ∧ q.body = b ∧ q.dst = dst ∧ q.performed = false
  others : ∀ p ∈ s.ops, p.id ≠ s.nextId → p ∈ t.ops
  bytes : s.sameMemory t
  ctxs : s.otherCtxs t s.cur
  went : rising s.ctxs = true → ∃ n, t.ctx s.cur = ({ s.now with region := n }.pendDst dst).advance 1

/-- The current context has issued an operation that is performed at once: memory holds the bytes and the full/empty bits of `u`, and the
value returns after 5 cycles (R149). -/
structure State.Performed (s t u : State) (v : Vec) (dst : Option Reg) : Prop where
  bytes : u.sameMemory t
  full : ∀ loc, t.full loc = u.full loc
  op : ∃ q ∈ t.ops, q.id = s.nextId ∧ q.ctx = s.cur ∧ q.thread = s.now.thread ∧ q.body = .result v 0 ∧ q.dst = dst ∧ q.performed = true
  due : ⟨s.cycle + 5, none, .longResultReturn, .answer s.nextId none⟩ ∈ t.agenda
  ctxs : s.otherCtxs t s.cur
  went : rising s.ctxs = true → ∃ n, t.ctx s.cur = ({ s.now with region := n }.pendDst dst).advance 1

/-- A store of the current context has been performed at once: memory holds the bytes and the full/empty bits of `u`, nothing is left
outstanding, and the context has gone on. -/
structure State.Stored (s t u : State) : Prop where
  bytes : u.sameMemory t
  full : ∀ loc, t.full loc = u.full loc
  ops : t.ops = s.ops
  ctxs : s.otherCtxs t s.cur
  went : rising s.ctxs = true → ∃ n, t.ctx s.cur = { s.now with region := n }.advance 1

/-- The home of an operation has performed it: memory holds the bytes and the full/empty bits of `u`, and the value is on its way. -/
structure State.Answered (s t u : State) (o : Op) (v : Vec) : Prop where
  bytes : u.sameMemory t
  full : ∀ loc, t.full loc = u.full loc
  op : t.op o.id = some { o with performed := true, body := .result v 0 }
  due : ∃ n p, ⟨n, some p, .longResultReturn, .answer o.id none⟩ ∈ t.agenda ∧ p.plane = planeResponse
  ctxs : t.ctxs = s.ctxs

/-- The operation that the event acts on stands at its home on this device, with its location, unhindered: it is not performed or refused,
its home operates, its stamp is accepted, no area of the machine and no retired granule keeps it away, and no poisoned word is consumed. -/
structure State.AtHome (s : State) (o : Op) (loc : Nat) : Prop where
  arg : s.arg = .num o.id
  op : s.op o.id = some o
  waiting : o.performed = false ∧ o.reason = 0 ∧ o.mx = false ∧ o.left = true
  place : o.loc = some loc
  here : loc < 2 ^ 60
  runs : s.homeDown loc = false
  stamp : s.stampOk o.job o.gen = true
  window : ¬ (2 ^ 42 ≤ loc ∧ 0x1FFF00 ≤ (loc - 2 ^ 42) % 2 ^ 21)
  allowed : s.locProtected o.job loc o.body.size = false ∧ s.granuleRetired loc o.body.size = false
  sound : s.consumed o.body loc o.body.size = none
  job : o.job ≠ 0

/-- A context to which the result of a long operation has returned (R43, R90): the register is written and no longer pending, and the flags
are set. -/
def Ctx.delivered (x : Ctx) (dst : Option Reg) (v : Vec) (fl : BitVec 9) : Ctx :=
  { (match dst with
      | some r => (x.setReg r v).clearPend r
      | none => x) with fcsr := x.fcsr ||| fl }

/-- The operation that an event acts on, of a thread that holds its context. -/
structure State.Live (s : State) (id : Nat) (o : Op) : Prop where
  op : s.op id = some o
  record : o.record = none
  thread : (s.ctx o.ctx).thread = o.thread
  first : o.replay = false

/-- An operation of the current context stands among the outstanding ones; no byte and no other context has changed, and its own has gone on. -/
structure State.Sent (s t : State) (b : OpBody) (addr : Word) : Prop where
  op : ∃ q ∈ t.ops, q.id = s.nextId ∧ q.ctx = s.cur ∧ q.addr = addr ∧ q.body = b ∧ q.performed = false
  bytes : s.sameMemory t
  ctxs : s.otherCtxs t s.cur
  went : rising s.ctxs = true → (t.ctx s.cur).pc = (s.now.advance 1).pc ∧ (t.ctx s.cur).g = s.now.g

/-- An engine command of the current context stands in its core's queue with its words (R230), and the tag that it names is owned, with both
of its bits clear (R231). -/
structure State.Commanded (s t : State) (kind : CmdKind) (words : List Word) (tag : Option Nat) : Prop where
  op : ∃ q ∈ t.ops, ∃ c : Cmd, q.id = s.nextId ∧ q.body = .command c ∧ c.kind = kind ∧ c.words = words ∧ c.ctx = s.cur ∧
    (rising s.cores = true → c.job = s.jobOf s.cur.core)
  bytes : s.sameMemory t
  ctxs : s.otherCtxs t s.cur
  went : rising s.ctxs = true → (t.ctx s.cur).pc = (s.now.advance 1).pc ∧ (t.ctx s.cur).g = s.now.g
  tag : rising s.cores = true → ∀ n, tag = some n → n < 64 →
    let co := t.core s.cur.core
    bit co.owned n = true ∧ bit co.tags n = false ∧ bit co.tagfault n = false

/-- The operation that an event performs at the home of a list (R283): its stamp is accepted, and it names the descriptor at an offset of a
core's pool. -/
structure State.AtList (s : State) (o : Op) (core desc : Nat) : Prop where
  arg : s.arg = .num o.id
  op : s.op o.id = some o
  stamp : s.stampOk o.job o.gen = true
  home : o.listHome = (core, desc)
  entry : o.jidx = none
  plain : desc ≠ pairDesc
  rising : rising s.cores = true

/-- The island takes a command of a host (R338, R348, R350): it carries traffic, no Send of a host has been turned away and the next entry of
the command ring is free, and the Send is of the command's code and well formed. -/
structure State.Serves (s : State) (h : HostReq) (code : Nat) : Prop where
  arg : s.arg = .host h
  island : s.island.st = .forward ∨ s.island.st = .full
  turned : s.island.refused = []
  room : s.ringBusy = false
  code : hostCode h = code
  form : bits (hostWord h) 15 8 = 0 ∧ bits (hostWord h) 31 16 = (hostBody h).length ∧ (hostBody h).length ≤ 65520

/-- The same for a command of the monitor class, which leaves the state `u` in which its Send stands in the ring and the monitor is told. -/
structure State.Rings (s u : State) (h : HostReq) (code : Nat) : Prop where
  serves : s.Serves h code
  full : s.island.st = .full
  monitor : (s.monitorFor 0).isSome = true
  ring : s.toRing h = .ok u

/-- The event acts on a command at a window (R349): a store that holds it, with its two words. -/
structure State.AtWindow (s : State) (o : Op) (d0 d1 : Word) : Prop where
  arg : s.arg = .num o.id
  op : s.op o.id = some o
  words : o.data0 = d0 ∧ o.data1 = d1
  record : d1.toNat + 64 ≤ Config.hbmBytes

end Sys2Proof.Machine
end

