-- ==== Sys2Proof/Certificates/Slice0/Obligations.lean ====
section
/-!
DEFINITION. The statements to be proved, family by family.
-/
open Sys2Proof Sys2Proof.Machine

/-- Decoding the words of a well-formed instruction gives the instruction back, with every operand, whatever its value (R31-R53). -/
def Obligations.Decode_gives_back_what_encode_made : Prop :=
  ∀ i : Instr, wellFormed i = true → encode i ≠ [] → decode (encode i) = .ok i

/-- What decodes is well formed, and its encoding is the words that were decoded: no bit outside the fields of an instruction is accepted (R53). -/
def Obligations.Decode_accepts_only_encodings : Prop :=
  ∀ (ws : List IWord) (i : Instr), decode ws = .ok i → wellFormed i = true ∧ encode i = ws

/-- Words written out from the encoding tables of R34 to R50 decode to the instructions that they stand for: one for each format, NOP by the code
that R53 gives, and the all-zero word, which is unassigned. -/
def Obligations.Decode_reads_written_words : Prop :=
  decode [0b0_000000_000011_000001_000010_0000001#32] = .ok (.add ⟨false, 3, 1, 2⟩) ∧
  decode [0b1_000001_000101_000100_1111111111111#32] = .ok (.addi ⟨true, 5, 4, 0x1FFF⟩) ∧
  decode [0b0_010000_1111111111111111111111110#32] = .ok (.branch ⟨false, 0x1FFFFFE⟩) ∧
  decode [0b0_010010_000111_0000000000000000011#32] = .ok (.bz ⟨false, 7, 3⟩) ∧
  decode [0b0_010100_001_010_0000000000000000100#32] = .ok (.bmAll ⟨false, 2, 4⟩) ∧
  decode [0b0_011000_000011_000001_01_011_00000010#32] = .ok (.ld ⟨false, 3, 1, .acquire, .b8, 2⟩) ∧
  decode [0b0_101110_000001_000010_000000_0000001#32] = .ok (.send ⟨false, 1, 2⟩) ∧
  decode [0b0_100010_00011_00001_00010_101_0010_000#32] = .ok (.vadd ⟨false, 3, 1, 2, 5, .s32⟩) ∧
  decode [0b0_101001_00011_000001_0010_000_0001_001#32] = .ok (.vext ⟨false, 3, 1, 2, .s16⟩) ∧
  decode [0b0_111110_000011_000000_000000_0000001#32, 0xFFFFFFFF#32] = .ok (.li ⟨false, 3, 0xFFFFFFFF⟩) ∧
  decode [0x7E4D21C0#32, 0xC0100400#32, 0x20F#32, 0x188#32, 0#32, 0#32, 0#32, 0x2061C000#32] =
    .ok (.lnest ⟨false, .rdot, .f32, 0, 7, 0, 0, 0, 8, 6, 7, [⟨63, 1, 1, 0⟩, ⟨3, 64, 0, 1⟩]⟩) ∧
  decode [0x2A000005#32] = .ok (.nop ⟨false⟩) ∧
  decode [0#32] = .unassigned 0

/-- A step runs the instruction that its context fetches: nothing on the agenda is due, the core's slot comes, its die is in RUN, the context is
RUNNING with nothing under way, no asynchronous trap is due, the words at the program counter decode, and the body of an active loop allows the
instruction. The words are captured for the loop buffer (R72); all else is the meaning of the instruction, and, where the slot turns out to be a
bubble in which the context entered a wait, a step of the core's lowest-numbered running nest (R116). What the slot finds before it acts changes
nothing but for the monitor's handler of a FROZEN context that has itself trapped (R129, log entry 106). -/
def Obligations.Step_runs_decoded_instruction : Prop :=
  ∀ (s : State) (core : Nat) (r : List Nat) (w : IWord) (ws : List IWord) (i : Instr),
    let c := s.slotCtx core
    let u : State := { s with slots := r, cur := c }
    let t := u.atSlot c
    let v := t.setCtx c ((t.ctx c).capture (t.ctx c).pc (w :: ws))
    firstDue s.cycle [] s.agenda = none → s.slots = core :: r → t.slotCtx core = c →
    t.die (dieOf core) = .run → (t.ctx c).st = .running → (t.ctx c).busy = .idle → (t.ctx c).notBefore ≤ t.cycle →
    t.icinvOut c = false → t.asyncDue c = none → t.fetch c = .words (w :: ws) → decode (w :: ws) = .ok i →
    (t.ctx c).loopTrap i w (ws.length + 1) = none →
    step s = t.endSlot c (.run i v) (exec i v) ∧
    ((u.ctx c).handling = none → t = u) ∧
    (∀ x, exec i v = .next x →
      ((x.ctx c).st = .running ∨ (x.ctx c).st = .free ∨ (x.ctx c).st = .frozen ∨ x.nestCtx core = none → step s = .next x) ∧
      (∀ d, (x.ctx c).st = .marker → (x.ctx c).busy = .idle → x.nestCtx core = some d → step s = .next (x.later 0 none .lnestStep (.ctx d))))

/-- Words that do not decode raise UNASSIGNED_ENCODING's exact ILLEGAL trap in the step that fetched them: TRAPVAL is the first word, TRAPINFO the
index of the first offending word (R53). The order of a step is the model's choice (log entry 1): what is due on the agenda comes first, loaded with
its operand; with no slot left the machine turns to the next cycle. -/
def Obligations.Step_order_of_work : Prop :=
  (∀ (s : State) (core : Nat) (r : List Nat) (w : IWord) (ws : List IWord) (k : Nat),
     let c := s.slotCtx core
     let t : State := { s with slots := r, cur := c }
     firstDue s.cycle [] s.agenda = none → s.slots = core :: r → (t.ctx c).handling = none → rising s.ctxs = true →
     t.die (dieOf core) = .run → (t.ctx c).st = .running → (t.ctx c).busy = .idle → (t.ctx c).notBefore ≤ t.cycle →
     t.icinvOut c = false → t.asyncDue c = none → t.fetch c = .words (w :: ws) → decode (w :: ws) = .unassigned k →
     t.outstanding c = false → (t.ctx c).faultTrap = none →
     step s = .next (State.takeTrap { t with arg := .word w k } c (exact cIllegal (w.zeroExtend 64) (word k)))) ∧
  ((∀ (s : State) (d : Due) (rest : List Due), firstDue s.cycle [] s.agenda = some (d, rest) →
     step s = exec d.what { s with agenda := rest, arg := d.arg }) ∧
   (∀ s : State, firstDue s.cycle [] s.agenda = none → s.slots = [] → ∃ t, step s = .next t ∧ t.cycle = s.cycle + 1))

/-- Every step keeps six tables of the machine's data canonical: memory without a listed zero and with rising locations, and the tables of contexts,
cores, clusters, dies and jobs with rising indexes. -/
def Obligations.Step_keeps_canonical_data : Prop :=
  ∀ s t : State, s.Ok → step s = .next t → t.Ok

/-- The state after reset is canonical. -/
def Obligations.Reset_is_canonical : Prop :=
  State.reset.Ok

/-- The state right after device reset: the generation of every job number is 0 and its PTROOT 0 (R133), job 0 is live and every other number free,
CYCLE counts from 0 (R132), the monitor cores belong to job 0, BLK of their channels is 1 (R175), no context holds a thread, every register, vector
and mask reads as zero, and RNDSEED is as R28 gives it. That the dies are in RUN, that no other core has a job, that TAGS and TAGFAULT are 0 and that
the rest of memory reads as 0 are the model's choices (log entries 2, 3 and 4). -/
def Obligations.Reset_values : Prop :=
  let s := State.reset
  s.cycle = 0 ∧
  (∀ n, (s.job n).gen = 0 ∧ (s.job n).ptroot = 0 ∧ (s.job n).st = if n = 0 then .live else .free) ∧
  (∀ c, (s.core c).owner = if isMonitor c then some 0 else none) ∧
  (∀ c, (s.core c).tags = 0 ∧ (s.core c).tagfault = 0) ∧
  (∀ d, s.die d = .run) ∧
  (∀ c : CtxId, (s.ctx c).st = .free ∧ (∀ n, (s.ctx c).getG n = 0) ∧ (∀ n, (s.ctx c).getV n = 0) ∧ (∀ n, n ≠ 0 → (s.ctx c).getM n = 0) ∧
    (s.ctx c).loopcnt = 0 ∧ (s.ctx c).fcsr = 0 ∧ (s.ctx c).intrap = false ∧ (s.ctx c).rndseed = seedOf c.core c.k) ∧
  (∀ core ch, isMonitor core = true → ch < 64 → s.taskBlk core ch = true ∧ s.taskEntry core ch = 0) ∧
  (∀ loc, (∀ core ch, isMonitor core = true → ch < 64 → loc ≠ taskLoc core ch 1) → s.byte loc = 0)

/-- An instruction of the RR family raises a trap before any effect when it names a register that its class lacks, or else a register whose pending
bit is set: the first in the order D, A, B, with its number in TRAPVAL and 0 for a scalar register in TRAPINFO (R13, R45). With nothing outstanding the
trap is taken in this slot. A pending bit comes with the long operation that will clear it, so the case that runs reach is the other one: the
context enters MARKER with the trap kept, and takes it when nothing is outstanding (R46, R54). Any instruction whose S bit is 1 waits in MARKER while
a long operation of its thread is outstanding, with nothing else done (R46). So do the instructions that always wait, whatever their S bit holds
(TRAP and BRK among them by log entry 97). -/
def Obligations.Checks_before_the_effect : Prop :=
  ((∀ (s : State) (regs : List Reg) (t : Trap),
     let named : Prop :=
       (∃ r, regs.find? (Reg.beyond (s.core s.cur.core).partword) = some r ∧ t = exact cRegAllot (word r.num) 0) ∨
       (regs.find? (Reg.beyond (s.core s.cur.core).partword) = none ∧
        ∃ r, regs.find? (fun r => s.now.pend.contains r) = some r ∧ t = exact cPending (word r.num) 0)
     let goes (w : Bool) : Prop := w = true → s.outstanding s.cur = false ∧ s.now.faultTrap = none
     (∀ o : R3, regs = [gr o.d, gr o.a, gr o.b] → named → goes o.s →
       ∀ i ∈ [Instr.add o, .sub o, .andR o, .orR o, .xorR o, .andn o, .shl o, .shr o, .sra o, .rol o, .minS o, .minN o, .maxS o, .maxN o,
              .mul o, .mulhS o, .mulhN o, .divS o, .divN o, .remS o, .remN o, .sel o, .sext o, .zext o, .bfx o, .bfi o,
              .cmpEq o, .cmpNe o, .cmpLt o, .cmpGe o, .cmpLtn o, .cmpGen o, .xyadd o], exec i s = .next (s.raise s.cur t)) ∧
     (∀ o : R2, regs = [gr o.d, gr o.a] → named → goes o.s →
       ∀ i ∈ [Instr.clz o, .ctz o, .popc o, .bswap o], exec i s = .next (s.raise s.cur t))) ∧
   (∀ (s : State) (t : Trap),
     (s.outstanding s.cur = false → s.now.faultTrap = none → s.raise s.cur t = s.takeTrap s.cur t) ∧
     (s.outstanding s.cur = true → rising s.ctxs = true →
       (∃ y, s.raise s.cur t = s.setCtx s.cur y) ∧
       let y := (s.raise s.cur t).ctx s.cur
       y.st = .marker ∧ y.trapDue = some t ∧ y.pc = s.now.pc ∧ y.g = s.now.g ∧ y.v = s.now.v ∧ y.m = s.now.m ∧ y.fcsr = s.now.fcsr ∧
       y.pend = s.now.pend ∧ y.loopcnt = s.now.loopcnt))) ∧
  (∀ s : State, s.outstanding s.cur = true →
     (∀ i : Instr, (firstWord i).getLsbD 31 = true → exec i s = .next (s.marker s.cur)) ∧
     (∀ o : K0, exec (.tend o) s = .next (s.marker s.cur) ∧ exec (.tret o) s = .next (s.marker s.cur)) ∧
     (∀ o : KABD, exec (.park o) s = .next (s.marker s.cur) ∧ exec (.gmax o) s = .next (s.marker s.cur)) ∧
     (∀ o : KAD, exec (.gbar o) s = .next (s.marker s.cur) ∧ exec (.waitany o) s = .next (s.marker s.cur) ∧
       exec (.waitall o) s = .next (s.marker s.cur) ∧ exec (.ringpop o) s = .next (s.marker s.cur)) ∧
     (∀ o : KTrap, exec (.trap o) s = .next (s.marker s.cur)) ∧ (∀ o : KBrk, exec (.brk o) s = .next (s.marker s.cur)) ∧
     s.sameMemory (s.marker s.cur) ∧ s.onlyCtxs (s.marker s.cur) ∧ s.otherCtxs (s.marker s.cur) s.cur ∧
     (rising s.ctxs = true → ((s.marker s.cur).ctx s.cur).st = .marker ∧ ((s.marker s.cur).ctx s.cur).pc = s.now.pc))

/-- ADD to MAX.n write g[D] with the value that R57 gives and go on, and the compares write 1 or 0 (R60); a write to g0 is discarded by the register
file (R13). The multiplies and divides are long: D becomes pending, and the value that R58 gives stands in an operation that returns it after 4 or
24 cycles (R44). -/
def Obligations.Scalar_results : Prop :=
  (∀ (o : R3) (s : State), s.Ready o.s [gr o.d, gr o.a, gr o.b] →
     let a := s.now.getG o.a.toNat
     let b := s.now.getG o.b.toNat
     let n := b.toNat % 64
     let gives (i : Instr) (v : Word) : Prop := exec i s = .next (s.after fun x => x.setG o.d.toNat v)
     gives (.add o) (a + b) ∧ gives (.sub o) (a - b) ∧ gives (.andR o) (a &&& b) ∧ gives (.orR o) (a ||| b) ∧ gives (.xorR o) (a ^^^ b) ∧
     gives (.andn o) (a &&& ~~~b) ∧ gives (.shl o) (a <<< n) ∧ gives (.shr o) (a >>> n) ∧ gives (.sra o) (a.sshiftRight n) ∧
     gives (.rol o) (a.rotateLeft n) ∧
     gives (.minS o) (if a.toInt ≤ b.toInt then a else b) ∧ gives (.maxS o) (if a.toInt ≤ b.toInt then b else a) ∧
     gives (.minN o) (if a ≤ b then a else b) ∧ gives (.maxN o) (if a ≤ b then b else a)) ∧
  (∀ (o : R3) (s : State), s.Ready o.s [gr o.d, gr o.a, gr o.b] →
     let a := s.now.getG o.a.toNat
     let b := s.now.getG o.b.toNat
     let gives (i : Instr) (p : Prop) [Decidable p] : Prop := exec i s = .next (s.after fun x => x.setG o.d.toNat (if p then 1 else 0))
     gives (.cmpEq o) (a = b) ∧ gives (.cmpNe o) (a ≠ b) ∧ gives (.cmpLt o) (a.toInt < b.toInt) ∧ gives (.cmpGe o) (b.toInt ≤ a.toInt) ∧
     gives (.cmpLtn o) (a.toNat < b.toNat) ∧ gives (.cmpGen o) (b.toNat ≤ a.toNat)) ∧
  (∀ (o : R3) (s : State), s.Ready o.s [gr o.d, gr o.a, gr o.b] →
     let a := s.now.getG o.a.toNat
     let b := s.now.getG o.b.toNat
     let gives (i : Instr) (lat : Nat) (v : Word) : Prop :=
       exec i s = .next (s.longResult s.cur (firstWord i) (gr o.d) (v.zeroExtend 128) lat)
     gives (.mul o) 4 (a * b) ∧
     gives (.mulhS o) 4 ((a.signExtend 128 * b.signExtend 128).extractLsb' 64 64) ∧
     gives (.mulhN o) 4 ((a.zeroExtend 128 * b.zeroExtend 128).extractLsb' 64 64) ∧
     gives (.divS o) 24 (if b = 0 then -1 else a.sdiv b) ∧ gives (.divN o) 24 (if b = 0 then -1 else a / b) ∧
     gives (.remS o) 24 (if b = 0 then a else a.srem b) ∧ gives (.remN o) 24 (if b = 0 then a else a % b) ∧
     (∀ v lat (w : IWord), let t := s.longResult s.cur w (gr o.d) v lat
       t.ops = s.ops ++ [{ s.newOp s.cur w 0 (.result v 0) (some (gr o.d)) with performed := true }] ∧
       t.agenda = s.agenda ++ [⟨s.cycle + lat, none, .longResultReturn, .answer s.nextId none⟩] ∧
       (rising s.ctxs = true → o.d ≠ 0 → gr o.d ∈ (t.ctx s.cur).pend)))

/-- The bit and field operations write what R59 gives: counts of leading and trailing zeros and of ones, the bytes reversed, SEL, sign and zero
extension of a field of g[B], BFX and BFI. The mask operations work on all 16 bits (R69). The register files that they and all others read and write
(R13, R14): a register reads back what was written to it last, but g0 reads as 0 and m0 as 0xFFFF whatever is written; no other register of the file
changes, and no register of another file. -/
def Obligations.Field_and_mask_results : Prop :=
  ((∀ (o : R2) (s : State), s.Ready o.s [gr o.d, gr o.a] →
     let a := s.now.getG o.a.toNat
     let gives (i : Instr) (p : Word → Prop) : Prop := ∃ v, p v ∧ exec i s = .next (s.after fun x => x.setG o.d.toNat v)
     gives (.clz o) (fun v => v.toNat ≤ 64 ∧ (∀ k, 64 - v.toNat ≤ k → a.getLsbD k = false) ∧ (v ≠ 64 → a.getLsbD (63 - v.toNat) = true)) ∧
     gives (.ctz o) (fun v => v.toNat ≤ 64 ∧ (∀ k, k < v.toNat → a.getLsbD k = false) ∧ (v ≠ 64 → a.getLsbD v.toNat = true)) ∧
     gives (.popc o) (fun v => v.toNat = ((List.range 64).filter fun k => a.getLsbD k).length) ∧
     gives (.bswap o) (fun v => ∀ k, k < 8 → v.extractLsb' (8 * k) 8 = a.extractLsb' (8 * (7 - k)) 8)) ∧
   (∀ (o : R3) (s : State), s.Ready o.s [gr o.d, gr o.a, gr o.b] →
     let d := s.now.getG o.d.toNat
     let a := s.now.getG o.a.toNat
     let b := s.now.getG o.b.toNat
     let n := min (b.toNat % 128) 64
     let p := b.toNat % 64
     let w := min (b.toNat / 256 % 128) 64
     let gives (i : Instr) (q : Word → Prop) : Prop := ∃ v, q v ∧ exec i s = .next (s.after fun x => x.setG o.d.toNat v)
     gives (.sel o) (fun v => v = if d ≠ 0 then a else b) ∧
     gives (.sext o) (fun v => ∀ k, k < 64 → v.getLsbD k = if k < n then a.getLsbD k else decide (0 < n) && a.getLsbD (n - 1)) ∧
     gives (.zext o) (fun v => ∀ k, k < 64 → v.getLsbD k = (decide (k < n) && a.getLsbD k)) ∧
     gives (.bfx o) (fun v => ∀ k, k < 64 → v.getLsbD k = (decide (k < w) && a.getLsbD (p + k))) ∧
     gives (.bfi o) (fun v => ∀ k, k < 64 → v.getLsbD k = if p ≤ k ∧ k < p + w then a.getLsbD (k - p) else d.getLsbD k))) ∧
  ((∀ (o : M3) (s : State), s.Ready o.s [] →
     let a := s.now.getM o.a.toNat
     let b := s.now.getM o.b.toNat
     let gives (i : Instr) (v : BitVec 16) : Prop := exec i s = .next (s.after fun x => x.setM o.d.toNat v)
     gives (.mand o) (a &&& b) ∧ gives (.mor o) (a ||| b) ∧ gives (.mxor o) (a ^^^ b) ∧ gives (.mandn o) (a &&& ~~~b)) ∧
   (∀ (o : M2) (s : State), s.Ready o.s [] →
     exec (.mnot o) s = .next (s.after fun x => x.setM o.d.toNat (~~~(s.now.getM o.a.toNat))) ∧
     exec (.mmov o) s = .next (s.after fun x => x.setM o.d.toNat (s.now.getM o.a.toNat))) ∧
   (∀ (o : MSetF) (s : State), s.Ready o.s [gr o.a] →
     exec (.mset o) s = .next (s.after fun x => x.setM o.d.toNat ((s.now.getG o.a.toNat).extractLsb' 0 16))) ∧
   (∀ (o : MGetF) (s : State), s.Ready o.s [gr o.d] →
     let a := s.now.getM o.a.toNat
     let gives (i : Instr) (p : Word → Prop) : Prop := ∃ v, p v ∧ exec i s = .next (s.after fun x => x.setG o.d.toNat v)
     gives (.mget o) (fun v => v.toNat = a.toNat) ∧
     gives (.mpopc o) (fun v => v.toNat = ((List.range 16).filter fun k => a.getLsbD k).length) ∧
     gives (.mfirst o) (fun v => v.toNat ≤ 16 ∧ (∀ k, k < v.toNat → a.getLsbD k = false) ∧ (v ≠ 16 → a.getLsbD v.toNat = true))) ∧
   (∀ (x : Ctx) (n k : Nat) (a : Word) (v : Vec) (m : BitVec 16),
     (rising x.g = true → (x.setG n a).getG k = (if k = 0 then 0 else if k = n then a else x.getG k) ∧
       (x.setG n a).v = x.v ∧ (x.setG n a).m = x.m ∧ rising (x.setG n a).g = true) ∧
     (rising x.v = true → (x.setV n v).getV k = (if k = n then v else x.getV k) ∧
       (x.setV n v).g = x.g ∧ (x.setV n v).m = x.m ∧ rising (x.setV n v).v = true) ∧
     (rising x.m = true → (x.setM n m).getM k = (if k = 0 then 0xFFFF else if k = n then m else x.getM k) ∧
       (x.setM n m).g = x.g ∧ (x.setM n m).v = x.v ∧ rising (x.setM n m).m = true)))

/-- The immediate forms (R61): 13-bit immediates sign-extended, but zero-extended by ORI and XORI; MULI is long. LI, LIH and LA (R62) have two
words, so the context goes on past both. -/
def Obligations.Immediate_results : Prop :=
  ((∀ (o : RI) (s : State), s.Ready o.s [gr o.d, gr o.a] →
     let a := s.now.getG o.a.toNat
     let gives (i : Instr) (v : Word) : Prop := exec i s = .next (s.after fun x => x.setG o.d.toNat v)
     gives (.addi o) (a + BitVec.ofInt 64 o.i.toInt) ∧ gives (.andi o) (a &&& BitVec.ofInt 64 o.i.toInt) ∧
     gives (.ori o) (a ||| BitVec.ofNat 64 o.i.toNat) ∧ gives (.xori o) (a ^^^ BitVec.ofNat 64 o.i.toNat) ∧
     gives (.cmpiLt o) (if a.toInt < o.i.toInt then 1 else 0) ∧ gives (.cmpiEq o) (if a = BitVec.ofInt 64 o.i.toInt then 1 else 0) ∧
     exec (.muli o) s = .next (s.longResult s.cur (firstWord (.muli o)) (gr o.d) ((a * BitVec.ofInt 64 o.i.toInt).zeroExtend 128) 4)) ∧
   (∀ (o : RS) (s : State), s.Ready o.s [gr o.d, gr o.a] →
     let a := s.now.getG o.a.toNat
     let gives (i : Instr) (v : Word) : Prop := exec i s = .next (s.after fun x => x.setG o.d.toNat v)
     gives (.shli o) (a <<< o.i.toNat) ∧ gives (.shri o) (a >>> o.i.toNat) ∧ gives (.srai o) (a.sshiftRight o.i.toNat))) ∧
  ((∀ (o : LD1) (s : State), s.Ready o.s [gr o.d] →
     exec (.li o) s = .next (s.setCtx s.cur ((s.now.setG o.d.toNat (BitVec.ofInt 64 o.i.toInt)).advance 2)) ∧
     exec (.la o) s = .next (s.setCtx s.cur ((s.now.setG o.d.toNat (s.now.pc + BitVec.ofInt 64 o.i.toInt)).advance 2))) ∧
   (∀ (o : LDA) (s : State), s.Ready o.s [gr o.d, gr o.a] →
     exec (.lih o) s = .next (s.setCtx s.cur
       ((s.now.setG o.d.toNat (o.i ++ (s.now.getG o.a.toNat).extractLsb' 0 32)).advance 2))))

/-- XY writes the CORE address of the core that its coordinate field names, absolute or relative to its own core, with the low 20 bits of g[A];
outside the mesh it traps MESH_BOUNDS with the field in TRAPVAL (R41, R63); the 0 in its TRAPINFO is the model's choice (log entry 119). XYADD moves a coordinate field, or the core of a CORE address, by the
signed offsets of g[B] within the job's rectangle, and keeps the reference's form; outside the mesh or the rectangle it traps MESH_BOUNDS with the
raw sums in TRAPINFO, and an operand of neither form traps BOUNDS (R64). -/
def Obligations.Coordinate_results : Prop :=
  (∀ (o : LXY) (s : State), s.Ready o.s [gr o.d, gr o.a] →
     let ax : Int := if o.f.getLsbD 14 then (o.f.extractLsb' 7 7).toNat else s.cur.core % 48 + (o.f.extractLsb' 7 7).toInt
     let ay : Int := if o.f.getLsbD 14 then (o.f.extractLsb' 0 7).toNat else s.cur.core / 48 + (o.f.extractLsb' 0 7).toInt
     (0 ≤ ax → ax ≤ 47 → 0 ≤ ay → ay ≤ 63 →
       exec (.xy o) s = .next (s.setCtx s.cur ((s.now.setG o.d.toNat
         (BitVec.ofNat 64 (2 ^ 61 + ax.toNat * 2 ^ 53 + ay.toNat * 2 ^ 46 + (s.now.getG o.a.toNat).toNat % 2 ^ 20))).advance 2))) ∧
     (¬ (0 ≤ ax ∧ ax ≤ 47 ∧ 0 ≤ ay ∧ ay ≤ 63) → exec (.xy o) s = .next (s.raise s.cur (exact cMesh (o.f.zeroExtend 64) 0)))) ∧
  (∀ (o : R3) (s : State) (x y off : Nat) (dx dy : BitVec 7), s.Ready o.s [gr o.d, gr o.a, gr o.b] → x < 128 → y < 128 → off < 2 ^ 20 →
     (s.now.getG o.b.toNat).toNat % 2 ^ 14 = dx.toNat * 128 + dy.toNat →
     let a := s.now.getG o.a.toNat
     let nx : Int := x + dx.toInt
     let ny : Int := y + dy.toInt
     let inside : Prop := 0 ≤ nx ∧ nx ≤ 47 ∧ 0 ≤ ny ∧ ny ≤ 63 ∧ s.inRect (s.jobOf s.cur.core) (48 * ny.toNat + nx.toNat) = true
     let field (u v : Nat) : Word := BitVec.ofNat 64 (2 ^ 14 + u * 128 + v)
     let core (u v : Nat) : Word := BitVec.ofNat 64 (2 ^ 61 + u * 2 ^ 53 + v * 2 ^ 46 + off)
     (a = field x y → inside → exec (.xyadd o) s = .next (s.after fun z => z.setG o.d.toNat (field nx.toNat ny.toNat))) ∧
     (a = core x y → inside → exec (.xyadd o) s = .next (s.after fun z => z.setG o.d.toNat (core nx.toNat ny.toNat))) ∧
     (a = field x y ∨ a = core x y → ¬ inside → exec (.xyadd o) s = .next (s.raise s.cur (exact cMesh a
       (BitVec.ofNat 64 ((nx % 128).toNat * 128 + (ny % 128).toNat))))) ∧
     ((∀ x' y' off', x' < 128 → y' < 128 → off' < 2 ^ 20 → a ≠ 2 ^ 14 + word (x' * 128 + y') ∧ a ≠ word (2 ^ 61 + x' * 2 ^ 53 + y' * 2 ^ 46 + off')) →
       exec (.xyadd o) s = .next (s.raise s.cur (exact cBounds a 0))) ∧
     (∀ c, c < 3072 → s.inRect 0 c = true))

/-- The frame of the register-only instructions. A short one leaves memory, every other context and everything else of the state as they were, and
changes of its own context nothing but its destination and what going on changes: a scalar one g[D], a vector one v[D], a mask operation or a compare
m[D]; a vector one and a compare may add flags to FCSR, none changes a pending bit, and every other register of the destination's file keeps its value.
XY and XYADD are meant where they do not trap. A long one changes of its context only RNDSEED (a scalar one not even that), its destination's pending
bit and what going on changes; beside its context, exactly one operation is added, which will write the destination, with its return on the agenda. -/
def Obligations.Register_only_frames : Prop :=
  (∀ (s t : State) (i : Instr) (w : Bool) (rs : List Reg), s.Ready w rs → exec i s = .next t →
     let kept : Prop := s.sameMemory t ∧ s.onlyCtxs t ∧ s.otherCtxs t s.cur
     let scalar (d : BitVec 6) : Prop := kept ∧
       (rising s.ctxs = true → s.now.sameButG (t.ctx s.cur) ∧ ∀ n, n ≠ d.toNat → (t.ctx s.cur).getG n = s.now.getG n)
     let vector (d : BitVec 5) : Prop := kept ∧
       (rising s.ctxs = true → s.now.sameButV (t.ctx s.cur) ∧ s.now.fcsr &&& (t.ctx s.cur).fcsr = s.now.fcsr ∧
         ∀ n, n ≠ d.toNat → (t.ctx s.cur).getV n = s.now.getV n)
     let mask (d : BitVec 3) (flags : Bool) : Prop := kept ∧
       (rising s.ctxs = true → s.now.sameButM (t.ctx s.cur) ∧ s.now.fcsr &&& (t.ctx s.cur).fcsr = s.now.fcsr ∧
         (flags = false → (t.ctx s.cur).fcsr = s.now.fcsr) ∧ ∀ n, n ≠ d.toNat → (t.ctx s.cur).getM n = s.now.getM n)
     (∀ o : R3, (o.s, [gr o.d, gr o.a, gr o.b]) = (w, rs) →
       (i ∈ [Instr.add o, .sub o, .andR o, .orR o, .xorR o, .andn o, .shl o, .shr o, .sra o, .rol o, .minS o, .minN o, .maxS o, .maxN o,
             .sel o, .cmpEq o, .cmpNe o, .cmpLt o, .cmpGe o, .cmpLtn o, .cmpGen o, .sext o, .zext o, .bfx o, .bfi o] → scalar o.d) ∧
       (i = .xyadd o → (∀ c, t ≠ s.raise s.cur c) → scalar o.d)) ∧
     (∀ o : R2, (o.s, [gr o.d, gr o.a]) = (w, rs) → i ∈ [Instr.clz o, .ctz o, .popc o, .bswap o] → scalar o.d) ∧
     (∀ o : RI, (o.s, [gr o.d, gr o.a]) = (w, rs) → i ∈ [Instr.addi o, .andi o, .ori o, .xori o, .cmpiLt o, .cmpiEq o] → scalar o.d) ∧
     (∀ o : RS, (o.s, [gr o.d, gr o.a]) = (w, rs) → i ∈ [Instr.shli o, .shri o, .srai o] → scalar o.d) ∧
     (∀ o : LD1, (o.s, [gr o.d]) = (w, rs) → i ∈ [Instr.li o, .la o] → scalar o.d) ∧
     (∀ o : LDA, (o.s, [gr o.d, gr o.a]) = (w, rs) → i = .lih o → scalar o.d) ∧
     (∀ o : LXY, (o.s, [gr o.d, gr o.a]) = (w, rs) → i = .xy o → (∀ c, t ≠ s.raise s.cur c) → scalar o.d) ∧
     (∀ o : MGetF, (o.s, [gr o.d]) = (w, rs) → i ∈ [Instr.mget o, .mpopc o, .mfirst o] → scalar o.d) ∧
     (∀ o : VL, (o.s, [vr o.d, gr o.g]) = (w, rs) → (i = .vext o → scalar o.g) ∧ (i = .vins o → vector o.d)) ∧
     (∀ o : V3, (o.s, [vr o.d, vr o.a, vr o.b]) = (w, rs) →
       i ∈ [Instr.vadd o, .vsub o, .vadds o, .vsubs o, .vmin o, .vmax o, .vavg o, .vand o, .vor o, .vxor o, .vandn o, .vshl o, .vshr o, .vsra o,
            .vsel o, .vfmin o, .vfmax o, .vperm o, .vzip o, .vunzip o, .vslide o] → vector o.d) ∧
     (∀ o : V2, (o.s, [vr o.d, vr o.a]) = (w, rs) →
       i ∈ [Instr.vabs o, .vneg o, .vfabs o, .vfneg o, .vmov o, .vcompress o, .vexpand o] → vector o.d) ∧
     (∀ o : VG, (o.s, [vr o.d, gr o.g]) = (w, rs) → i = .vbcast o → vector o.d) ∧
     (∀ o : VC, (o.s, [vr o.a, vr o.b]) = (w, rs) →
       i ∈ [Instr.vcmpEq o, .vcmpNe o, .vcmpLt o, .vcmpLe o, .vfcmpEq o, .vfcmpLt o, .vfcmpLe o, .vfcmpUn o] → mask o.d true) ∧
     (∀ o : M3, (o.s, []) = (w, rs) → i ∈ [Instr.mand o, .mor o, .mxor o, .mandn o] → mask o.d false) ∧
     (∀ o : M2, (o.s, []) = (w, rs) → i ∈ [Instr.mnot o, .mmov o] → mask o.d false) ∧
     (∀ o : MSetF, (o.s, [gr o.a]) = (w, rs) → i = .mset o → mask o.d false)) ∧
  (∀ (s t : State) (i : Instr) (w : Bool) (rs : List Reg), s.Ready w rs → exec i s = .next t →
     let long (r : Reg) (seed : Bool) : Prop :=
       s.sameMemory t ∧ s.otherCtxs t s.cur ∧ t = { s with ctxs := t.ctxs, ops := t.ops, agenda := t.agenda, nextId := t.nextId } ∧
       (∃ q, t.ops = s.ops ++ [q] ∧ q.id = s.nextId ∧ q.ctx = s.cur ∧ q.thread = s.now.thread ∧ q.dst = some r) ∧
       (∃ n, t.agenda = s.agenda ++ [⟨n, none, .longResultReturn, .answer s.nextId none⟩]) ∧
       (rising s.ctxs = true → ∃ sd, t.ctx s.cur = ({ s.now with rndseed := sd }.setPend r).advance 1 ∧ (seed = false → sd = s.now.rndseed))
     (∀ o : R3, (o.s, [gr o.d, gr o.a, gr o.b]) = (w, rs) →
       i ∈ [Instr.mul o, .mulhS o, .mulhN o, .divS o, .divN o, .remS o, .remN o] → long (gr o.d) false) ∧
     (∀ o : RI, (o.s, [gr o.d, gr o.a]) = (w, rs) → i = .muli o → long (gr o.d) false) ∧
     (∀ o : V3, ((o.s, [vr o.d, vr o.a, vr o.b]) = (w, rs) →
         i ∈ [Instr.vmul o, .vmulh o, .vdot o, .vfadd o, .vfsub o, .vfmul o, .vfma o, .vfms o, .vqnt o] → long (vr o.d) true) ∧
       ((o.s, [vr o.d, vr o.a]) = (w, rs) → i = .vcvt o → long (vr o.d) true)) ∧
     (∀ o : V2, (o.s, [vr o.d, vr o.a]) = (w, rs) →
       i ∈ [Instr.vredadd o, .vredmin o, .vredmax o, .vrcp o, .vrsq o, .vsqrt o, .vexp2 o, .vlog2 o] → long (vr o.d) true) ∧
     (∀ o : VP, (o.s, [vr o.d, vr o.a]) = (w, rs) → i ∈ [Instr.vplane o, .vunplane o] → long (vr o.d) true) ∧
     (∀ o : VG, (o.s, [vr o.d, gr o.g]) = (w, rs) → i ∈ [Instr.vfredadd o, .vfredmax o, .vfredmin o] → long (gr o.g) true))

/-- Branches and calls by an offset (R65, R67): the target is the instruction's own address plus four times the signed offset, g15 takes the address
after the instruction, BZ and BNZ test the whole of g[A], and the mask branches all 16 bits. Branches by register (R66): an aligned target is taken,
CALLR reads it before it writes the link, and a target that is not a multiple of 4 traps MISALIGN at the branch, with the target in TRAPVAL. A
branch that stands at the end of a loop is subject to the loop step. -/
def Obligations.Branch_targets : Prop :=
  ((∀ (o : JF) (s : State), s.Ready o.s [] →
     exec (.branch o) s = .next (s.setCtx s.cur (s.now.goOn 1 (s.now.pc + BitVec.ofInt 64 (4 * o.o.toInt))))) ∧
   (∀ (o : JF) (s : State), s.Ready o.s [.g 15] →
     exec (.call o) s = .next (s.setCtx s.cur ((s.now.setG 15 (s.now.pc + 4)).goOn 1 (s.now.pc + BitVec.ofInt 64 (4 * o.o.toInt))))) ∧
   (∀ (o : CF) (s : State), s.Ready o.s [gr o.a] →
     let dest := s.now.pc + BitVec.ofInt 64 (4 * o.o.toInt)
     let a := s.now.getG o.a.toNat
     exec (.bz o) s = .next (s.setCtx s.cur (s.now.goOn 1 (if a = 0 then dest else s.now.pc + 4))) ∧
     exec (.bnz o) s = .next (s.setCtx s.cur (s.now.goOn 1 (if a = 0 then s.now.pc + 4 else dest)))) ∧
   (∀ (o : LOff) (s : State), s.Ready o.s [] →
     exec (.bl o) s = .next (s.setCtx s.cur (s.now.goOn 2 (s.now.pc + BitVec.ofInt 64 (4 * o.i.toInt))))) ∧
   (∀ (o : LOff) (s : State), s.Ready o.s [.g 15] →
     exec (.calll o) s = .next (s.setCtx s.cur ((s.now.setG 15 (s.now.pc + 8)).goOn 2 (s.now.pc + BitVec.ofInt 64 (4 * o.i.toInt))))) ∧
   (∀ (o : BF) (s : State), s.Ready o.s [] →
     let dest := s.now.pc + BitVec.ofInt 64 (4 * o.o.toInt)
     let m := s.now.getM o.m.toNat
     exec (.bmAny o) s = .next (s.setCtx s.cur (s.now.goOn 1 (if m = 0 then s.now.pc + 4 else dest))) ∧
     exec (.bmAll o) s = .next (s.setCtx s.cur (s.now.goOn 1 (if m = 0xFFFF then dest else s.now.pc + 4))) ∧
     exec (.bmNone o) s = .next (s.setCtx s.cur (s.now.goOn 1 (if m = 0 then dest else s.now.pc + 4)))) ∧
   (∀ (o : K0) (s : State), s.Ready o.s [] → exec (.nop o) s = .next (s.after id))) ∧
  ((∀ (o : KA) (s : State), s.Ready o.s [gr o.a] →
     let dest := s.now.getG o.a.toNat
     (dest.toNat % 4 = 0 → exec (.br o) s = .next (s.setCtx s.cur (s.now.goOn 1 dest))) ∧
     (dest.toNat % 4 ≠ 0 → exec (.br o) s = .next (s.raise s.cur (exact cMisalign dest 0)))) ∧
   (∀ (o : KA) (s : State), s.Ready o.s [gr o.a, .g 15] →
     let dest := s.now.getG o.a.toNat
     (dest.toNat % 4 = 0 → exec (.callr o) s = .next (s.setCtx s.cur ((s.now.setG 15 (s.now.pc + 4)).goOn 1 dest))) ∧
     (dest.toNat % 4 ≠ 0 → exec (.callr o) s = .next (s.raise s.cur (exact cMisalign dest 0)))) ∧
   (∀ (o : K0) (s : State), s.Ready o.s [.g 15] →
     let dest := s.now.getG 15
     (dest.toNat % 4 = 0 → exec (.ret o) s = .next (s.setCtx s.cur (s.now.goOn 1 dest))) ∧
     (dest.toNat % 4 ≠ 0 → exec (.ret o) s = .next (s.raise s.cur (exact cMisalign dest 0)))))

/-- LOOP (R70): a count of 0 skips the body of B + 1 words with the loop CSRs unchanged, any other count below 2^32 begins the loop, a larger one
traps LOOP_FORM with the count, and so does a LOOP inside an active loop. The loop step: an instruction whose last word stands at LOOPEND while a
loop is active takes one off LOOPCNT and goes to LOOPSTART, or, at the last iteration, ends the loop and goes on after LOOPEND; any other
instruction goes where it says. -/
def Obligations.Loop_begins_and_steps : Prop :=
  (∀ (o : KAB) (s : State), s.Ready o.s [gr o.a] →
     let x := s.now
     let a := x.getG o.a.toNat
     (x.loopcnt ≠ 0 → exec (.loop o) s = .next (s.raise s.cur (exact cLoopForm ((firstWord (.loop o)).zeroExtend 64) 3))) ∧
     (x.loopcnt = 0 → 2 ^ 32 ≤ a.toNat → exec (.loop o) s = .next (s.raise s.cur (exact cLoopForm a 2))) ∧
     (x.loopcnt = 0 → a = 0 → ∃ y, exec (.loop o) s = .next (s.setCtx s.cur y) ∧ y.loopcnt = 0 ∧
       y.pc = x.pc + 4 + BitVec.ofNat 64 (4 * (o.b.toNat + 1)) ∧ y.loopstart = x.loopstart ∧ y.loopend = x.loopend ∧
       y.g = x.g ∧ y.v = x.v ∧ y.m = x.m ∧ y.fcsr = x.fcsr) ∧
     (x.loopcnt = 0 → a ≠ 0 → a.toNat < 2 ^ 32 → ∃ y, exec (.loop o) s = .next (s.setCtx s.cur y) ∧ y.loopcnt.toNat = a.toNat ∧
       y.pc = x.pc + 4 ∧ y.loopstart = x.pc + 4 ∧ y.loopend = x.pc + BitVec.ofNat 64 (4 * (o.b.toNat + 1)) ∧ y.loopbuf = [] ∧
       y.g = x.g ∧ y.v = x.v ∧ y.m = x.m ∧ y.fcsr = x.fcsr)) ∧
  (∀ (x : Ctx) (n : Nat) (next : Word),
     (x.loopcnt ≠ 0 → x.pc + BitVec.ofNat 64 (4 * (n - 1)) = x.loopend → 1 < x.loopcnt.toNat →
       (x.goOn n next).pc = x.loopstart ∧ (x.goOn n next).loopcnt.toNat = x.loopcnt.toNat - 1) ∧
     (x.loopcnt = 1 → x.pc + BitVec.ofNat 64 (4 * (n - 1)) = x.loopend →
       (x.goOn n next).pc = x.loopend + 4 ∧ (x.goOn n next).loopcnt = 0 ∧ (x.goOn n next).loopbuf = []) ∧
     (x.loopcnt = 0 ∨ x.pc + BitVec.ofNat 64 (4 * (n - 1)) ≠ x.loopend →
       (x.goOn n next).pc = next ∧ (x.goOn n next).loopcnt = x.loopcnt))

/-- The short integer operations on lanes (R98, R99): an active lane takes the value of its operation in the type's signedness, cut to the lane or,
in VADDS and VSUBS, held to the type's bounds with SAT set when some active lane was held; an inactive lane keeps its old value (R95). VABS and VNEG
on integers, VFABS and VFNEG on the sign bit, VMOV; and VSEL, whose mask selects between its sources. -/
def Obligations.Vector_integer_lanes : Prop :=
  (∀ (o : V3) (s : State), s.Ready o.s [vr o.d, vr o.a, vr o.b] →
     let w := o.t.bits
     let a := s.now.getV o.a.toNat
     let b := s.now.getV o.b.toNat
     let act (k : Nat) : Bool := (s.now.getM o.m.toNat).getLsbD k
     let A (k : Nat) : Int := laneI o.t a k
     let B (k : Nat) : Int := laneI o.t b k
     let lo : Int := if o.t.isSigned then -(2 ^ (w - 1)) else 0
     let hi : Int := if o.t.isSigned then 2 ^ (w - 1) - 1 else 2 ^ w - 1
     let gives (i : Instr) (fl : BitVec 9) (f : Nat → Nat) : Prop :=
       ∃ v, exec i s = .next (s.after fun x => (x.setV o.d.toNat v).orFlags fl) ∧
         ∀ k, k < o.t.lanes → lane w v k = if act k then f k else lane w (s.now.getV o.d.toNat) k
     let held (f : Nat → Int) : BitVec 9 := if ∃ k, k < o.t.lanes ∧ act k = true ∧ (f k < lo ∨ hi < f k) then 0x100 else 0
     gives (.vadd o) 0 (fun k => ((A k + B k) % 2 ^ w).toNat) ∧ gives (.vsub o) 0 (fun k => ((A k - B k) % 2 ^ w).toNat) ∧
     gives (.vadds o) (held fun k => A k + B k) (fun k => (max lo (min hi (A k + B k)) % 2 ^ w).toNat) ∧
     gives (.vsubs o) (held fun k => A k - B k) (fun k => (max lo (min hi (A k - B k)) % 2 ^ w).toNat) ∧
     gives (.vmin o) 0 (fun k => if A k ≤ B k then lane w a k else lane w b k) ∧
     gives (.vmax o) 0 (fun k => if A k ≤ B k then lane w b k else lane w a k) ∧
     gives (.vavg o) 0 (fun k => ((A k + B k + 1) / 2 % 2 ^ w).toNat) ∧
     gives (.vand o) 0 (fun k => lane w a k &&& lane w b k) ∧ gives (.vor o) 0 (fun k => lane w a k ||| lane w b k) ∧
     gives (.vxor o) 0 (fun k => lane w a k ^^^ lane w b k) ∧
     gives (.vandn o) 0 (fun k => lane w a k &&& (2 ^ w - 1 - lane w b k)) ∧
     gives (.vshl o) 0 (fun k => lane w a k * 2 ^ (lane w b k % w) % 2 ^ w) ∧
     gives (.vshr o) 0 (fun k => lane w a k / 2 ^ (lane w b k % w)) ∧
     gives (.vsra o) 0 (fun k => (sextN (lane w a k) w / 2 ^ (lane w b k % w) % 2 ^ w).toNat)) ∧
  ((∀ (o : V2) (s : State), s.Ready o.s [vr o.d, vr o.a] →
     let w := o.t.bits
     let a := s.now.getV o.a.toNat
     let gives (i : Instr) (f : Nat → Nat) : Prop :=
       ∃ v, exec i s = .next (s.after fun x => x.setV o.d.toNat v) ∧
         ∀ k, k < o.t.lanes → lane w v k = if (s.now.getM o.m.toNat).getLsbD k then f k else lane w (s.now.getV o.d.toNat) k
     gives (.vabs o) (fun k => (((laneI o.t a k).natAbs : Int) % 2 ^ w).toNat) ∧ gives (.vneg o) (fun k => (-(laneI o.t a k) % 2 ^ w).toNat) ∧
     gives (.vfabs o) (fun k => lane w a k % 2 ^ (w - 1)) ∧ gives (.vfneg o) (fun k => (lane w a k + 2 ^ (w - 1)) % 2 ^ w) ∧
     gives (.vmov o) (fun k => lane w a k)) ∧
   (∀ (o : V3) (s : State), s.Ready o.s [vr o.d, vr o.a, vr o.b] →
     ∃ v, exec (.vsel o) s = .next (s.after fun x => (x.setV o.d.toNat v).orFlags 0) ∧ ∀ k, k < o.t.lanes →
       lane o.t.bits v k = lane o.t.bits (if (s.now.getM o.m.toNat).getLsbD k then s.now.getV o.a.toNat else s.now.getV o.b.toNat) k))

/-- The long integer operations (R98, R100, R110): VMUL and VMULH give the low and the high half of the exact product, VDOT adds four exact products
to a lane four times as wide, and the reductions fold the present lanes pairwise; the result returns after 4 cycles with no flag, and RNDSEED is as
it was. -/
def Obligations.Vector_products_and_reductions : Prop :=
  (∀ (o : V3) (s : State), s.Ready o.s [vr o.d, vr o.a, vr o.b] →
    let w := o.t.bits
    let d := s.now.getV o.d.toNat
    let act (k : Nat) : Bool := (s.now.getM o.m.toNat).getLsbD k
    let A (k : Nat) : Int := laneI o.t (s.now.getV o.a.toNat) k
    let B (k : Nat) : Int := laneI o.t (s.now.getV o.b.toNat) k
    let gives (i : Instr) (n w : Nat) (f : Nat → Nat) : Prop :=
      ∃ v, exec i s = .next (s.longAfter i (vr o.d) v 4 0 s.now.rndseed) ∧
        ∀ k, k < n → lane w v k = if act k then f k else lane w d k
    gives (.vmul o) o.t.lanes w (fun k => (A k * B k % 2 ^ w).toNat) ∧
    gives (.vmulh o) o.t.lanes w (fun k => (A k * B k / 2 ^ w % 2 ^ w).toNat) ∧
    (o.t.isNarrowInt = true → gives (.vdot o) (o.t.lanes / 4) (4 * w) (fun j =>
      (((if o.t.isSigned then sextN (lane (4 * w) d j) (4 * w) else (lane (4 * w) d j : Int))
        + A (4 * j) * B (4 * j) + A (4 * j + 1) * B (4 * j + 1) + A (4 * j + 2) * B (4 * j + 2) + A (4 * j + 3) * B (4 * j + 3))
          % 2 ^ (4 * w)).toNat))) ∧
  (∀ (o : V2) (s : State), s.Ready o.s [vr o.d, vr o.a] →
    let w := o.t.bits
    let L := (List.range o.t.lanes).filter fun k => (s.now.getM o.m.toNat).getLsbD k
    let A (k : Nat) : Int := laneI o.t (s.now.getV o.a.toNat) k
    let gives (i : Instr) (x : Int) : Prop :=
      exec i s = .next (s.longAfter i (vr o.d) (BitVec.ofNat 128 (x % 2 ^ w).toNat) 4 0 s.now.rndseed)
    gives (.vredadd o) ((L.map A).foldl (· + ·) 0) ∧
    gives (.vredmin o) ((L.map A).foldl min (if o.t.isSigned then 2 ^ (w - 1) - 1 else 2 ^ w - 1)) ∧
    gives (.vredmax o) ((L.map A).foldl max (if o.t.isSigned then -(2 ^ (w - 1)) else 0)))

/-- The compares into a mask (R101, R104): bit k is set when lane k is present, active and in relation; every other bit is 0. The float compares are
false with a NaN, but un holds for one; eq and un set NV for a signalling NaN, lt and le for any; no other flag is set. -/
def Obligations.Vector_compare_masks : Prop :=
  ∀ (o : VC) (s : State), s.Ready o.s [vr o.a, vr o.b] →
    let w := o.t.bits
    let a := s.now.getV o.a.toNat
    let b := s.now.getV o.b.toNat
    let act (k : Nat) : Bool := decide (k < o.t.lanes) && (s.now.getM o.m.toNat).getLsbD k
    let nan (k : Nat) : Bool := isNaN o.t (lane w a k) || isNaN o.t (lane w b k)
    let snan (k : Nat) : Bool := isSNaN o.t (lane w a k) || isSNaN o.t (lane w b k)
    let le (k : Nat) : Prop := fOrd o.t (lane w a k) ≤ fOrd o.t (lane w b k)
    let ge (k : Nat) : Prop := fOrd o.t (lane w b k) ≤ fOrd o.t (lane w a k)
    let gives (i : Instr) (nv : Nat → Bool) (p : Nat → Prop) : Prop :=
      ∃ m, exec i s = .next (s.after fun x => (x.setM o.d.toNat m).orFlags
          (if ∃ k, k < o.t.lanes ∧ act k = true ∧ nv k = true then 0x80 else 0)) ∧
        ∀ k, m.getLsbD k = true ↔ act k = true ∧ p k
    let none (_ : Nat) : Bool := false
    gives (.vcmpEq o) none (fun k => lane w a k = lane w b k) ∧ gives (.vcmpNe o) none (fun k => lane w a k ≠ lane w b k) ∧
    gives (.vcmpLt o) none (fun k => laneI o.t a k < laneI o.t b k) ∧ gives (.vcmpLe o) none (fun k => laneI o.t a k ≤ laneI o.t b k) ∧
    gives (.vfcmpEq o) snan (fun k => nan k = false ∧ le k ∧ ge k) ∧ gives (.vfcmpLt o) nan (fun k => nan k = false ∧ le k ∧ ¬ ge k) ∧
    gives (.vfcmpLe o) nan (fun k => nan k = false ∧ le k) ∧ gives (.vfcmpUn o) snan (fun k => nan k = true)

/-- Float arithmetic and functions on lanes under the mask (R102, R105): each active lane takes the correctly rounded value and adds its flags;
outside RSTO nothing steps RNDSEED, and under RSTO each active lane steps it once, in ascending order (R87). The result returns after 4 cycles, or
12 for the functions of R105, which are rounded as log entry 31 says. -/
def Obligations.Vector_float_lanes : Prop :=
  (∀ (o : V3) (s : State), s.Ready o.s [vr o.d, vr o.a, vr o.b] →
    let w := o.t.bits
    let d := s.now.getV o.d.toNat
    let act (k : Nat) : Bool := (s.now.getM o.m.toNat).getLsbD k
    let n (k : Nat) : Nat := ((List.range k).filter act).length
    let sd (k : Nat) : BitVec 32 := if s.now.rm = 4 then seedAfter (n k) s.now.rndseed else s.now.rndseed
    let A := lane w (s.now.getV o.a.toNat)
    let B := lane w (s.now.getV o.b.toNat)
    let gives (i : Instr) (f : Nat → Nat → Nat → Nat × BitVec 9) : Prop :=
      ∃ v fl, exec i s = .next (s.longAfter i (vr o.d) v 4 fl (sd o.t.lanes)) ∧
        (∀ k, k < o.t.lanes → lane w v k = if act k then (f k s.now.rm (sd (k + 1)).toNat).1 % 2 ^ w else lane w d k) ∧
        ∀ j, fl.getLsbD j = true ↔ ∃ k, k < o.t.lanes ∧ act k = true ∧ (f k s.now.rm (sd (k + 1)).toNat).2.getLsbD j = true
    gives (.vfadd o) (fun k m r => fAdd o.t m r (A k) (B k)) ∧ gives (.vfsub o) (fun k m r => fSub o.t m r (A k) (B k)) ∧
    gives (.vfmul o) (fun k m r => fMul o.t m r (A k) (B k)) ∧ gives (.vfma o) (fun k m r => fFma o.t m r (A k) (B k) (lane w d k)) ∧
    gives (.vfms o) (fun k m r => fFms o.t m r (A k) (B k) (lane w d k)) ∧
    gives (.vqnt o) (fun k m r => quantise o.t m r (s.now.getV o.b.toNat).toNat (A k))) ∧
  (∀ (o : V2) (s : State), s.Ready o.s [vr o.d, vr o.a] →
    let w := o.t.bits
    let act (k : Nat) : Bool := (s.now.getM o.m.toNat).getLsbD k
    let n (k : Nat) : Nat := ((List.range k).filter act).length
    let sd (k : Nat) : BitVec 32 := if s.now.rm = 4 then seedAfter (n k) s.now.rndseed else s.now.rndseed
    let gives (i : Instr) (g : FFun) : Prop :=
      let f (k : Nat) : Nat × BitVec 9 := fFun g o.t s.now.rm (sd (k + 1)).toNat (lane w (s.now.getV o.a.toNat) k)
      ∃ v fl, exec i s = .next (s.longAfter i (vr o.d) v 12 fl (sd o.t.lanes)) ∧
        (∀ k, k < o.t.lanes → lane w v k = if act k then (f k).1 % 2 ^ w else lane w (s.now.getV o.d.toNat) k) ∧
        ∀ j, fl.getLsbD j = true ↔ ∃ k, k < o.t.lanes ∧ act k = true ∧ (f k).2.getLsbD j = true
    gives (.vrcp o) .rcp ∧ gives (.vrsq o) .rsq ∧ gives (.vsqrt o) .sqrt ∧ gives (.vexp2 o) .exp2 ∧ gives (.vlog2 o) .log2)

/-- The rounding of an exact value that is not zero (R86, R90), in every float format: it lies between two neighbours of the format, the encodings k
and k + 1 of one sign, and k + 1 is delivered where the mode chooses it: under RNE when it is nearer, or even in a tie, under RDN and RUP when it lies
on their side and the value is not exact, under RSTO when the part above k and r / 2^32 fill the spacing, under RTZ never. NX says that the delivered
value is not exact, UF that it is also below the least normal; beyond the largest finite value OF and NX are set and R86 says whether it is that
value or infinity. The product and the sum of finite operands are rounded so. What float arithmetic gives for values that are not finite, and the
rounding of what is exact (R88, R89): a NaN operand gives the canonical
quiet NaN with NV for a signalling one; an infinity less itself, and zero times an infinity, give it with NV; the sum of two zeros of one sign keeps
the sign, any other exact zero is +0, or −0 under RDN; and a value of the format is delivered unchanged with no flag. VFMIN and VFMAX (R103): the
lesser or greater lane, with −0 below +0; one NaN gives the other operand and two give the canonical quiet NaN; NV for a signalling NaN and no other
flag. -/
def Obligations.Float_special_values : Prop :=
  ((∀ (t : ETy) (mode r : Nat) (neg : Bool) (m : Nat) (e : Int), t.isFloat = true → mode < 5 → r < 2 ^ 32 → m ≠ 0 →
     let F := t.fracBits
     let least : Int := 1 - (t.bias : Int) - F
     let mag (k : Nat) : Nat := (if k < 2 ^ F then k else (2 ^ F + k % 2 ^ F) * 2 ^ (k / 2 ^ F - 1)) * 2 ^ (least - e).toNat
     let x : Nat := m * 2 ^ (e - least).toNat
     ∃ k, mag k ≤ x ∧ x < mag (k + 1) ∧
       let ulp := mag (k + 1) - mag k
       let part := x - mag k
       let up : Bool :=
         (mode == 0 && (decide (ulp < 2 * part) || (decide (2 * part = ulp) && k % 2 == 1))) || (mode == 2 && neg && part != 0) ||
         (mode == 3 && !neg && part != 0) || (mode == 4 && decide (ulp * 2 ^ 32 ≤ part * 2 ^ 32 + r * ulp))
       let n := if up then k + 1 else k
       let inf := t.emax * 2 ^ F
       roundTo t mode r neg m e false =
         if inf ≤ n then
           (infBits t neg - (if mode = 0 ∨ mode = 4 ∨ (mode = 2 ∧ neg = true) ∨ (mode = 3 ∧ neg = false) then 0 else 1), 0x28)
         else (n + zeroBits t neg, (if part = 0 then 0 else 0x08) ||| (if part ≠ 0 ∧ n < 2 ^ F then 0x10 else 0))) ∧
   (∀ (t : ETy) (mode r a b : Nat) (na nb : Bool) (ma mb : Nat) (ea eb : Int), fval t a = .fin na ma ea → fval t b = .fin nb mb eb → ma ≠ 0 → mb ≠ 0 →
     fMul t mode r a b = roundTo t mode r (na != nb) (ma * mb) (ea + eb) false ∧
     (let d := min ea eb
      let k : Int := (if na then -1 else 1) * (ma * 2 ^ (ea - d).toNat) + (if nb then -1 else 1) * (mb * 2 ^ (eb - d).toNat)
      k ≠ 0 → fAdd t mode r a b = roundTo t mode r (decide (k < 0)) k.natAbs d false))) ∧
  (∀ (t : ETy) (m r a b : Nat), t.isFloat = true → m < 5 → r < 2 ^ 32 → a < 2 ^ t.bits → b < 2 ^ t.bits →
     (isNaN t a = true ∨ isNaN t b = true →
       fAdd t m r a b = (nanBits t, if isSNaN t a || isSNaN t b then 0x80 else 0) ∧
       fMul t m r a b = (nanBits t, if isSNaN t a || isSNaN t b then 0x80 else 0) ∧
       fSub t m r a b = (nanBits t, if isSNaN t a || isSNaN t b then 0x80 else 0)) ∧
     (∀ n, fAdd t m r (infBits t n) (infBits t !n) = (nanBits t, 0x80) ∧ fSub t m r (infBits t n) (infBits t n) = (nanBits t, 0x80) ∧
       fAdd t m r (infBits t n) (infBits t n) = (infBits t n, 0) ∧
       ∀ n', fMul t m r (infBits t n) (zeroBits t n') = (nanBits t, 0x80) ∧ fMul t m r (infBits t n) (infBits t n') = (infBits t (n != n'), 0)) ∧
     (∀ n, fAdd t m r (zeroBits t n) (zeroBits t n) = (zeroBits t n, 0) ∧
       fAdd t m r (zeroBits t n) (zeroBits t !n) = (zeroBits t (m == 2), 0)) ∧
     (isNaN t a = false → fExp t a ≠ t.emax → fFrac t a ≠ 0 ∨ fExp t a ≠ 0 → fAdd t m r a (zeroBits t false) = (a, 0))) ∧
  (∀ (o : V3) (s : State), s.Ready o.s [vr o.d, vr o.a, vr o.b] →
     let w := o.t.bits
     let A := lane w (s.now.getV o.a.toNat)
     let B := lane w (s.now.getV o.b.toNat)
     let act (k : Nat) : Bool := (s.now.getM o.m.toNat).getLsbD k
     let pick (greater : Bool) (k : Nat) : Nat :=
       if isNaN o.t (A k) && isNaN o.t (B k) then nanBits o.t % 2 ^ w
       else if isNaN o.t (A k) then B k
       else if isNaN o.t (B k) then A k
       else if fOrd' o.t (A k) ≤ fOrd' o.t (B k) then (if greater then B k else A k) else (if greater then A k else B k)
     let gives (i : Instr) (greater : Bool) : Prop :=
       ∃ v, exec i s = .next (s.after fun x => (x.setV o.d.toNat v).orFlags
           (if ∃ k, k < o.t.lanes ∧ act k = true ∧ (isSNaN o.t (A k) = true ∨ isSNaN o.t (B k) = true) then 0x80 else 0)) ∧
         ∀ k, k < o.t.lanes → lane w v k = if act k then pick greater k else lane w (s.now.getV o.d.toNat) k
     gives (.vfmin o) false ∧ gives (.vfmax o) true)

/-- The conversions, plane packing and float reductions are long (R106, R108, R111). VCVT converts the source lane of each active destination lane
that a pair names and keeps the other lanes; its value is stated outside RSTO. VPLANE puts bit n − 1 − p of every active lane into chunk p and 0
above the chunks; VUNPLANE gives an active lane the weighted sum of its first planes. The float reductions write g[G] after 8 cycles: the identity
where no lane is active, the lane where one is, and for four F32 lanes outside RSTO the sum in the order of R92; VFREDMAX and VFREDMIN make no step
of RNDSEED. -/
def Obligations.Vector_conversions_planes_and_float_reductions : Prop :=
  (∀ (o : V3) (s : State) (t : ETy), s.Ready o.s [vr o.d, vr o.a] → ETy.ofCode (o.b.extractLsb' 0 4) = some t →
    let act (k : Nat) : Bool := (s.now.getM o.m.toNat).getLsbD k
    let from' (k : Nat) : Option Nat := cvtPair o.t.lanes t.lanes (o.b.toNat / 16) k
    let value (j : Nat) : Nat × BitVec 9 := cvtLane o.t t s.now.rm s.now.rndseed.toNat (lane o.t.bits (s.now.getV o.a.toNat) j)
    ∃ v fl sd, exec (.vcvt o) s = .next (s.longAfter (.vcvt o) (vr o.d) v 4 fl sd) ∧
      (∀ k, k < t.lanes → act k = false ∨ from' k = none → lane t.bits v k = lane t.bits (s.now.getV o.d.toNat) k) ∧
      (s.now.rm ≠ 4 → sd = s.now.rndseed ∧
        (∀ k, k < t.lanes → act k = true → ∀ j, j < o.t.lanes → from' k = some j → lane t.bits v k = (value j).1 % 2 ^ t.bits) ∧
        ∀ i, fl.getLsbD i = true ↔ ∃ k, k < t.lanes ∧ act k = true ∧ ∃ j, j < o.t.lanes ∧ from' k = some j ∧ (value j).2.getLsbD i = true)) ∧
  (∀ (o : VP) (s : State), s.Ready o.s [vr o.d, vr o.a] → o.n.toNat < o.t.bits →
    let a := s.now.getV o.a.toNat
    let L := o.t.lanes
    let n := o.n.toNat
    let act (k : Nat) : Bool := (s.now.getM o.m.toNat).getLsbD k
    let weight (p : Nat) : Int := if p = 0 ∧ o.t.isSigned = true then -2 ^ n else 2 ^ (n - p)
    (∃ v, exec (.vplane o) s = .next (s.longAfter (.vplane o) (vr o.d) v 4 0 s.now.rndseed) ∧
      (∀ p, p ≤ n → ∀ k, k < L → v.getLsbD (L * p + k) = (act k && (lane o.t.bits a k).testBit (n - p))) ∧
      ∀ j, j < 128 → L * (n + 1) ≤ j → v.getLsbD j = false) ∧
    (∃ v, exec (.vunplane o) s = .next (s.longAfter (.vunplane o) (vr o.d) v 4 0 s.now.rndseed) ∧
      ∀ k, k < L → lane o.t.bits v k = if act k then
          (((List.range (n + 1)).map fun p => if a.getLsbD (L * p + k) then weight p else 0).foldl (· + ·) 0 % 2 ^ o.t.bits).toNat
        else lane o.t.bits (s.now.getV o.d.toNat) k)) ∧
  (∀ (o : VG) (s : State), s.Ready o.s [vr o.d, gr o.g] →
    let act (k : Nat) : Bool := (s.now.getM o.m.toNat).getLsbD k
    let A := lane o.t.bits (s.now.getV o.d.toNat)
    let gives (i : Instr) (x : Nat) (fl : BitVec 9) : Prop :=
      exec i s = .next (s.longAfter i (gr o.g) (BitVec.ofNat 128 x) 8 fl s.now.rndseed)
    (∃ v fl sd, exec (.vfredadd o) s = .next (s.longAfter (.vfredadd o) (gr o.g) v 8 fl sd) ∧ (s.now.rm ≠ 4 → sd = s.now.rndseed)) ∧
    (∃ x fl, gives (.vfredmax o) x fl) ∧ (∃ x fl, gives (.vfredmin o) x fl) ∧
    ((∀ k, k < o.t.lanes → act k = false) →
      gives (.vfredadd o) 0 0 ∧ gives (.vfredmax o) (infBits o.t true) 0 ∧ gives (.vfredmin o) (infBits o.t false) 0) ∧
    (∀ k, k < o.t.lanes → act k = true → (∀ j, j < o.t.lanes → j ≠ k → act j = false) →
      gives (.vfredmax o) (A k) 0 ∧ gives (.vfredmin o) (A k) 0 ∧ (s.now.rm ≠ 4 → gives (.vfredadd o) (A k) 0)) ∧
    (o.t = .f32 → s.now.rm ≠ 4 → (∀ k, k < 4 → act k = true) →
      let add (a b : Nat) : Nat × BitVec 9 := fAdd .f32 s.now.rm s.now.rndseed.toNat a b
      let lo := add (A 0) (A 1)
      let hi := add (A 2) (A 3)
      let all := add lo.1 hi.1
      gives (.vfredadd o) all.1 (lo.2 ||| hi.2 ||| all.2)))

/-- Moving lanes (R109, R112): permute, zip, unzip and slide under the mask, compress and expand by it, and the moves between lanes and scalars. -/
def Obligations.Vector_lane_moves : Prop :=
  (∀ (o : V3) (s : State), s.Ready o.s [vr o.d, vr o.a, vr o.b] →
    let w := o.t.bits
    let L := o.t.lanes
    let A := lane w (s.now.getV o.a.toNat)
    let B := lane w (s.now.getV o.b.toNat)
    let gives (i : Instr) (f : Nat → Nat) : Prop :=
      ∃ v, exec i s = .next (s.after fun x => (x.setV o.d.toNat v).orFlags 0) ∧
        ∀ k, k < L → lane w v k = if (s.now.getM o.m.toNat).getLsbD k then f k else lane w (s.now.getV o.d.toNat) k
    gives (.vperm o) (fun k => if B k < L then A (B k) else 0) ∧ gives (.vzip o) (fun k => if k % 2 = 0 then A (k / 2) else B (k / 2)) ∧
    gives (.vunzip o) (fun k => if k < L / 2 then A (2 * k) else B (2 * k - L)) ∧
    gives (.vslide o) (fun k => let j : Int := k + (((s.now.getV o.b.toNat).extractLsb' 0 5).toInt); if 0 ≤ j ∧ j < L then A j.toNat else 0)) ∧
  (∀ (o : V2) (s : State), s.Ready o.s [vr o.d, vr o.a] →
    let w := o.t.bits
    let act (k : Nat) : Bool := (s.now.getM o.m.toNat).getLsbD k
    let A := lane w (s.now.getV o.a.toNat)
    let at' (k : Nat) : Nat := ((List.range k).filter act).length
    (∃ v, exec (.vcompress o) s = .next (s.after fun x => x.setV o.d.toNat v) ∧
      (∀ k, k < o.t.lanes → act k = true → lane w v (at' k) = A k) ∧ ∀ j, at' o.t.lanes ≤ j → j < o.t.lanes → lane w v j = 0) ∧
    (∃ v, exec (.vexpand o) s = .next (s.after fun x => x.setV o.d.toNat v) ∧
      ∀ k, k < o.t.lanes → lane w v k = if act k then A (at' k) else 0)) ∧
  (∀ (o : VG) (s : State), s.Ready o.s [vr o.d, gr o.g] →
    ∃ v, exec (.vbcast o) s = .next (s.after fun x => x.setV o.d.toNat v) ∧ ∀ k, k < o.t.lanes →
      lane o.t.bits v k = if (s.now.getM o.m.toNat).getLsbD k then (s.now.getG o.g.toNat).toNat % 2 ^ o.t.bits
        else lane o.t.bits (s.now.getV o.d.toNat) k) ∧
  (∀ (o : VL) (s : State), s.Ready o.s [vr o.d, gr o.g] → o.l.toNat < o.t.lanes →
    exec (.vext o) s = .next (s.after fun x => x.setG o.g.toNat (BitVec.ofInt 64 (laneI o.t (s.now.getV o.d.toNat) o.l.toNat))) ∧
    ∃ v, exec (.vins o) s = .next (s.after fun x => x.setV o.d.toNat v) ∧ ∀ k, k < o.t.lanes →
      lane o.t.bits v k = if k = o.l.toNat then (s.now.getG o.g.toNat).toNat % 2 ^ o.t.bits else lane o.t.bits (s.now.getV o.d.toNat) k)

/-- LNEST begins once nothing of its thread is outstanding (R116): its base registers are read at the start, its first index is 0 or, after TRET
with NEST set in TRAPINFO, the index found there (R117); with every iteration done already it goes on past its eight words. A step of a running nest
(R114-R118) is made once the writes of the step before it are performed and no earlier access of the thread orders it: an iteration whose lane of the
mask is inactive does nothing; when the step's iterations complete, the nest stands at the iteration after them with their writes to be performed in
the next cycle, or goes on when none is left; a trap is taken at its iteration, whose index TRAPINFO names, with the writes before it performed. -/
def Obligations.Loop_nests : Prop :=
  (∀ (o : Nest) (s : State), s.Ready true [gr o.bd, gr o.ba, gr o.bb] →
     let start := if s.now.resumed && s.now.trapinfo.getLsbD 63 then s.now.trapinfo.toNat % 2 ^ 55 else 0
     let total := (o.levels.map fun l => l.ext.toNat + 1).foldl (· * ·) 1
     (start < total → ∃ r, exec (.lnest o) s = .next { s.setCtx s.cur { s.now with busy := .nest r, resumed := false, handlerFirst := false } with
         slots := s.cur.core :: s.slots } ∧
       r.nest = o ∧ r.t = start ∧ r.a = s.now.getG o.ba.toNat ∧ r.b = s.now.getG o.bb.toNat ∧ r.d = s.now.getG o.bd.toNat ∧
       r.mode = if o.rm = 7 then s.now.rm else o.rm.toNat) ∧
     (total ≤ start → exec (.lnest o) s = .next (s.setCtx s.cur ({ s.now with busy := .idle }.advance 8)))) ∧
  (∀ (s : State) (c : CtxId) (r : NestRun), s.arg = .ctx c → (s.ctx c).busy = .nest r →
     (r.writes ≠ [] → exec .lnestStep s = .next ((s.nestWrites r.nest.t.bytes r.writes).nestAt c { r with writes := [] })) ∧
     (r.writes = [] → s.poolHeld c = true → exec .lnestStep s = .next s) ∧
     (r.writes = [] → s.poolHeld c = false →
       (∀ s' r', s.iterations c r (min r.group (nestTotal r.nest - r.t)) = (s', r', none) → exec .lnestStep s =
         .next (if r'.writes = [] then s'.nestAt c r' else (s'.nestAt c r').later 1 none .lnestStep (.pair c.core c.k))) ∧
       (∀ s' r' t, s.iterations c r (min r.group (nestTotal r.nest - r.t)) = (s', r', some (.trap t)) →
         exec .lnestStep s = .next (((s'.nestWrites r'.nest.t.bytes r'.writes).setCtx c
           { s'.ctx c with busy := .nest { r' with writes := [] } }).takeTrap c t) ∧
         t.info = BitVec.ofNat 64 (2 ^ 63 + r'.t % 2 ^ 55))) ∧
     (∀ i0, (indexes r.t (nestExts r.nest)).headD 0 = i0 → ((s.ctx c).getM r.nest.m.toNat).getLsbD (i0 % r.nest.t.lanes) = false →
       s.iterate c r = .ok (s, none))) ∧
  (∀ (s : State) (core k : Nat) (r : NestRun), s.arg = .pair core k → (s.ctx ⟨core, k⟩).busy = .nest r →
     exec .lnestStep s = .next ((s.nestWrites r.nest.t.bytes r.writes).nestAt ⟨core, k⟩ { r with writes := [] })) ∧
  (∀ (s : State) (e l v : Nat) (ws : List (Nat × Nat)), rising s.mem = true → ws.all (fun w => decide (w.1 + e ≤ l ∨ l + e ≤ w.1)) = true →
     (s.nestWrites e ((l, v) :: ws)).read l e = v % 2 ^ (8 * e))

/-- Numbers in memory lie lowest byte first (R3): byte k of what a range reads as is the byte at its location k, and a write of a range is read
back, cut to the range, and leaves every byte outside it as it was. The checks of an access at issue come before anything else of it (R23, R144,
R147, R148): an address of no valid form, outside the mesh or outside the job's rectangle traps as R23 says, a misaligned one traps MISALIGN, and a
SELF address of a protected area traps PROTECT, each exact, with the address in TRAPVAL. The table of R23 in full, for every 64-bit address: SELF, CORE,
CLUSTER, DEVICE and PEER addresses with every must-be-zero bit clear name their homes, a PEER address of the own device the DEVICE address with its
virtual address; MESH_BOUNDS outside the mesh, PROTECT outside the job's rectangle, and BOUNDS for a device number above 767 and for every address of
no such form. -/
def Obligations.Accesses_are_checked_first : Prop :=
  (∀ (s : State) (core : Nat) (a : Word),
    let selfA (off : Nat) : Prop := off < 2 ^ 20 ∧ a.toNat = off
    let coreA (x y off : Nat) : Prop := x < 128 ∧ y < 128 ∧ off < 2 ^ 20 ∧ a.toNat = 1 * 2 ^ 61 + x * 2 ^ 53 + y * 2 ^ 46 + off
    let clusterA (x y off : Nat) : Prop := x < 16 ∧ y < 32 ∧ off < 2 ^ 21 ∧ a.toNat = 2 * 2 ^ 61 + x * 2 ^ 56 + y * 2 ^ 51 + off
    let deviceA (va : Nat) : Prop := va < 2 ^ 48 ∧ a.toNat = 3 * 2 ^ 61 + va
    let peerA (n va : Nat) : Prop := n < 1024 ∧ va < 2 ^ 48 ∧ a.toNat = 4 * 2 ^ 61 + n * 2 ^ 48 + va
    (∀ off, selfA off → s.place core a = .ok (.pool core off)) ∧
    (∀ x y off, coreA x y off → s.place core a =
      if 47 < x ∨ 63 < y then .error (exact cMesh a 0)
      else if s.inRect (s.jobOf core) (48 * y + x) = true then .ok (.pool (48 * y + x) off) else .error (exact cProtect a 0)) ∧
    (∀ x y off, clusterA x y off → s.place core a =
      if 11 < x then .error (exact cMesh a 0)
      else if s.clusterInRect (s.jobOf core) (12 * y + x) = true then .ok (.store (12 * y + x) off) else .error (exact cProtect a 0)) ∧
    (∀ va, deviceA va → s.place core a = .ok (.device va)) ∧
    (∀ n va, peerA n va → s.place core a =
      if 767 < n then .error (exact cBounds a 0) else if n = s.devnum then .ok (.device va) else .ok (.peer n va)) ∧
    ((∀ x y z, ¬ selfA x ∧ ¬ coreA x y z ∧ ¬ clusterA x y z ∧ ¬ deviceA x ∧ ¬ peerA x y) → s.place core a = .error (exact cBounds a 0))) ∧
  ((∀ (s : State) (loc n : Nat), s.read loc n < 2 ^ (8 * n) ∧ ∀ k, k < n → s.read loc n / 2 ^ (8 * k) % 256 = (s.byte (loc + k)).toNat) ∧
   (∀ (s : State) (loc n v : Nat), rising s.mem = true → (s.write loc n v).read loc n = v % 2 ^ (8 * n)) ∧
   (∀ (s : State) (loc n v l : Nat), l < loc ∨ loc + n ≤ l → (s.write loc n v).byte l = s.byte l)) ∧
  (∀ (s : State) (d a b : BitVec 6) (vd : BitVec 5) (p : BitVec 8) (ord : MOrd) (z : Size) (sm : Bool) (c : Trap),
     let base := s.now.getG a.toNat
     let at' (n : Nat) : Word := base + BitVec.ofInt 64 (p.toInt * n)
     let bad (e : Word) (n : Nat) : Prop :=
       s.place s.cur.core e = .error c ∨
       ((∃ q, s.place s.cur.core e = .ok q) ∧ e.toNat % n ≠ 0 ∧ c = exact cMisalign e 0) ∨
       ((∃ q, s.place s.cur.core e = .ok q) ∧ e.toNat % n = 0 ∧ isSelf e = true ∧
         s.poolRangeProtected (s.jobOf s.cur.core) s.cur.core (bits e 19 0) n = true ∧ c = exact cProtect e 0)
     let traps (i : Instr) (rs : List Reg) : Prop := s.Ready sm rs → exec i s = .next (s.raise s.cur c)
     (bad (at' z.bytes) z.bytes → traps (.ld ⟨sm, d, a, ord, z, p⟩) [gr d, gr a] ∧ traps (.st ⟨sm, d, a, ord, z, p⟩) [gr d, gr a]) ∧
     (bad (at' 16) 16 → traps (.ldv ⟨sm, vd, a, ord, p⟩) [vr vd, gr a] ∧ traps (.stv ⟨sm, vd, a, ord, p⟩) [vr vd, gr a]) ∧
     (bad (at' 8) 8 → traps (.ldf ⟨sm, d, a, ord, p⟩) [gr d, gr a] ∧ traps (.ldt ⟨sm, d, a, ord, p⟩) [gr d, gr a] ∧
       traps (.stf ⟨sm, d, a, ord, p⟩) [gr d, gr a] ∧ traps (.stw ⟨sm, d, a, ord, p⟩) [gr d, gr a]) ∧
     (bad base 8 → traps (.fee ⟨sm, a, d, ord⟩) [gr a, gr d] ∧ traps (.feq ⟨sm, a, d, ord⟩) [gr a, gr d] ∧
       traps (.amoAdd ⟨sm, a, b, d, ord⟩) [gr a, gr b, gr d] ∧ traps (.amoSwap ⟨sm, a, b, d, ord⟩) [gr a, gr b, gr d] ∧
       traps (.cas ⟨sm, a, b, d, ord⟩) [gr a, gr b, gr d]) ∧
     (bad base 4 → traps (.amoFadd ⟨sm, a, b, d, ord⟩) [gr a, gr b, gr d]))

/-- Loads, stores and full/empty operations on the core's own pool are performed in their issue cycle (R149, R163): here with nothing of the thread
outstanding, no poison and no waiter at the word. A load or LDV gives the number at the address, a store writes the low bytes of its register, LDF
gives a full word, LDT gives it and leaves it empty, STW fills an empty word, STF fills the word whatever it was, FEE gives the full/empty bit and
clears it, and FEQ gives it. A load or a store is plain only where its marks can be made. -/
def Obligations.Own_pool_loads_and_stores : Prop :=
  ∀ (s : State) (d a : BitVec 6) (vd : BitVec 5) (p : BitVec 8) (ord : MOrd) (z : Size) (sm : Bool),
    s.noneOut → s.jobOf s.cur.core ≠ 0 →
    let base := s.now.getG a.toNat
    let at' (n : Nat) : Word := base + BitVec.ofInt 64 (p.toInt * n)
    let loc (e : Word) : Nat := 2 ^ 40 + s.cur.core * 2 ^ 20 + e.toNat % 2 ^ 20
    let mine (e : Word) (n : Nat) : Prop := isSelf e = true ∧ ∃ q, s.checkAccess s.cur.core e n = .ok q
    let sound (e : Word) (n : Nat) : Prop := s.poisoned (loc e) n = none
    let marks (w : Bool) (e : Word) (n : Nat) : Prop := ord = .plain → s.marksAllow w (loc e) n
    let lone (e : Word) : Prop := ∀ w ∈ s.waiters, w.loc ≠ loc e
    let gives (i : Instr) (u : State) (v : Vec) (r : Option Reg) : Prop := ∃ t, exec i s = .next t ∧ s.Performed t u v r
    let stores (i : Instr) (u : State) : Prop := ∃ t, exec i s = .next t ∧ s.Stored t u
    (s.Ready sm [gr d, gr a] → mine (at' z.bytes) z.bytes → sound (at' z.bytes) z.bytes →
      (marks false (at' z.bytes) z.bytes →
        gives (.ld ⟨sm, d, a, ord, z, p⟩) s (BitVec.ofNat 128 (s.read (loc (at' z.bytes)) z.bytes)) (some (gr d))) ∧
      (marks true (at' z.bytes) z.bytes →
        stores (.st ⟨sm, d, a, ord, z, p⟩) (s.write (loc (at' z.bytes)) z.bytes (s.now.getG d.toNat).toNat))) ∧
    (s.Ready sm [vr vd, gr a] → mine (at' 16) 16 → sound (at' 16) 16 →
      (marks false (at' 16) 16 → gives (.ldv ⟨sm, vd, a, ord, p⟩) s (BitVec.ofNat 128 (s.read (loc (at' 16)) 16)) (some (vr vd))) ∧
      (marks true (at' 16) 16 → stores (.stv ⟨sm, vd, a, ord, p⟩) (s.write (loc (at' 16)) 16 (s.now.getV vd.toNat).toNat))) ∧
    (s.Ready sm [gr d, gr a] → mine (at' 8) 8 → sound (at' 8) 8 → lone (at' 8) →
      let l := loc (at' 8)
      let v := (s.rd64 l).zeroExtend 128
      let x := s.now.getG d.toNat
      (s.full l = true → gives (.ldf ⟨sm, d, a, ord, p⟩) s v (some (gr d)) ∧ gives (.ldt ⟨sm, d, a, ord, p⟩) (s.setFull l false) v (some (gr d))) ∧
      (s.full l = false → gives (.stw ⟨sm, d, a, ord, p⟩) ((s.wr64 l x).setFull l true) 0 none) ∧
      (marks true (at' 8) 8 → stores (.stf ⟨sm, d, a, ord, p⟩) ((s.wr64 l x).setFull l true))) ∧
    (s.Ready sm [gr a, gr d] → mine base 8 → sound base 8 → lone base →
      let b : Vec := if s.full (loc base) = true then 1 else 0
      gives (.feq ⟨sm, a, d, ord⟩) s b (some (gr d)) ∧ gives (.fee ⟨sm, a, d, ord⟩) (s.setFull (loc base) false) b (some (gr d)))

/-- The atomics on the core's own pool (R168, R169), under the same conditions: the old value returns, and the word holds the value of the
operation; AMO.fadd adds two F32 numbers of 4 bytes, and CAS stores where the word equals the expected value in g[D]. -/
def Obligations.Own_pool_atomics : Prop :=
  ∀ (s : State) (o : KABDO), s.noneOut → s.jobOf s.cur.core ≠ 0 → s.Ready o.s [gr o.a, gr o.b, gr o.d] →
    let e := s.now.getG o.a.toNat
    let b := s.now.getG o.b.toNat
    let loc := 2 ^ 40 + s.cur.core * 2 ^ 20 + e.toNat % 2 ^ 20
    isSelf e = true → s.poisoned loc 8 = none →
    let old := s.rd64 loc
    let gives (i : Instr) (u : State) (v : Vec) : Prop := ∃ t, exec i s = .next t ∧ s.Performed t u v (some (gr o.d))
    let sets (i : Instr) (new : Word) : Prop := gives i (s.wr64 loc new) (old.zeroExtend 128)
    ((∃ q, s.checkAccess s.cur.core e 8 = .ok q) →
      sets (.amoAdd o) (old + b) ∧ sets (.amoAnd o) (old &&& b) ∧ sets (.amoOr o) (old ||| b) ∧ sets (.amoXor o) (old ^^^ b) ∧
      sets (.amoMinS o) (if old.toInt ≤ b.toInt then old else b) ∧ sets (.amoMinN o) (if old.toNat ≤ b.toNat then old else b) ∧
      sets (.amoMaxS o) (if old.toInt ≤ b.toInt then b else old) ∧ sets (.amoMaxN o) (if old.toNat ≤ b.toNat then b else old) ∧
      sets (.amoSwap o) b ∧
      gives (.cas o) (if old = s.now.getG o.d.toNat then s.wr64 loc b else s) (old.zeroExtend 128)) ∧
    ((∃ q, s.checkAccess s.cur.core e 4 = .ok q) → s.poisoned loc 4 = none →
      gives (.amoFadd o) (s.write loc 4 (fAdd .f32 rmRNE 0 (s.read loc 4) (b.toNat % 2 ^ 32)).1)
        (BitVec.ofNat 128 (s.read loc 4)))

/-- An access to any other home is issued as an operation (R43, R149): it stands among the outstanding ones with its address and what it does, its
destination pending, and the thread goes on; a posted store takes the next free entry of its core's journal, unless it merges into one. A fallible
operation waits while the outstanding ones and the unreported entries of the fault list are four (R123). -/
def Obligations.Accesses_to_other_homes_are_issued : Prop :=
  ∀ (s : State) (d a b : BitVec 6) (vd : BitVec 5) (p : BitVec 8) (ord : MOrd) (z : Size) (sm : Bool),
    let base := s.now.getG a.toNat
    let at' (n : Nat) : Word := base + BitVec.ofInt 64 (p.toInt * n)
    let other (e : Word) (n : Nat) : Prop := isSelf e = false ∧ ∃ q, s.checkAccess s.cur.core e n = .ok q
    let goes (i : Instr) (body : OpBody) (e : Word) (r : Option Reg) : Prop :=
      (s.fallibleFull s.cur = false → ∃ t, exec i s = .next t ∧ s.Issued t body e r) ∧
      (s.fallibleFull s.cur = true → s.outstanding s.cur = true → exec i s = .next (s.marker s.cur)) ∧
      (∀ c fs, s.fallibleFull s.cur = true → s.outstanding s.cur = false → s.now.faultTrap = some (c, fs) →
        exec i s = .next ((s.setCtx s.cur { s.now with faults := fs }).takeTrap s.cur c))
    let posts (i : Instr) (kind n : Nat) (v : Vec) (e : Word) : Prop :=
      s.ops = [] → ∃ t q, exec i s = .next t ∧ s.Issued t (.store kind n v) e none ∧ t.ops = [q] ∧
        q.jidx = some ((s.core s.cur.core).jnext % 64) ∧ ⟨s.cycle + 1, none, .journalLeave, .num s.nextId⟩ ∈ t.agenda
    (other (at' z.bytes) z.bytes → s.Ready sm [gr d, gr a] →
      goes (.ld ⟨sm, d, a, ord, z, p⟩) (.load z.bytes) (at' z.bytes) (some (gr d)) ∧
      posts (.st ⟨sm, d, a, ord, z, p⟩) 0 z.bytes (BitVec.ofNat 128 ((s.now.getG d.toNat).toNat % 2 ^ (8 * z.bytes))) (at' z.bytes)) ∧
    (other (at' 16) 16 → s.Ready sm [vr vd, gr a] →
      goes (.ldv ⟨sm, vd, a, ord, p⟩) (.load 16) (at' 16) (some (vr vd)) ∧
      posts (.stv ⟨sm, vd, a, ord, p⟩) 1 16 (s.now.getV vd.toNat) (at' 16)) ∧
    (other (at' 8) 8 → s.Ready sm [gr d, gr a] →
      goes (.ldf ⟨sm, d, a, ord, p⟩) (.fullEmpty 0 0) (at' 8) (some (gr d)) ∧
      goes (.ldt ⟨sm, d, a, ord, p⟩) (.fullEmpty 1 0) (at' 8) (some (gr d)) ∧
      goes (.stw ⟨sm, d, a, ord, p⟩) (.fullEmpty 2 (s.now.getG d.toNat)) (at' 8) none ∧
      posts (.stf ⟨sm, d, a, ord, p⟩) 2 8 ((s.now.getG d.toNat).zeroExtend 128) (at' 8)) ∧
    (other base 8 → s.Ready sm [gr a, gr d] →
      goes (.fee ⟨sm, a, d, ord⟩) (.fullEmpty 3 0) base (some (gr d)) ∧ goes (.feq ⟨sm, a, d, ord⟩) (.fullEmpty 4 0) base (some (gr d))) ∧
    (other base 8 → s.Ready sm [gr a, gr b, gr d] →
      let x := s.now.getG b.toNat
      goes (.amoAdd ⟨sm, a, b, d, ord⟩) (.amo 0x03 x) base (some (gr d)) ∧ goes (.amoSwap ⟨sm, a, b, d, ord⟩) (.amo 0x0B x) base (some (gr d)) ∧
      goes (.cas ⟨sm, a, b, d, ord⟩) (.cas (s.now.getG d.toNat) x) base (some (gr d)))

/-- HOME_ACCESS performs an operation at its home in one step (R143, R163, R168, R169): a load gives the number at the location, an atomic (AMO.add
and AMO.swap) gives the old word and writes the new one, CAS writes where the word equals the expected value, LDF and LDT give a full word, STW
fills an empty one, FEE and FEQ give the full/empty bit; a posted store is written and its journal entry accepted, and a full/empty operation whose
condition does not hold is answered "not ready". What a home refuses writes no byte: an access of a stamp that is not accepted is discarded and
counted (R320), one at a home whose die is OFF or in RESET is answered ENDPOINT_DOWN (R339), and one to an area that the machine keeps from the job,
the engine save area or the window page of a cluster store (R240), granule 0, the system area or a work list's area of a pool (R12, R280), or to a
retired granule (R362) is answered PROTECT. -/
def Obligations.Homes_perform_accesses : Prop :=
  ((∀ (s : State) (o : Op) (l : Nat), s.arg = .num o.id → s.op o.id = some o → o.performed = false ∧ o.reason = 0 ∧ o.mx = false ∧ o.left = true →
     o.loc = some l → l < 2 ^ 60 →
     let plain : Prop := (∃ n, o.body = .load n) ∨ (∃ k n v, o.body = .store k n v) ∨ (∃ f v, o.body = .amo f v) ∨ (∃ x y, o.body = .cas x y) ∨
       ∃ f d, o.body = .fullEmpty f d
     (s.homeDown l = false → s.stampOk o.job o.gen = false → o.body ≠ .mxstat →
       exec .homeAccess s = .next ((s.dropOp o.id).refuseStamp) ∧ s.sameMemory ((s.dropOp o.id).refuseStamp) ∧
       ∀ k, ((s.dropOp o.id).refuseStamp).full k = s.full k) ∧
     (plain → s.homeDown l = true → o.toIsland l = false →
       exec .homeAccess s = .next (s.answer o (.refused cEndpoint 0 0)) ∧ s.sameMemory (s.answer o (.refused cEndpoint 0 0))) ∧
     (plain → s.homeDown l = false → s.stampOk o.job o.gen = true → ¬ (2 ^ 42 ≤ l ∧ 0x1FFF00 ≤ (l - 2 ^ 42) % 2 ^ 21) →
       s.locProtected o.job l o.body.size = true ∨ s.granuleRetired l o.body.size = true →
       exec .homeAccess s = .next (s.answer o (.refused cProtect 0 0)) ∧ s.sameMemory (s.answer o (.refused cProtect 0 0)) ∧
       ∀ k, (s.answer o (.refused cProtect 0 0)).full k = s.full k)) ∧
   (∀ (s : State) (job l n : Nat), 0 < n →
     (∀ k off, l = 2 ^ 42 + 2 ^ 21 * k + off → off + n ≤ 2 ^ 21 → (s.locProtected job l n = true ↔ 0x1FDF00 < off + n)) ∧
     (∀ core off, l = 2 ^ 40 + 2 ^ 20 * core + off → core < 3072 → off + n ≤ 2 ^ 20 →
       (s.locProtected job l n = true ↔ ∃ i, i < n ∧ ((off + i) / 4096 = 0 ∨ (job ≠ 0 ∧ (off + i) / 4096 ≤ partSys (s.core core).partword) ∨
         ∃ e, (e ∈ (s.core core).lists ∨ (s.core core).pairq = some e) ∧ e.area ≤ off + i ∧ off + i < e.area + e.areaBytes))) ∧
     (l < 2 ^ 40 → (s.granuleRetired l n = true ↔ ∃ g ∈ s.badGranules, 4096 * g < l + n ∧ l < 4096 * (g + 1))))) ∧
  ∀ (s : State) (o : Op) (l : Nat), s.AtHome o l → (∀ w ∈ s.waiters, w.loc ≠ l) → o.plain = false →
    let gives (u : State) (v : Vec) : Prop := ∃ t, exec .homeAccess s = .next t ∧ s.Answered t u o v
    let full := s.full l
    let v := (s.rd64 l).zeroExtend 128
    (∀ n, o.body = .load n → o.jidx = none → gives s (BitVec.ofNat 128 (s.read l n))) ∧
    (∀ b, o.body = .amo 0x03 b → o.jidx = none → gives (s.wr64 l (s.rd64 l + b)) v) ∧
    (∀ b, o.body = .amo 0x0B b → o.jidx = none → gives (s.wr64 l b) v) ∧
    (∀ x y, o.body = .cas x y → o.jidx = none → gives (if s.rd64 l = x then s.wr64 l y else s) v) ∧
    (∀ d, o.body = .fullEmpty 0 d → o.jidx = none → full = true → gives s v) ∧
    (∀ d, o.body = .fullEmpty 1 d → o.jidx = none → full = true → gives (s.setFull l false) v) ∧
    (∀ d, o.body = .fullEmpty 2 d → o.jidx = none → full = false → gives ((s.wr64 l d).setFull l true) 0) ∧
    (∀ d, o.body = .fullEmpty 3 d → o.jidx = none → gives (s.setFull l false) (if full = true then 1 else 0)) ∧
    (∀ d, o.body = .fullEmpty 4 d → o.jidx = none → gives s (if full = true then 1 else 0)) ∧
    (∀ d fn, o.body = .fullEmpty fn d → (fn ≤ 1 ∧ full = false ∨ fn = 2 ∧ full = true) →
      ∃ t n p, exec .homeAccess s = .next t ∧ s.sameMemory t ∧ ⟨n, some p, .feRetry, .num o.id⟩ ∈ t.agenda) ∧
    (∀ kind n x i, o.body = .store kind n x → kind < 2 → o.jidx = some i →
      ∃ t k p, exec .homeAccess s = .next t ∧ (s.write l n x.toNat).sameMemory t ∧ ⟨k, some p, .journalAccept, .num o.id⟩ ∈ t.agenda ∧
        t.op o.id = some { o with performed := true })

/-- FENCE, PREF, STC and LDX (R170, R171, R173, R174). FENCE stands among the operations until its conditions hold, which the next cycle first looks
at. PREF changes no register and no byte; that it may fill a translation is the model's reading (log entry 32). STC traps BOUNDS on a control word
out of range, and, with its source and reservation good, begins its scan in its own slot and scans 16 bytes a slot as plain accesses, each once no
earlier access of the thread orders it. LDX of an
address outside the own pool is issued with its destination and capacity. -/
def Obligations.Fences_prefetches_and_packing : Prop :=
  (∀ (o : KFence) (s : State), s.Ready o.s [] → ∃ t, exec (.fence o) s = .next t ∧ s.sameMemory t ∧ s.otherCtxs t s.cur ∧
    (∃ q ∈ t.ops, q.id = s.nextId ∧ q.body = .fence ∧ q.ord = o.o ∧ q.scope = o.c) ∧
    ⟨s.cycle + 1, none, .markClear, .num s.nextId⟩ ∈ t.agenda ∧
    (rising s.ctxs = true → ∃ n, t.ctx s.cur = { s.now.advance 1 with region := n })) ∧
  (∀ (o : KA) (s : State), s.Ready o.s [gr o.a] → ∃ t, exec (.pref o) s = .next t ∧ s.sameMemory t ∧ s.otherCtxs t s.cur ∧ t.ops = s.ops ∧
    (rising s.ctxs = true → t.ctx s.cur = s.now.advance 1)) ∧
  (∀ (o : KABDO) (s : State), s.Ready true [gr o.a, gr o.b, gr o.d] →
    let src := s.now.getG o.a.toNat
    let res := s.now.getG o.b.toNat
    let w := s.now.getG o.d.toNat
    (bits w 31 20 ≠ 0 ∨ bits w 63 48 ≠ 0 ∨ bits w 15 0 = 0 ∨ 4096 < bits w 15 0 ∨ 10 < bits w 19 16 →
      exec (.stc o) s = .next (s.raise s.cur (exact cBounds w 0))) ∧
    (s.stcTrap s.cur.core src res w = none → ∃ t, exec (.stc o) s = .next t ∧ s.sameMemory t ∧ t.slots = s.cur.core :: s.slots ∧
      (rising s.ctxs = true → (t.ctx s.cur).busy = .stcScan o src res w [] ∧ (t.ctx s.cur).pc = s.now.pc))) ∧
  (∀ (s t : State) (c : CtxId) (o : KABDO) (src res w : Word) (got : List Byte) (k : Nat), s.arg = .ctx c →
    let x := s.ctx c
    let l := 2 ^ 40 + c.core * 2 ^ 20 + (src.toNat % 2 ^ 20 + got.length)
    x.busy = .stcScan o src res w got →
    (s.poolHeld c = true → exec .stcScanStep s = .next s) ∧
    (got.length + 16 < stcBytes w → s.poison = [] → s.poolHeld c = false →
      s.markLines ⟨none, c⟩ x.region false (s.markable l 16) = (.ok t, k) →
      exec .stcScanStep s = .next (t.setCtx c { t.ctx c with busy := .stcScan o src res w (got ++ t.seenBytes l 16) }))) ∧
  (∀ (o : KABDO) (s : State), s.Ready o.s [gr o.a, gr o.b, gr o.d] →
    let a := s.now.getG o.a.toNat
    let dst := s.now.getG o.b.toNat
    let cap := s.now.getG o.d.toNat
    isSelf a = false → (∃ q, s.checkAccess s.cur.core a 16 = .ok q) → s.rangeTrap s.cur.core dst (cap.toNat % 2 ^ 32) 1 = none →
    (cap.toNat < 2 ^ 32 → s.fallibleFull s.cur = false →
      ∃ t, exec (.ldx o) s = .next t ∧ s.Issued t (.ldx dst cap) a (some (gr o.d))) ∧
    (2 ^ 32 ≤ cap.toNat → exec (.ldx o) s = .next (s.raise s.cur (exact cBounds cap 0))))

/-- The packed form keeps what it packs (R172-R174): its length is the LEN of its header, and expanding its mask and its values, as LDX reads them
from it, gives the source elements back, for every type and every count of elements up to 4096. -/
def Obligations.Packed_forms_expand_to_their_source : Prop :=
  ∀ (ty count : Nat) (src : List Byte), ty ≤ 10 → 1 ≤ count → count ≤ 4096 →
    let e := tyBytes ty
    src.length = count * e →
    let form := packForm ty count src
    let hdr := leNat (form.take 8)
    let nnz := hdr / 2 ^ 32
    form.length = leNat ((form.drop 8).take 8) ∧ form.length % 16 = 0 ∧ hdr % 2 ^ 32 = count + ty * 2 ^ 16 + 2 ^ 20 ∧ nnz ≤ count ∧
    expandElements e count (((form.drop 16).take (packMask count)).flatMap fun b => (List.range 8).map b.getLsbD)
      (elements e nnz (form.drop (16 + packMask count))) = src

/-- What returns to a thread (R43, R90, R123, R151, R154, R160, R170, R401): a result is written with its flags and its pending bit cleared; a fault
stands at the end of the fault list, and the destination, no longer pending, keeps its old value; the result of an operation that a continuation
owns is written into its record's slot; a fence with nothing before it clears the marks of its scope, and it is performed once no other part still
holds one of them (R154), looking again in the next cycle; a request for an implicit release clears all of the context's on this part (log entry 29); a journal entry that nothing holds leaves, an accepted one is free, and a refused one is
held with its reason. The end of a wait in MARKER (R46, R54): with nothing outstanding, a fault to be reported is taken first, then the cause that
was found before the wait, and otherwise the context runs on in the same slot; and a context that waits for a pool entry tries again (R190). -/
def Obligations.Results_and_waits_end : Prop :=
  ((∀ (s : State) (id : Nat) (o : Op) (v : Vec) (fl : BitVec 9), s.arg = .answer id none → s.Live id o → o.body = .result v fl →
     exec .longResultReturn s = .next ((s.dropOp o.id).setCtx o.ctx ((s.ctx o.ctx).delivered o.dst v fl))) ∧
   (∀ (s : State) (id cause : Nat) (addr : Word) (o : Op), s.arg = .fault id cause addr → s.Live id o →
     let x := s.ctx o.ctx
     let y := match o.dst with
       | some d => x.clearPend d
       | none => x
     x.faults.length < 4 →
     ∃ f : FaultEntry, f.cause = cause ∧ f.addr = addr ∧ f.reported = false ∧ f.inTrap = x.intrap ∧ f.op.word = o.word ∧ f.op.pc = o.pc ∧
       exec .fallibleOpFault s = .next ((s.dropOp id).setCtx o.ctx { y with faults := x.faults ++ [f] })) ∧
   (∀ (s : State) (id l at' : Nat) (o : Op) (r : Word) (v : Vec) (n : Nat), s.arg = .num id → s.op id = some o → o.record = some r →
     o.replay = false → o.body = .result v 0 → o.dst = some (.g n) → bits r 63 61 = 1 → s.recordLoc o.job r = some l → s.slotOf l (.g n) = some at' →
     bits (s.rd64 (l + 16)) 62 59 ≠ 7 →
     exec .continuationResultFill s = .next ((s.dropOp id).wr64 at' (v.truncate 64))) ∧
   (∀ (s : State) (id : Nat) (o : Op), s.arg = .num id → s.op id = some o → o.body = .fence → s.before o = [] →
     let t := if o.releases then s.clearMarks o.ctx o.region o.scope else s
     ((o.releases = true → t.marksLeft o = false) → exec .markClear s = .next (t.dropOp id)) ∧
     (o.releases = true → t.marksLeft o = true → exec .markClear s = .next (t.later 1 none .markClear (.num id)))) ∧
   (∀ (s : State) (c : CtxId), s.arg = .ctx c → ∃ t, exec .implicitReleaseRequest s = .next t ∧ s.sameMemory t ∧ t.ctxs = s.ctxs ∧
     t.ops = s.ops ∧ t.marks = s.marks.filter fun m => !(m.who == ⟨none, c⟩ && decide (m.region ≤ (s.ctx c).region))) ∧
   (∀ (s : State) (id kind n : Nat) (v : Vec) (o : Op), s.arg = .num id → s.op id = some o → o.id = id → o.left = false → o.record = none →
     o.body = .store kind n v → s.before o = [] → (o.releases = true → s.marksLeft o = false) →
     ∃ t loc, exec .journalLeave s = .next t ∧ s.sameMemory t ∧ t.op id = some { o with left := true, loc := loc } ∧ t.ctxs = s.ctxs) ∧
   (∀ (s : State) (id : Nat) (o : Op), s.arg = .num id → s.op id = some o → ∃ t, exec .journalAccept s = .next t ∧ s.sameMemory t ∧
     t.ops = s.ops.filter (fun p => p.id != id) ∧ (rising s.ctxs = true → ∀ c ∈ s.coreCtxs o.ctx.core, (t.ctx c).st ≠ .stalled)) ∧
   (∀ (s : State) (id cause : Nat) (o : Op), s.arg = .pair id cause → s.op id = some o → o.id = id →
     ∃ t, exec .journalRefuse s = .next t ∧ s.sameMemory t ∧ t.op id = some { o with reason := cause, performed := true } ∧
       (rising s.ctxs = true → (s.ctx o.ctx).thread = o.thread → (t.ctx o.ctx).st ≠ .stalled))) ∧
  ((∀ (s : State) (c : CtxId), s.arg = .ctx c → (s.ctx c).st = .marker → s.outstanding c = false →
     (∀ t fs, (s.ctx c).faultTrap = some (t, fs) → exec .markerWaitEnd s = .next ((s.setCtx c { s.ctx c with faults := fs }).takeTrap c t)) ∧
     (∀ t, (s.ctx c).faultTrap = none → (s.ctx c).trapDue = some t → exec .markerWaitEnd s = .next (s.takeTrap c t)) ∧
     ((s.ctx c).faultTrap = none → (s.ctx c).trapDue = none →
       exec .markerWaitEnd s =
         .next { s.setCtx c { s.ctx c with st := .running, blocked := false } with slots := c.core :: s.slots })) ∧
   (∀ (s : State) (c : CtxId) (k : Nat), s.arg = .ctx c → (s.ctx c).busy = .poolWait k →
     ((s.takeEntry (s.jobOf c.core)).isSome = true → exec .poolRetry s = .next (s.setCtx c { s.ctx c with st := .running, busy := .idle })) ∧
     (s.takeEntry (s.jobOf c.core) = none → s.poison = [] → ∃ t, exec .poolRetry s = .next t ∧ s.sameMemory t ∧ t.ctxs = s.ctxs ∧
       ⟨s.cycle + ctxCount (s.core c.core).partword, none, .poolRetry, .ctx c⟩ ∈ t.agenda)))

/-- Waits on full/empty words (R164, R165, R167, R195, R197): in its thread's slot an operation that was not ready is sent again while its turns last, and then, with a
free entry of the wait table, asks to park; its home performs it if its condition holds by then and else records the waiter; with no room there the
thread becomes a continuation in a pool entry; and the wake delivers the value to a thread that still holds its context. -/
def Obligations.Full_empty_waits : Prop :=
  (∀ (s : State) (id : Nat) (o : Op), s.arg = .num id → s.Live id o → o.id = id → (s.ctx o.ctx).rewrites = [] →
    let co := s.core o.ctx.core
    let turn := ctxCount co.partword
    let wait := (o.ctx.k + turn - s.cycle % turn) % turn
    (wait ≠ 0 → exec .feRetry s = .next (s.later wait none .feRetry (.num id))) ∧
    (wait = 0 → s.cycle < o.deadline → co.held = false → ∃ n p, exec .feRetry s = .next (s.later n (some p) .homeAccess (.num id))) ∧
    (∀ i fn d, wait = 0 → o.deadline ≤ s.cycle → co.freeEntry = some i → o.body = .fullEmpty fn d → ∃ t n p e, exec .feRetry s = .next t ∧
      s.sameMemory t ∧ t.ctxs = s.ctxs ∧ t.op id = some { o with widx := some i } ∧ ⟨n, some p, .feParkRequest, .num id⟩ ∈ t.agenda ∧
      t.cores = (s.setCore o.ctx.core { co with waits := mset none co.waits i (some e) }).cores ∧
      e.addr = o.addr ∧ e.fn = fn ∧ e.data = d ∧ e.op = id ∧ e.parked = false)) ∧
  (∀ (s : State) (id l i fn : Nat) (d : Word) (o : Op), s.arg = .num id → s.op id = some o → o.id = id → o.loc = some l → l < 2 ^ 60 →
    o.body = .fullEmpty fn d → s.homeDown l = false → o.wrec = none → o.widx = some i → o.jidx = none → fn ≤ 1 → (∀ w ∈ s.waiters, w.loc ≠ l) →
    (s.full l = true → ∃ t, exec .feParkRequest s = .next t ∧ s.sameMemory t ∧ t.full l = (fn == 0) ∧
      t.op id = some { o with widx := none, performed := true, body := .result ((s.rd64 l).zeroExtend 128) 0 } ∧
      t.cores = (s.freeWait o.ctx.core i).cores) ∧
    (s.full l = false → (s.waiters.filter fun w => w.index.isSome && homeOf w.loc == homeOf l).length < (homeOf l).waiterRoom →
      ∃ t w, exec .feParkRequest s = .next t ∧ s.sameMemory t ∧ t.op id = some { o with parked := true } ∧ t.waiters = s.waiters ++ [w] ∧
        w.loc = l ∧ w.fn = fn ∧ w.index = some i ∧ w.op = id ∧ w.job = o.job)) ∧
  (∀ (s t : State) (id : Nat) (o : Op), s.arg = .num id → s.op id = some o → o.record = none → (s.ctx o.ctx).thread = o.thread → s.parkInPool o 2 = some t → o.widx = none →
    ∃ n p, exec .feNoRoom s = .next (t.later n (some p) .feParkRequest (.num id))) ∧
  (∀ (s : State) (core i id fn : Nat) (v d : Word) (e : WaitEntry) (o : Op), s.arg = .wake core i id v →
    mget none (s.core core).waits i = some e → e.op = id → e.parked = false → s.Live id o → o.body = .fullEmpty fn d →
    exec .feWake s = .next (((s.freeWait core i).dropOp o.id).setCtx o.ctx ((s.ctx o.ctx).delivered o.dst (v.zeroExtend 128) 0)))

/-- The instructions of the message plane (R177-R182, R192): a message of at most four words to a core of the job's rectangle is issued as an
operation that the thread goes on past; SENDK takes its core by ductus order, TASKSET checks what it would install, TASKRD reads a word of its own
core's task table, and RESUME names a record. A message waits as any other fallible operation does (R123), and a target outside the mesh or the rectangle traps. -/
def Obligations.Messages_are_issued : Prop :=
  (∀ (o : KAB) (s : State), s.Ready o.s [gr o.a] →
    let a := s.now.getG o.a.toNat
    let n := bits a 26 24
    bits a 63 27 = 0 → bits a 23 22 = 0 → bits a 15 15 = 0 → n ≤ 4 →
    regTrap (s.core s.cur.core).partword s.now ((List.range n).map fun i => .g (o.b.toNat + i)) = none →
    (bits a 14 14 = 0 → exec (.send o) s = .next (s.raise s.cur (exact cBounds a 0))) ∧
    (bits a 14 14 = 1 → 47 < bits a 13 7 ∨ 63 < bits a 6 0 → exec (.send o) s = .next (s.raise s.cur (exact cMesh a 0))) ∧
    (bits a 14 14 = 1 → bits a 13 7 ≤ 47 → bits a 6 0 ≤ 63 →
      let tgt := 48 * bits a 6 0 + bits a 13 7
      (s.inRect (s.jobOf s.cur.core) tgt = false → exec (.send o) s = .next (s.raise s.cur (exact cProtect a 0))) ∧
      (s.inRect (s.jobOf s.cur.core) tgt = true → (s.core s.cur.core).cancelled = false →
        (s.fallibleFull s.cur = false → ∃ t, exec (.send o) s = .next t ∧
          s.Issued t (.send tgt (bits a 21 16) n ((List.range n).map fun i => s.now.getG (o.b.toNat + i))) a none) ∧
        (s.fallibleFull s.cur = true → s.outstanding s.cur = true → exec (.send o) s = .next (s.marker s.cur))))) ∧
  (∀ (o : KABD) (s : State) (tgt : Nat), s.Ready o.s [gr o.a, gr o.d] →
    let a := s.now.getG o.a.toNat
    let d := s.now.getG o.d.toNat
    let n := bits a 26 24
    let job := s.jobOf s.cur.core
    bits a 63 27 = 0 → bits a 23 22 = 0 → bits a 15 0 = 0 → n ≤ 4 → d.toNat < 2 ^ 63 →
    regTrap (s.core s.cur.core).partword s.now ((List.range n).map fun i => .g (o.b.toNat + i)) = none →
    s.ductusCore job (d.toNat * (s.rectCores job).length / 2 ^ 63) = some tgt →
    (s.core s.cur.core).cancelled = false → s.fallibleFull s.cur = false →
    ∃ t, exec (.sendk o) s = .next t ∧
      s.Issued t (.send tgt (bits a 21 16) n ((List.range n).map fun i => s.now.getG (o.b.toNat + i))) a none) ∧
  (∀ (o : KABD) (s : State) (tgt : Nat), s.Ready o.s [gr o.a, gr o.b, gr o.d] →
    let a := s.now.getG o.a.toNat
    let b := s.now.getG o.b.toNat
    let d := s.now.getG o.d.toNat
    (3 ≤ bits a 25 24 → exec (.taskset o) s = .next (s.raise s.cur (exact cBounds a 0))) ∧
    (a.toNat < 2 ^ 26 → bits a 23 22 = 0 → bits a 15 14 = 1 → bits a 25 24 ≤ 2 → (bits a 25 24 = 0 → b.toNat < 2 ^ 48 ∧ b.toNat % 4 = 0) →
      (bits a 25 24 = 0 → liveSetOk d = true) → s.destCore s.cur.core a = .ok tgt → s.fallibleFull s.cur = false →
      ∃ t, exec (.taskset o) s = .next t ∧ s.Issued t (.taskset tgt (bits a 21 16) (bits a 25 24) b d) a none)) ∧
  (∀ (o : KAD) (s : State), s.Ready o.s [gr o.a, gr o.d] →
    let a := s.now.getG o.a.toNat
    exec (.taskrd o) s = .next (s.longResult s.cur (firstWord (.taskrd o)) (gr o.d)
      ((s.rd64 (2 ^ 40 + s.cur.core * 2 ^ 20 + 0x1000 + 16 * bits a 5 0 + 8 * bits a 6 6)).zeroExtend 128) 5)) ∧
  (∀ (o : KAB) (s : State), s.Ready o.s [gr o.a, gr o.b] →
    let a := s.now.getG o.a.toNat
    (∀ q, s.place s.cur.core a = .ok q → a.toNat % 64 ≠ 0 → exec (.resume o) s = .next (s.raise s.cur (exact cMisalign a 0))) ∧
    (s.checkLine s.cur.core a 192 = none → s.fallibleFull s.cur = false →
      ∃ t, exec (.resume o) s = .next t ∧ s.Issued t (.resume (s.now.getG o.b.toNat)) a none))

/-- PARK, JOIN, LEAVE, GBAR and GMAX at issue (R191, R199, R200): with the thread's journal settled and its operands good, PARK and the barriers
wait at the instruction for the answer of the home, the barriers with a pool entry taken or awaited; JOIN and LEAVE are issued. -/
def Obligations.Parks_and_groups_are_issued : Prop :=
  (∀ (o : KABD) (s : State), s.Ready true ([gr o.a, gr o.b, gr o.d] ++ if o.b = 0 then [] else [.g (o.b.toNat + 1)]) →
    let x := s.now
    let a := x.getG o.a.toNat
    let gm := if o.b = 0 then 0 else x.getG o.b.toNat
    let vm := if o.b = 0 then 0 else x.getG (o.b.toNat + 1)
    (x.rewrites ≠ [] → exec (.park o) s = .next (s.raise s.cur (exact cProtect 0 0))) ∧
    (x.rewrites = [] → s.unsettledJournal s.cur = true → exec (.park o) s = .next s) ∧
    (x.rewrites = [] → s.unsettledJournal s.cur = false → rising s.ctxs = true → s.peersOwe s.cur x.region = false → s.checkLine s.cur.core a 192 = none →
      s.parkMapsTrap s.cur.core gm vm = none → ∃ t, exec (.park o) s = .next t ∧ s.sameMemory t ∧
        (t.ctx s.cur).st = .marker ∧ (t.ctx s.cur).busy = .homeWait s.nextId ∧ (t.ctx s.cur).pc = x.pc ∧
        ∃ q ∈ t.ops, q.id = s.nextId ∧ q.addr = a ∧ q.body = .park gm vm o.d.toNat)) ∧
  (∀ (o : KAD) (s : State) (join : Bool), s.Ready o.s [gr o.a, gr o.d] →
    let a := s.now.getG o.a.toNat
    isSelf a = false → s.checkLine s.cur.core a 64 = none → s.fallibleFull s.cur = false →
    ∃ t, exec (if join then .join o else .leave o) s = .next t ∧ s.Issued t (.member !join) a (some (gr o.d))) ∧
  (∀ (s : State) (w : Bool) (a b d : BitVec 6), s.now.rewrites = [] → s.unsettledJournal s.cur = false → s.peersOwe s.cur s.now.region = false →
    s.checkLine s.cur.core (s.now.getG a.toNat) 64 = none → rising s.ctxs = true →
    let waits (i : Instr) (g : Option (BitVec 32)) : Prop :=
      (s.takeEntry (s.jobOf s.cur.core) = none → s.poison = [] → ∃ t, exec i s = .next t ∧ (t.ctx s.cur).busy = .poolWait 3 ∧ (t.ctx s.cur).pc = s.now.pc) ∧
      (∀ e u, (s.clearMarks s.cur s.now.region .dom).takeEntry (s.jobOf s.cur.core) = some (e, u) → ∃ t, exec i s = .next t ∧
        (t.ctx s.cur).st = .marker ∧ (t.ctx s.cur).busy = .homeWait u.nextId ∧ (t.ctx s.cur).pc = s.now.pc ∧
        ∃ q ∈ t.ops, q.id = u.nextId ∧ q.addr = s.now.getG a.toNat ∧ q.body = .arrive g e d.toNat)
    (s.Ready true [gr a, gr d] → waits (.gbar ⟨w, a, d⟩) none) ∧
    (s.Ready true [gr a, gr b, gr d] → waits (.gmax ⟨w, a, b, d⟩) (some ((s.now.getG b.toNat).truncate 32))))

/-- What the homes of records and groups do (R191, R192, R199-R201): PARK into a free record frees the context with the thread in the record, and
consumes an early resume; RESUME claims a parked record and sends its re-creation, or leaves its value early; TASKSET installs the words of a
channel; JOIN and LEAVE count members; and an arrival that completes a phase goes on in its context, with the epoch one higher, no arrival counted
and the members as before. -/
def Obligations.Records_and_groups_at_their_homes : Prop :=
  (∀ (s : State) (id l d : Nat) (gm vm : Word) (o : Op), s.arg = .num id → s.op id = some o → o.id = id → o.body = .park gm vm d →
    s.reach o.ctx.core o.job .both o.addr 192 = .ok l → s.poison = [] → rising s.ctxs = true → rising s.mem = true →
    (s.read l 1 % 4 = 3 → ∃ t, exec .parkAtHome s = .next t ∧ (t.ctx o.ctx).st = .running ∧ (t.ctx o.ctx).busy = .idle ∧
      t.read l 1 % 4 = 0 ∧ (t.ctx o.ctx).g = ((s.ctx o.ctx).setG d (s.rd64 (l + 56))).g) ∧
    (s.read l 1 % 4 = 0 → ∃ t, exec .parkAtHome s = .next t ∧ (t.ctx o.ctx).st = .free ∧ t.read l 1 % 4 = 1 ∧
      t.rd64 (l + 8) = gm ∧ t.rd64 (l + 56) = 0)) ∧
  (∀ (s : State) (id l : Nat) (v : Word) (o : Op), s.arg = .num id → s.op id = some o → o.body = .resume v → o.record = none → o.replay = false →
    s.stampOk o.job o.gen = true → s.reach o.ctx.core o.job .both o.addr 192 = .ok l → s.poison = [] → s.resumeCancelled o.job l = false →
    s.resumeWaits o.job l = false → rising s.mem = true →
    (s.read l 1 % 4 = 1 → bits (s.rd64 (l + 16)) 62 59 = 0 → ∃ t n p m, exec .resumeAtHome s = .next t ∧ t.read l 1 % 4 = 2 ∧
      t.rd64 (l + 56) = v ∧ ⟨n, p, .messageArrive, .msg m⟩ ∈ t.agenda ∧ m.body = .recreate (absAddr o.ctx.core o.addr)) ∧
    (s.read l 1 % 4 = 0 → ∃ t, exec .resumeAtHome s = .next t ∧ t.read l 1 % 4 = 3 ∧ t.rd64 (l + 56) = v)) ∧
  (∀ (s : State) (id tgt ch : Nat) (b d : Word) (o : Op), s.arg = .num id → s.op id = some o → o.body = .taskset tgt ch 0 b d →
    o.record = none → o.replay = false → s.stampOk o.job o.gen = true → (s.job o.job).st = .live →
    (o.job ≠ 0 → s.jobAway o.job tgt = false ∧ (s.job o.job).sched ≠ .quiesced) → rising s.mem = true →
    ∃ t, exec .tasksetAtTarget s = .next t ∧
      t.task tgt ch 0 = b ∧ bits (t.task tgt ch 1) 12 0 = bits d 12 0 ∧ bits (t.task tgt ch 1) 63 13 = bits (s.task tgt ch 1) 63 13) ∧
  (∀ (s : State) (o : Op) (l : Nat) (leave : Bool), s.AtHome o l → o.body = .member leave → o.jidx = none → rising s.mem = true →
    let n := s.read l 4
    ∃ t, exec .homeAccess s = .next t ∧
      (leave = false → n < 2 ^ 32 - 1 → t.read l 4 = n + 1 ∧
        t.op o.id = some { o with performed := true, body := .result (BitVec.ofNat 128 (n + 1)) 0 }) ∧
      (leave = true → 0 < n → s.read (l + 4) 4 = 0 → t.read l 4 = n - 1 ∧
        t.op o.id = some { o with performed := true, body := .result (BitVec.ofNat 128 (n - 1)) 0 })) ∧
  (∀ (s : State) (id l d : Nat) (e : Word) (o : Op), s.arg = .num id → s.op id = some o → o.body = .arrive none e d →
    s.reach o.ctx.core o.job .both o.addr 64 = .ok l → s.poison = [] → rising s.ctxs = true → rising s.mem = true →
    s.read l 4 ≤ s.read (l + 4) 4 + 1 → s.read (l + 4) 4 < 2 ^ 32 - 1 →
    ∃ t, exec .groupArrival s = .next t ∧ (t.ctx o.ctx).st = .running ∧ (t.ctx o.ctx).busy = .idle ∧
      (t.ctx o.ctx).g = ((s.ctx o.ctx).setG d (BitVec.ofNat 64 (s.read (l + 8) 4))).g) ∧
  (∀ (s : State) (l job gen : Nat), rising s.mem = true → s.rd64 (l + 24) = 0 →
    let t := (s.completePhase l job gen).2.2
    t.read l 4 = s.read l 4 ∧ t.read (l + 4) 4 = 0 ∧ t.read (l + 8) 4 = (s.read (l + 8) 4 + 1) % 2 ^ 32 ∧ t.rd64 (l + 24) = 0 ∧
    t.rd64 (l + 32) = 0)

/-- Messages at their target and dispatch (R183-R187, R193, R197): a message of an accepted stamp takes the lowest free entry of the ring, and one
that finds the ring full is presented again; the entry that is dispatched starts a thread at its channel's ENTRY with the payload in g1 to g4 and
the sender in g5, or re-creates the continuation of a claimed record, or of a wait-table slot, at the address that the record holds. -/
def Obligations.Messages_arrive_and_are_dispatched : Prop :=
  (∀ (s : State) (m : Msg), s.arg = .msg m → s.stampOk m.job m.gen = true → (s.job m.job).sched = .resident →
    (s.core m.target).owner = some m.job → (s.core m.target).cancelled = false →
    (∀ ch n p, m.body = .start ch n p → s.taskEntry m.target ch ≠ 0) →
    (∀ id q, m.op = some id → s.op id = some q → q.record = none ∧ q.replay = false) →
    let co := s.core m.target
    (∀ i, ringSlot co.ring m.body = some i → ∃ t e, exec .messageArrive s = .next t ∧ exec .messageRetry s = .next t ∧ s.sameMemory t ∧
      t.cores = (s.setCore m.target { co with ring := mset none co.ring i (some e) }).cores ∧
      e.body = m.body ∧ e.job = m.job ∧ e.gen = m.gen ∧ e.time = s.cycle ∧ e.sender = coordField m.src ∧
      (∀ id, m.op = some id → ∀ p ∈ t.ops, p.id ≠ id)) ∧
    (ringSlot co.ring m.body = none → ∃ n p, exec .messageArrive s =
      .next { s with agenda := ⟨n, p, .messageRetry, .msg m⟩ :: s.agenda })) ∧
  (∀ (s : State) (m : Msg), s.arg = .msg m → s.stampOk m.job m.gen = false → m.op = none → exec .messageArrive s = .next s) ∧
  (∀ (s : State) (core i ch n : Nat) (p : List Word) (e : RingEntry) (c : CtxId), s.arg = .pair core i → s.Ok →
    s.dispatchee core i = some (e, some c) → c.core = core → e.body = .start ch n p → s.taskEntry core ch ≠ 0 →
    ∃ t, exec .dispatchMessage s = .next t ∧ s.sameMemory t ∧ (t.ctx c).st = .running ∧ (t.ctx c).pc = s.taskEntry core ch ∧
      (t.ctx c).chan = ch ∧ (∀ k, k < 4 → (t.ctx c).getG (k + 1) = p.getD k 0) ∧ (t.ctx c).getG 5 = BitVec.ofNat 64 e.sender ∧
      (∀ k, 5 < k → (t.ctx c).getG k = 0) ∧ (∀ k, (t.ctx c).getV k = 0) ∧ (t.ctx c).fcsr = 0 ∧ (t.ctx c).loopcnt = 0 ∧
      (t.ctx c).trapvec = (s.job e.job).trapvec ∧ (t.ctx c).rndseed = (s.ctx c).rndseed) ∧
  (∀ (s : State) (core i l : Nat) (r : Word) (e : RingEntry) (c : CtxId), s.arg = .pair core i → s.Ok →
    s.dispatchee core i = some (e, some c) → e.body = .recreate r → s.foreign r = false → s.recordLoc e.job r = some l →
    s.read l 1 % 4 = 2 → s.stampOk e.job e.gen = true → bits (s.rd64 (l + 16)) 62 59 = 0 → s.poison = [] → (s.core c.core).parked = [] →
    beyondClass (s.core c.core).partword (s.rd64 (l + 8)) (BitVec.ofNat 64 (bits (s.rd64 (l + 16)) 31 0)) = none →
    ∃ t, exec .dispatchRecreation s = .next t ∧ (t.ctx c).st = .running ∧ (t.ctx c).pc.toNat = bits (s.rd64 l) 47 2 * 4 ∧
      (t.ctx c).chan = bits (s.rd64 (l + 16)) 58 53 ∧ (t.ctx c).rndseed = (s.ctx c).rndseed ∧ (t.ctx c).intrap = bit (s.rd64 (l + 16)) 50) ∧
  (∀ (s : State) (core i n : Nat) (v : Word) (e : RingEntry) (c : CtxId), s.arg = .pair core i → s.Ok →
    s.dispatchee core i = some (e, some c) → c.core = core → e.body = .wake n v → (∀ w, mget none (s.core core).waits n = some w → w.parked = true) →
    s.poison = [] → (s.core core).parked = [] →
    let l := slotLoc core n
    beyondClass (s.core core).partword (s.rd64 (l + 8)) (BitVec.ofNat 64 (bits (s.rd64 (l + 16)) 31 0)) = none →
    ∃ t, exec .dispatchWake s = .next t ∧ (t.ctx c).st = .running ∧ (t.ctx c).pc.toNat = bits (s.rd64 l) 47 2 * 4 ∧
      (bit (s.rd64 (l + 16)) 46 = true → bits (s.rd64 (l + 16)) 45 40 ≠ 0 → (t.ctx c).getG (bits (s.rd64 (l + 16)) 45 40) = v))

/-- The net instructions at issue (R215-R223). NALLOC takes the node at HEAD of its core's arena, still building, enters it in the rewrite list and
returns its address, or 0 from an empty arena; NSEAL, NKILL, LINK and RELINK are issued as link operations, of which a ninth waits, NKILL entering
its node and the two others marking their ports as used; NTYPE reads a word of its core's arena; TREF and TDROP are issued. -/
def Obligations.Nets_are_issued : Prop :=
  (∀ (o : KAD) (s : State), s.Ready o.s [gr o.a, gr o.d] →
    let h := s.now.getG o.a.toNat
    let core := s.cur.core
    let a := bits (s.rd64 (arenaHead core)) 19 0
    bits h 53 48 = 0 → bits h 31 8 = 0 → 16 ≤ bits h 63 56 → bits h 55 54 ≠ 3 → s.now.rewrites.length < 16 →
    (a = 0 → exec (.nalloc o) s = .next ((s.bump core 4 31 16).longResult s.cur (firstWord (.nalloc o)) (gr o.d) 0 5)) ∧
    (a ≠ 0 → rising s.mem = true → rising s.ctxs = true → ∃ t q, exec (.nalloc o) s = .next t ∧
      (t.ctx s.cur).rewrites = s.now.rewrites ++ [⟨coreAddr core a, false, [false, false, false]⟩] ∧
      q ∈ t.ops ∧ q.id = s.nextId ∧ q.body = .result ((coreAddr core a).zeroExtend 128) 0 ∧ q.dst = some (gr o.d) ∧
      bits (t.rd64 (poolLoc core a)) 51 50 = 1 ∧ bits (t.rd64 (poolLoc core a)) 63 56 = bits h 63 56 ∧
      t.rd64 (poolLoc core a + 8) = 0 ∧ t.rd64 (poolLoc core a + 16) = 0 ∧ t.rd64 (poolLoc core a + 24) = 0)) ∧
  (∀ (s : State) (w : Bool) (a : BitVec 6) (p : Word), s.Ready w [gr a] → s.checkNet s.cur.core (s.now.getG a.toNat) 32 = .ok p →
    (s.countOps s.cur (fun q => q.body.isLink) < 8 →
      (∃ t, exec (.nseal ⟨w, a⟩) s = .next t ∧ s.Sent t .nseal p) ∧
      ((∀ r ∈ s.now.rewrites, r.node ≠ p) → s.now.rewrites.length < 16 → ∃ t, exec (.nkill ⟨w, a⟩) s = .next t ∧ s.Sent t .nkill p ∧
        (rising s.ctxs = true → (t.ctx s.cur).rewrites = s.now.rewrites ++ [⟨p, true, [false, false, false]⟩]))) ∧
    (8 ≤ s.countOps s.cur (fun q => q.body.isLink) → exec (.nseal ⟨w, a⟩) s = .next (s.marker s.cur))) ∧
  (∀ (o : KAB) (s : State) (p n : Word), s.Ready o.s [gr o.a, gr o.b] → s.countOps s.cur (fun q => q.body.isLink) < 8 →
    let a := s.now.getG o.a.toNat
    let b := s.now.getG o.b.toNat
    (s.checkPorts s.cur a b false = .ok (p, n) → ∃ t, exec (.link o) s = .next t ∧ s.Sent t (.link n) p ∧
      (rising s.ctxs = true → (t.ctx s.cur).rewrites = ((s.now.usePort p).usePort n).rewrites)) ∧
    (s.checkPorts s.cur a b true = .ok (p, n) → ∃ t, exec (.relink o) s = .next t ∧ s.Sent t (.relink n) p ∧
      (rising s.ctxs = true → (t.ctx s.cur).rewrites = ((s.now.usePort p).usePort n).rewrites))) ∧
  (∀ (o : KAD) (s : State) (off : Nat), s.Ready o.s [gr o.a, gr o.d] →
    let a := s.now.getG o.a.toNat
    s.place s.cur.core a = .ok (.pool s.cur.core off) →
    (a.toNat % 8 ≠ 0 → exec (.ntype o) s = .next (s.raise s.cur (exact cMisalign a 0))) ∧
    (a.toNat % 8 = 0 → s.inArena (coreAddr s.cur.core off) = false → exec (.ntype o) s = .next (s.raise s.cur (exact cProtect a 0))) ∧
    (a.toNat % 8 = 0 → s.inArena (coreAddr s.cur.core off) = true → exec (.ntype o) s =
      .next (s.longResult s.cur (firstWord (.ntype o)) (gr o.d) ((s.rd64 (2 ^ 40 + s.cur.core * 2 ^ 20 + off)).zeroExtend 128) 5))) ∧
  (∀ (o : KAD) (s : State) (p : Word) (drop : Bool), s.Ready o.s [gr o.a, gr o.d] →
    s.checkNet s.cur.core (s.now.getG o.a.toNat) 32 = .ok p → s.fallibleFull s.cur = false →
    ∃ t, exec (if drop then .tdrop o else .tref o) s = .next t ∧ s.Issued t (.tref drop) p (some (gr o.d)))

/-- Link operations at their homes and the relinking protocol (R218-R225): a seal makes a building node live, a kill takes or is held as a refusal,
a relink of a bound port forwards it and sends REDIRECT and one of a free port waits for its partner; JOIN and BIND bind a free auxiliary port, JOIN
after sending BIND; REDIRECT at the partner binds it anew and sends BIND and SETTLE; SETTLE takes one off the ports still to be settled; and READY
at the higher of two principal ports fires the pair. Whatever the home finds, each of these steps ends in a next state: a link operation is then no
longer outstanding (R215), and a protocol message changes no context and no operation, and nothing but the count of refused stamps where its generation
is retired (R229). -/
def Obligations.Nets_at_their_homes : Prop :=
  ((∀ (s : State) (id : Nat) (o : Op), s.arg = .num id → s.op id = some o →
      let ends (i : Instr) : Prop := ∃ t, exec i s = .next t ∧ ∀ p ∈ t.ops, p.id ≠ id
      (o.id = id → ends .nsealAtHome ∧ ends .nkillAtHome) ∧
      (∀ n, o.id = id → o.body = .relink n → ends .relinkAtHome) ∧ (∀ n, o.id = id → o.body = .link n → ends .netJoin)) ∧
   (∀ (s : State) (m : NetMsg), s.arg = .net m →
      let ends (i : Instr) : Prop := ∃ t, exec i s = .next t ∧ t.ctxs = s.ctxs ∧ t.ops = s.ops ∧ (s.stampOk m.job m.gen = false → t = s.refuseStamp)
      ends .netReady ∧ ends .netJoin ∧ ends .netBind ∧ ends .netRedirect ∧ ends .netSettle)) ∧
  (∀ (s : State) (id core off : Nat) (o : Op), s.arg = .num id → s.op id = some o → o.id = id → s.stampOk o.job o.gen = true → s.poison = [] →
    o.addr = coreAddr core off → core < 3072 → off % 32 = 0 → off + 32 ≤ 2 ^ 20 → rising s.mem = true →
    let h := s.nodeWord o.addr 0
    (s.inArena o.addr = true → hLife h = 1 → hOwner h = ownerOf o.ctx → portState (s.portWord (portOf o.addr 1)) = 0 →
      exec .nsealAtHome s = .next ((s.dropOp id).setNodeWord o.addr 0 (setBits h 51 50 2))) ∧
    (s.inArena o.addr = false → (s.ctx o.ctx).thread = o.thread → o.thread ≠ 1 → exec .nsealAtHome s =
      .next ((s.dropOp id).setCtx o.ctx { s.ctx o.ctx with refusals := (s.ctx o.ctx).refusals ++ [⟨o.addr, 6⟩] }))) ∧
  (∀ (s : State) (id : Nat) (o : Op), s.arg = .num id → s.op id = some o → o.id = id → s.stampOk o.job o.gen = true → s.poison = [] → o.thread ≠ 1 →
    (∀ u, s.killNode o.addr (coordField o.ctx.core) o.ctx.k = some u → exec .nkillAtHome s = .next (u.dropOp id)) ∧
    (s.killNode o.addr (coordField o.ctx.core) o.ctx.k = none → (s.ctx o.ctx).thread = o.thread → exec .nkillAtHome s =
      .next ((s.dropOp id).setCtx o.ctx { s.ctx o.ctx with refusals := (s.ctx o.ctx).refusals ++ [⟨o.addr, 3⟩] })) ∧
    (∀ n, o.body = .relink n → portState (s.portWord o.addr) = 0 →
      exec .relinkAtHome s = .next ((s.wr64 (netLoc o.addr) (mkPort 2 true n)).dropOp id)) ∧
    (∀ n, o.body = .relink n → portState (s.portWord o.addr) = 1 → ∃ t k p m, exec .relinkAtHome s = .next t ∧
      (s.wr64 (netLoc o.addr) (mkPort 2 false n)).sameMemory t ∧ ⟨k, p, .netRedirect, .net m⟩ ∈ t.agenda ∧
      m.a = o.addr ∧ m.b = n ∧ m.c = linked (s.portWord o.addr)) ∧
    (∀ n, o.body = .link n → portState (s.portWord o.addr) = 0 → portIndex o.addr ≠ 1 → ∃ t k p m, exec .netJoin s = .next t ∧
      (s.wr64 (netLoc o.addr) (mkPort 1 false n)).sameMemory t ∧ ⟨k, p, .netBind, .net m⟩ ∈ t.agenda ∧ m.a = n ∧ m.b = o.addr)) ∧
  (∀ (s : State) (m : NetMsg), s.arg = .net m → s.stampOk m.job m.gen = true →
    (portState (s.portWord m.a) = 0 → portIndex m.a ≠ 1 →
      exec .netBind s = .next (s.wr64 (netLoc m.a) (mkPort 1 false m.b))) ∧
    (portState (s.portWord m.c) = 1 → linked (s.portWord m.c) = m.a → portIndex m.c ≠ 1 → ∃ t k₁ p₁ m₁ k₂ p₂ m₂,
      exec .netRedirect s = .next t ∧ (s.wr64 (netLoc m.c) (mkPort 1 false m.b)).sameMemory t ∧
      ⟨k₁, p₁, .netBind, .net m₁⟩ ∈ t.agenda ∧ m₁.a = m.b ∧ m₁.b = m.c ∧ ⟨k₂, p₂, .netSettle, .net m₂⟩ ∈ t.agenda ∧ m₂.a = m.a) ∧
    (let n := nodeOf m.a
     let h := s.nodeWord n 0
     hLife h = 3 → 2 ≤ hPend h → exec .netSettle s = .next (s.setNodeWord n 0 (setBits h 53 52 (hPend h - 1)))) ∧
    (∀ core off, m.b = coreAddr core off + 8 → core < 3072 → off % 32 = 0 → off + 32 ≤ 2 ^ 20 → rising s.mem = true →
      portState (s.portWord m.b) = 1 → linked (s.portWord m.b) = m.a → hLife (s.nodeWord (coreAddr core off) 0) = 2 → portIndex m.a = 1 →
      m.a.toNat < m.b.toNat → ∃ t, exec .netReady s = .next t ∧ ⟨s.cycle + 1, none, .ligatureTakePair, .num core⟩ ∈ t.agenda))

/-- Pairs and the end of a thread (R188, R214, R226, R282): fired pairs join the queue as it has room; the ligature unit takes the oldest and sends
it by its rule entry, or counts it as stuck; and TEND frees the context of a thread that leaves nothing undone, waits for the other parts that have still
to clear its marks, and traps DANGLING where a node that it allocated is still building. -/
def Obligations.Pairs_and_thread_ends : Prop :=
  (∀ (s : State) (core : Nat) (l : ListEntry) (a b : Word), s.arg = .num core → rising s.cores = true →
    (s.core core).pairq = some l → l.live = true → l.desc = pairDesc → l.spilled = 0 → l.items.length < 4096 →
    (s.core core).pairWait = [(a, b)] → ∃ t m, exec .pairEnqueueRetry s = .next t ∧ (t.core core).pairq = some m ∧
      m.items = l.items ++ [[a, b]] ∧ m.pushes = l.pushes + 1 ∧ (t.core core).pairWait = []) ∧
  (∀ (s : State) (core job : Nat) (l : ListEntry) (a b e : Word), s.arg = .num core → (s.core core).owner = some job →
    (s.core core).pairq = some l → l.live = true → l.spilled = 0 → l.items = [[a, b]] → l.desc = pairDesc → rising s.cores = true →
    (s.core core).cancelled = false → (s.core core).pairWait = [] → (s.core core).rule = none → (s.core core).held = false →
    (s.core core).pairsDue = 0 → s.pairsOut core < 8 → s.poison = [] →
    let u := s.putList core { l with items := [], pops := l.pops + 1 }
    let x := (u.orderPair a b).1
    let y := (u.orderPair a b).2
    u.ruleEntry job core (hType (u.nodeWord x 0)) (hType (u.nodeWord y 0)) = some e → ruleOk e = true →
    (bits e 63 62 = 1 → bits e 23 22 = 1 → exec .ligatureTakePair s =
      .next (u.sendPair job (s.core core).gen core (netHome x) (bits e 21 16) x y)) ∧
    (bits e 63 62 = 0 → exec .ligatureTakePair s = .next (u.stuck job (s.core core).gen core x y))) ∧
  (∀ (o : K0) (s : State), s.Ready true [] → s.unsettledJournal s.cur = false → s.now.refusals = [] →
    let x := s.now.reachOnce s.cycle (s.canBlock s.cur)
    let u := (s.setCtx s.cur x).clearMarks s.cur s.now.region .dom
    (u.peersOwe s.cur s.now.region = true → exec (.tend o) s = .next u) ∧
    (u.peersOwe s.cur s.now.region = false → s.now.rewrites = [] → exec (.tend o) s = .next (u.freeCtx s.cur)) ∧
    (∀ r, u.peersOwe s.cur s.now.region = false → s.now.rewrites = [r] → r.killed = false → hLife (s.nodeWord r.node 0) = 1 → hOwner (s.nodeWord r.node 0) = ownerOf s.cur →
      exec (.tend o) s = .next ((u.setCtx s.cur x).raise s.cur (exact cDangling r.node 1)))) ∧
  (∀ (s : State) (c : CtxId), rising s.ctxs = true → let x := (s.freeCtx c).ctx c
    x.st = .free ∧ (∀ n, x.getG n = 0) ∧ (∀ n, x.getV n = 0) ∧ x.rndseed = (s.ctx c).rndseed ∧ x.feretry = (s.ctx c).feretry ∧ x.intrap = false)

/-- The work-list instructions at issue (R283-R290): with the descriptor, the control word and the buffer good, each is issued as an operation; that
at most eight are outstanding is log entry 39. What the home of a list does: WLINIT makes an empty live list of an idle descriptor that passes its
checks; WLPUSH appends at the end; WLINSU answers a duplicate without appending, appends any other item and answers the count, and answers 4 on a list
without deduplication; WLCOUNT answers the count of items; WLPOPB takes the oldest items, at most as many as it asked for; a
pop that found none is sent again; a park request on an empty list is chained; WLDRAIN retires the list; and a spill move returns items to the area.
-/
def Obligations.Work_lists : Prop :=
  (∀ (s : State) (w : Bool) (a b d : BitVec 6) (wide' : BitVec 1) (p : Word), s.countOps s.cur Op.listOut < 8 → s.fallibleFull s.cur = false →
     let A := s.now.getG a.toNat
     let B := s.now.getG b.toNat
     let D := s.now.getG d.toNat
     let goes (i : Instr) (body : OpBody) (dst : Option Reg) : Prop := ∃ t, exec i s = .next t ∧ s.Issued t body p dst
     (s.checkList s.cur.core A false = .ok p →
       (s.Ready w [gr a] → goes (.wlinit ⟨w, a⟩) .wlinit none ∧ goes (.wldrain ⟨w, a⟩) .wldrain none) ∧
       (s.Ready w ([gr a, gr b] ++ if wide' = 1 then [.g (b.toNat + 1)] else []) →
         goes (.wlpush ⟨w, a, b, wide'⟩) (.wlpush (B :: if wide' = 1 then [s.now.getG (b.toNat + 1)] else [])) none) ∧
       (s.Ready w [gr a, gr b, gr d] → goes (.wlinsu ⟨w, a, b, d⟩) (.wlinsu [B]) (some (gr d))) ∧
       (s.Ready w [gr a, gr b, gr d] → bits D 63 17 = 0 → bits D 15 9 = 0 → 1 ≤ bits D 8 0 → bits D 8 0 ≤ 256 →
         s.rangeTrap s.cur.core B (16 * bits D 8 0) 16 = none → goes (.wlpopb ⟨w, a, b, d⟩) (.wlpopb B D) (some (gr d)))) ∧
     (s.checkList s.cur.core A true = .ok p → s.Ready w [gr a, gr d] → goes (.wlcount ⟨w, a, d⟩) .wlcount (some (gr d)))) ∧
  ((∀ (s : State) (o : Op) (core desc : Nat), s.AtList o core desc →
     let co := s.core core
     let put (l : ListEntry) : List ListEntry := co.lists.map fun m => if m.desc = desc then l else m
     let answers (t : State) (v : Vec) : Prop := t.op o.id = some { o with performed := o.dst.isNone, body := .result v 0 }
     (o.body = .wlinit → s.listAt core desc = none → s.listCheck core desc = none → ∃ t l, exec .wlinitAtHome s = .next t ∧ answers t 0 ∧
       (t.core core).lists = co.lists ++ [l] ∧ l.desc = desc ∧ l.live = true ∧ l.items = [] ∧ l.job = o.job) ∧
     (∀ l, s.listAt core desc = some l → l.desc = desc → l.live = true → l.waiters = [] → l.spilled = 0 →
       (∀ item, o.body = .wlpush item → (item.length == 2) = l.wide → l.items.length < 4096 → ∃ t m, exec .wlpushAtHome s = .next t ∧
         answers t 0 ∧ (t.core core).lists = put m ∧ m.items = l.items ++ [item] ∧ m.pushes = l.pushes + 1) ∧
       (∀ item, o.body = .wlinsu item → l.dedup = true → item ∈ l.items → ∃ t m, exec .wlinsuAtHome s = .next t ∧
         answers t (BitVec.ofNat 128 ((l.items.length * 2 ^ 32 + 1) % 2 ^ 64)) ∧ (t.core core).lists = put m ∧ m.items = l.items ∧
         m.dups = l.dups + 1) ∧
       (∀ item, o.body = .wlinsu item → l.dedup = true → item ∉ l.items → l.items.length < 4096 → ∃ t m, exec .wlinsuAtHome s = .next t ∧
         answers t (BitVec.ofNat 128 ((l.items.length + 1) * 2 ^ 32)) ∧ (t.core core).lists = put m ∧ m.items = l.items ++ [item] ∧
         m.pushes = l.pushes + 1) ∧
       (∀ item, o.body = .wlinsu item → l.dedup = false → ∃ t, exec .wlinsuAtHome s = .next t ∧ t.cores = s.cores ∧
         answers t (BitVec.ofNat 128 (l.items.length * 2 ^ 32 + 4))) ∧
       (∀ k, o.body = .wlcount → o.performed = false ∧ o.reason = 0 ∧ o.mx = false ∧ o.left = true → o.loc = some k → k < 2 ^ 60 →
         s.homeDown k = false → ¬ (2 ^ 42 ≤ k ∧ 0x1FFF00 ≤ (k - 2 ^ 42) % 2 ^ 21) → ∃ t, exec .homeAccess s = .next t ∧ t.cores = s.cores ∧
         ∃ v : Word, answers t (v.zeroExtend 128) ∧ (l.reason < 64 → bits v 63 62 = 1 ∧ bits v 61 56 = l.reason) ∧
           bits v 31 0 = l.items.length % 2 ^ 32) ∧
       (∀ buf ctl, o.body = .wlpopb buf ctl → l.items ≠ [] → let n := min (bits ctl 8 0) l.items.length
         ∃ t m k q, exec .wlpopbAtHome s = .next t ∧ (t.core core).lists = put m ∧ m.items = l.items.drop n ∧ m.pops = l.pops + n ∧
           t.op o.id = some { o with body := .popped (bits buf 19 0) (l.items.take n).flatten (BitVec.ofNat 64 n) } ∧
           ⟨k, some q, .longResultReturn, .answer o.id none⟩ ∈ t.agenda) ∧
       (∀ buf ctl rec, o.body = .wlpopb buf ctl → o.wrec = some rec → l.items = [] → ∃ t m, exec .wlParkRequest s = .next t ∧
         (t.core core).lists = put m ∧ m.waiters = [(rec, buf, bits ctl 8 0)] ∧ ∀ q ∈ t.ops, q.id ≠ o.id) ∧
       (o.body = .wldrain → ∃ t, exec .wldrainAtHome s = .next t ∧ answers t 0 ∧ (t.core core).lists = co.lists.filter fun m => m.desc != desc)) ∧
     (s.cycle < o.deadline → co.held = false → o.ctx.core = core → o.record = none → (s.ctx o.ctx).thread = o.thread →
       let turn := ctxCount co.partword
       let wait := (o.ctx.k + turn - s.cycle % turn) % turn
       (wait ≠ 0 → exec .wlPopRetry s = .next (s.later wait none .wlPopRetry (.num o.id))) ∧
       (wait = 0 → ∃ n p, exec .wlPopRetry s = .next (s.later n (some p) .wlpopbAtHome (.num o.id))))) ∧
   (∀ (s : State) (core desc : Nat) (l m : ListEntry), s.arg = .pair core desc → s.listAt core desc = some l → l.live = true →
     s.poison = [] → s.refill l (4096 - l.items.length) = .ok m → exec .wlSpillMove s = .next (s.putList core m)))

/-- Commands, tags and feeds at issue (R230-R249): with operands that pass their checks, a free tag and room in its core's queue, a command enters
the queue and owns its tag; an owned tag traps and a full queue holds the context; COPYR reports, resumes or drops paused work; TAGFF finds the
lowest ready tag; TAGCLR clears free tags; and a wait on tags or on a tile ends where its condition holds, and otherwise goes on waiting. How
subscriptions and releases are counted, and what COPYR does at issue, are log entries 50, 52 and 54. -/
def Obligations.Commands_and_tags_are_issued : Prop :=
  (∀ (s : State) (w : Bool) (a b d : BitVec 6), s.Ready w [gr a, gr b, gr d] →
    let core := s.cur.core
    let A := s.now.getG a.toNat
    let B := s.now.getG b.toNat
    let D := s.now.getG d.toNat
    let placed (x : Word) : Prop := ∃ p, s.place core x = .ok p
    let goes (i : Instr) (kind : CmdKind) (n : Nat) (r : Word) : Prop :=
      (bit (s.core core).owned n = true → exec i s = .next (s.raise s.cur (exact cBounds r 0))) ∧
      (bit (s.core core).owned n = false → (s.commands core).length < 2 → ∃ t, exec i s = .next t ∧ s.Commanded t kind [A, B, D] (some n)) ∧
      (bit (s.core core).owned n = false → 2 ≤ (s.commands core).length → exec i s = .next (s.setCtx s.cur { s.now with st := .stalled }))
    (bits D 63 41 = 0 → bits D 39 38 = 0 → A.toNat % 8 = 0 → B.toNat % 8 = 0 → bits D 31 0 % 8 = 0 → placed A → placed B →
      passesEnd A (bits D 31 0) = false → passesEnd B (bits D 31 0) = false →
      goes (.copy ⟨w, a, b, d⟩) .copy (bits D 37 32) D) ∧
    (bits D 63 54 = 0 → gatherOff D % 4 = 0 → gatherOff D + gatherCount D * gatherBytes D ≤ s.reservoir (s.jobOf core) →
      s.checkThen core A (gatherIndexBytes D) (gatherIndexBytes D) = none → B.toNat % 4 = 0 → goes (.scatter ⟨w, a, b, d⟩) .scatter (bits D 50 45) D ∧
      (bits D 53 52 = 0 → goes (.gather ⟨w, a, b, d⟩) .gather (bits D 50 45) D)) ∧
    (bits B 63 10 = 0 → bits B 7 6 = 0 → s.checkThen core A 64 64 = none →
      (bit B 9 = false → s.subsOf core < 8 → goes (.subscribe ⟨w, a, b, d⟩) .subscribe (bits B 5 0) B) ∧
      (bit B 9 = true → (∃ y ∈ s.subs, y.core = core ∧ y.ct = bits B 5 0 ∧ y.desc = absAddr core A) →
        bit (s.core core).tagfault (bits B 5 0) = true → (s.commands core).length < 2 → ∃ t, exec (.subscribe ⟨w, a, b, d⟩) s = .next t ∧
          s.Commanded t .subscribe [A, B, D] none))) ∧
  (∀ (s : State) (w : Bool) (a : BitVec 6), s.Ready w [gr a] → (s.commands s.cur.core).length < 2 →
    let core := s.cur.core
    let A := s.now.getG a.toNat
    ((∃ y ∈ s.subs, y.core = core ∧ y.desc = absAddr core A) → ∃ t, exec (.unsub ⟨w, a⟩) s = .next t ∧ s.Commanded t .unsub [A] none) ∧
    (∀ y p, s.subOn core (bits A 2 0) = some y → y.parts.filter (fun q => q.core == core) = [p] → bits A 63 10 = 0 → bits A 7 3 = 0 →
      s.releasesComing core (bits A 2 0) < (p.slots.filter (·.popped)).length → ∃ t, exec (.ringrel ⟨w, a⟩) s = .next t ∧
        s.Commanded t .ringrel [A] none)) ∧
  (∀ (s : State) (w : Bool) (a : BitVec 6) (n : Nat), s.Ready w [gr a] → n < 64 → rising s.cores = true →
    let co := s.core s.cur.core
    ∃ t, exec (.tagclr ⟨w, a⟩) s = .next t ∧
      bit (t.core s.cur.core).tags n = (bit co.tags n && (!bit (s.now.getG a.toNat) n || bit co.owned n || bit (s.freshTags s.cur.core).1 n)) ∧
      bit (t.core s.cur.core).tagfault n =
        (bit co.tagfault n && (!bit (s.now.getG a.toNat) n || bit co.owned n || bit (s.freshTags s.cur.core).2 n))) ∧
  (∀ (o : KAD) (s : State), s.Ready o.s [gr o.a, gr o.d] →
    let A := s.now.getG o.a.toNat
    let co := s.core s.cur.core
    let put (v : Word) : State := s.after fun x => x.setG o.d.toNat v
    (∀ t, t < 64 → bit (co.ready &&& A) t = true → (∀ u, u < t → bit (co.ready &&& A) u = false) →
      exec (.tagff o) s = .next (s.after fun x => (x.seeSat co (tagBit t)).setG o.d.toNat (word t))) ∧
    (co.ready &&& A = 0 → exec (.tagff o) s = .next (put 64)) ∧
    (bits A 63 10 = 0 → bits A 7 6 = 0 →
      ((∀ p ∈ co.paused, p.cmd.tag ≠ bits A 5 0) → exec (.copyr o) s = .next (put (wordI (-1)))) ∧
      (∀ p, co.paused = [p] → p.cmd.tag = bits A 5 0 →
        (bits A 9 8 = 0 → exec (.copyr o) s = .next (put p.addr)) ∧
        (bits A 9 8 = 1 → exec (.copyr o) s =
          .next (put (word (p.cause * 2 ^ 56 + p.cmd.kind.pausedCode * 2 ^ 48 + p.done)))) ∧
        (bits A 9 8 = 2 → (s.commands s.cur.core).length < 2 → ∃ t, exec (.copyr o) s = .next t ∧
          (∃ q ∈ t.ops, ∃ c : Cmd, q.body = .command c ∧ c.kind = p.cmd.kind ∧ c.words = p.cmd.words.take 3 ++ word p.done :: p.cmd.saved) ∧ (rising s.cores = true → (t.core s.cur.core).paused = [])) ∧
        (bits A 9 8 = 3 → rising s.cores = true → ∃ t, exec (.copyr o) s = .next t ∧ t.ctxs = (put 0).ctxs ∧
          (t.core s.cur.core).paused = [] ∧ (bits A 5 0 < 64 → bit (t.core s.cur.core).owned (bits A 5 0) = false))))) ∧
  (∀ (o : KAD) (s : State), s.Ready true [gr o.a, gr o.d] →
    let A := s.now.getG o.a.toNat
    let co := s.core s.cur.core
    let r := co.ready &&& A
    let ends (i : Instr) : Prop :=
      exec i s = .next (s.setCtx s.cur ((({ s.now with busy := .idle }.seeSat co r).setG o.d.toNat r).advance 1))
    let until' := s.cycle + s.now.feretry.toNat * ctxCount co.partword
    let waits (i : Instr) (m : Busy) : Prop := s.cycle < until' → co.held = false → rising s.ctxs = true →
      ∃ t, exec i s = .next t ∧ s.onlyCtxs t ∧ t.ctx s.cur = { s.now.reachOnce s.cycle (s.canBlock s.cur) with busy := m }
    (r ≠ 0 ∨ A = 0 → ends (.waitany o)) ∧
    (r = A → ends (.waitall o)) ∧
    (r = 0 → A ≠ 0 → waits (.waitany o) (.tagWait false A o.d.toNat until')) ∧
    (r ≠ A → waits (.waitall o) (.tagWait true A o.d.toNat until')) ∧
    (bits A 63 3 = 0 →
      (∀ v u, s.pop s.cur.core (bits A 2 0) = some (v, u) →
        exec (.ringpop o) s = .next (u.setCtx s.cur (({ s.now with busy := .idle }.setG o.d.toNat v).advance 1))) ∧
      (s.pop s.cur.core (bits A 2 0) = none → waits (.ringpop o) (.ringWait (bits A 2 0) o.d.toNat until')))) ∧
  (∀ (s : State) (c : CtxId) (mask r : Word) (all : Bool) (d n : Nat), s.arg = .ctx c → (s.ctx c).busy = .tagWait all mask d n →
    r = (s.core c.core).ready &&& mask → (if all then r = mask else r ≠ 0) → exec .tagWaitRetest s =
      .next (s.setCtx c ((({ s.ctx c with busy := .idle }.seeSat (s.core c.core) r).setG d r).advance 1)))

/-- What the engines and the controller of feeds do (R230-R251): the oldest command leaves its queue for its engine; the copy engine moves bytes,
sets the tag after the last and pauses its work on a fault; the controller starts a subscription or refuses it, places tiles, releases them and ends
the subscription; the gather engine reads a window's index list, moves its elements and sets the tag when its list is done; and a system request takes
context Y from another requester, whose state is saved with what it has left and reloaded once the newer one has been served (R251, log entry 61). That
an unreadable descriptor of a new subscription sets TAGFAULT of its tag and changes nothing else is the model's choice (log entry 51). -/
def Obligations.Engines_do_their_work : Prop :=
  (∀ (s : State) (core : Nat) (o : Op) (c : Cmd), s.arg = .num core → s.commands core = [o] → o.body = .command c →
    (o.releases = true → s.held o = false ∧ s.mayRelease o = true ∧ s.marksLeft o = false) → s.engineRoom core c = true → rising s.cores = true →
    rising s.clusters = true → ∃ t, exec .engineCommandLeave s = .next t ∧ t.ops = s.ops.filter (fun q => q.id != o.id) ∧
      (c.kind = .copy → (t.core core).copyq = (s.core core).copyq ++ [(c, (c.words.getD 3 0).toNat)]) ∧
      (c.kind = .gather ∨ c.kind = .scatter → (t.cluster (clusterOf core)).gatherq =
        (s.cluster (clusterOf core)).gatherq ++ [(c, (c.words.getD 3 0).toNat)] ∧
        ((s.cluster (clusterOf core)).gatherq = [] → (t.cluster (clusterOf core)).window = c.saved)) ∧
      (c.kind = .mxmap ∨ c.kind = .mxa ∨ c.kind = .mxb ∨ c.kind = .mxrun → (s.cluster (clusterOf core)).health ≠ 2 →
        (t.cluster (clusterOf core)).mxq = (s.cluster (clusterOf core)).mxq ++ [c])) ∧
  (∀ (s : State) (core : Nat) (cmd : Cmd), s.arg = .num core → (s.core core).copyq = [(cmd, 0)] →
    (∀ u n, cmd.copyLen = n → 0 < n → n ≤ 64 → s.copyPiece cmd 0 n = .done u →
      exec .copyChunk s = .next ((u.setTag core cmd.tag true).copyNext core)) ∧
    (∀ f n, cmd.copyLen = n → 0 < n → n ≤ 64 → s.copyPiece cmd 0 n = .fault f → s.pauseRoom core = true → rising s.cores = true →
      cmd.ctx.core = core → (s.core core).tagWaiters = [] → ∃ t, exec .copyChunk s = .next t ∧
        (t.core core).paused = (s.core core).paused ++ [⟨cmd, f.1, f.2, 0⟩] ∧ (t.core core).copyq = [] ∧
        (cmd.tag < 64 → bit (t.core core).tagfault cmd.tag = true)) ∧
    (∀ src dst w l m, cmd.copyLen = 8 → cmd.words = [src, dst, w] → cmd.ctx.core = core →
      s.reach core cmd.job .read src 8 = .ok l → s.reach core cmd.job .write dst 8 = .ok m →
      s.poison = [] → inTables l 8 = false → rising s.mem = true → rising s.cores = true → (s.core core).tagWaiters = [] →
      ∃ t, exec .copyChunk s = .next t ∧ (∀ i, i < 8 → t.byte (m + i) = s.byte (l + i)) ∧ (∀ loc, loc < m ∨ m + 8 ≤ loc → t.byte loc = s.byte loc) ∧ t.empty = s.empty ∧
        (cmd.tag < 64 → bit (t.core core).tags cmd.tag = true ∧ bit (t.core core).owned cmd.tag = false))) ∧
  (∀ (s : State) (c : Cmd), s.arg = .cmd c → s.stampOk c.job c.gen = true → bit (c.words.getD 1 0) 9 = false →
    let core := c.ctx.core
    let ct := bits (c.words.getD 1 0) 5 0
    let desc := absAddr core (c.words.getD 0 0)
    (∀ f, s.readDesc core c.job desc = .error f → f.1 ≠ 0 → f.1 ≠ cUncorrectable → exec .subscriptionStart s = .next (s.setTagFault core ct true)) ∧
    (∀ ws u, s.readDesc core c.job desc = .ok (ws, u) →
      let x : Sub := { desc := desc, words := ws, core := core, job := c.job, gen := c.gen, ct := ct, first := 0, limit := 0, faulted := false,
                       failed := [], stopped := false, parts := [] }
      let y : Sub := { x with parts := x.subscribers.map fun d => ⟨d, 0, 0, []⟩, first := min (c.words.getD 2 0).toNat x.tiles, limit := x.tiles }
      u.subRefused x = false → y.allGone = false → (∀ z ∈ s.subs, z.id ≠ y.id) → ∃ t, exec .subscriptionStart s = .next t ∧ t.subs = s.subs ++ [y] ∧
        (rising s.cores = true → ∀ d ∈ x.subscribers, ∀ n, x.tb ≤ n → n < x.tb + x.ringSlots → n < 64 → bit (t.core d).owned n = true))) ∧
  (∀ (s : State) (id r : Nat) (x : Sub) (p : Part) (w : Option Nat), s.arg = .num id → (s.subs.find? fun z => z.id == id) = some x →
    x.stopped = false → (s.core x.core).held = false → s.nextDeal x = some (p, r, w) →
    let k : Placed := ⟨p.placed, x.tileOf r p.placed, w, false⟩
    let y := x.setPart { p with placed := p.placed + 1, slots := p.slots ++ [k] }
    ∀ u, s.fillSlot x p.core r k = .done u → rising u.cores = true → (u.core p.core).tagWaiters = [] →
      ∃ t, exec .feedTilePlace s = .next t ∧ t.subs = u.subs.map (fun z => if z.id = id then y else z) ∧
        (x.tb + p.placed % x.ringSlots < 64 → bit (t.core p.core).tags (x.tb + p.placed % x.ringSlots) = true) ∧
        ⟨s.cycle + max 1 (x.slotBytes / 64), bulkPath (2 ^ 22 + id), .feedTilePlace, .num id⟩ ∈ t.agenda) ∧
  (∀ (s : State) (c : Cmd) (x : Sub), s.arg = .cmd c →
    (s.subOn c.ctx.core (bits (c.words.getD 0 0) 2 0) = some x → bit (c.words.getD 0 0) 8 = false →
      ∀ p q, x.parts = [p] → p.core = c.ctx.core → p.slots = [q] → q.popped = true →
      ({ x with parts := [{ p with slots := [] }] } : Sub).allGone = false → x.failed = [] → s.subs = [x] →
      (∀ d ∈ s.agenda, d.path ≠ some (x.releases c.ctx.core)) →
      ∃ t, exec .feedRelease s = .next t ∧ t.subs = [{ x with parts := [{ p with slots := [] }] }] ∧ s.sameMemory t) ∧
    (s.subs.find? (fun y => y.core == c.ctx.core && y.desc == absAddr c.ctx.core (c.words.getD 0 0)) = some x →
      (∀ p ∈ x.parts, p.slots = [] ∧ (s.core p.core).tagWaiters = []) → (s.core x.core).tagWaiters = [] → rising s.cores = true → x.ct < 64 →
      ∃ t, exec .unsubArrive s = .next t ∧ t.subs = s.subs.filter (fun y => y.id != x.id) ∧
        bit (t.core x.core).tags x.ct = true ∧ bit (t.core x.core).owned x.ct = false)) ∧
  (∀ (s : State) (k : Nat) (cmd : Cmd) (u : State), s.arg = .num k → (s.cluster k).gatherq = [(cmd, 0)] → s.gatherRecords k < 8 →
    s.pauseRoom cmd.ctx.core = true → (s.cluster k).window = [] → gatherCount (cmd.words.getD 2 0) ≤ 256 →
    ∀ as v, s.gatherAddrs cmd 0 (gatherCount (cmd.words.getD 2 0)) = (as, v, none) →
    (cmd.kind = .gather → v.gatherSome cmd k 0 as = (gatherCount (cmd.words.getD 2 0), u, none) →
      exec .gatherWindow s = .next ((u.setTag cmd.ctx.core cmd.tag true).gatherNext k)) ∧
    (cmd.kind = .scatter → v.scatterWindow cmd k 0 as = .done u → as.length = gatherCount (cmd.words.getD 2 0) →
      exec .gatherWindow s = .next ((u.setTag cmd.ctx.core cmd.tag true).gatherNext k)) ∧
    (∀ f, cmd.kind = .scatter → v.scatterWindow cmd k 0 as = .fault f → exec .gatherWindow s =
      .next ((v.pause { cmd with words := cmd.words.take 3 ++ 0 :: as } f 0).gatherNext k))) ∧
  (∀ (s : State) (k : Nat) (y : YWork) (cl : Cluster), s.cluster k = cl →
    let begun (z : YWork) (saved : List YWork) : State :=
      (s.setCluster k { cl with yserve := some { z with due := s.cycle + (z.left / 128 + 1) }, ysaved := saved }).later (z.left / 128 + 1) none
        .gatherSystemSwitch (.pair k (s.cycle + (z.left / 128 + 1)))
    (s.arg = .system k y → cl.yserve = none → exec .gatherSystemSwitch s = .next (begun y cl.ysaved)) ∧
    (s.arg = .system k y → ∀ v, cl.yserve = some v → v.who ≠ y.who → exec .gatherSystemSwitch s =
      .next (begun y ({ v with left := 128 * (v.due - s.cycle) } :: cl.ysaved))) ∧
    (s.arg = .system k y → ∀ v, cl.yserve = some v → v.who = y.who → exec .gatherSystemSwitch s =
      .next (begun { y with left := 128 * (v.due - s.cycle) + y.left } cl.ysaved)) ∧
    (∀ due v, s.arg = .pair k due → cl.yserve = some v →
      (v.due ≠ due → exec .gatherSystemSwitch s = .next s) ∧
      (v.due = due → cl.ysaved = [] → exec .gatherSystemSwitch s = .next (s.setCluster k { cl with yserve := none })) ∧
      (∀ w ws, v.due = due → cl.ysaved = w :: ws → exec .gatherSystemSwitch s = .next (begun w ws)))) ∧
  (∀ (s : State) (cmd : Cmd) (k j l m : Nat) (w : Word), cmd.words.getD 2 0 = w → bit w 44 = true → bits w 43 37 = 0 → s.poison = [] →
    rising s.mem = true → s.reach cmd.ctx.core cmd.job .read (cmd.words.getD 0 0 + word (8 * j)) 8 = .ok l → inTables l 8 = false →
    let a := elementAddr (cmd.words.getD 1 0) (s.read l 8) 4
    s.reach cmd.ctx.core cmd.job .read a 4 = .ok m → inTables m 4 = false → s.gatherAddrs cmd j 1 = ([a], s, none) ∧ ∃ u,
      s.gatherSome cmd k j [a] = (j + 1, u, none) ∧ (∀ i, i < 4 → u.byte (storeLoc k (gatherOff w + 4 * j) + i) = s.byte (m + i)) ∧
      ∀ loc, loc < storeLoc k (gatherOff w + 4 * j) ∨ storeLoc k (gatherOff w + 4 * j) + 4 ≤ loc → u.byte loc = s.byte loc)

/-- The matrix instructions at issue (R258-R274): on a cluster whose engine has failed MXMAP, MXA, MXB and MXRUN trap ILLEGAL; otherwise words that
pass their checks enter the command queue, MXMAP after its table reads; MXRUN moves its skip cursor; MXSKIP makes a cursor; MXSCALE reads its
descriptor and begins its steps; MXSTAT is issued as an operation; MXCAP makes a capability; and MXSEND posts a run to the window of the
capability's cluster. -/
def Obligations.Matrix_commands_are_issued : Prop :=
  (∀ (s : State) (w : Bool) (a b : BitVec 6) (d : BitVec 2), (w = true → s.outstanding s.cur = false ∧ s.now.faultTrap = none) →
    (s.cluster (clusterOf s.cur.core)).health = 2 →
    let fails (i : Instr) : Prop := exec i s = .next (s.raise s.cur (exact cIllegal ((firstWord i).zeroExtend 64) 0))
    fails (.mxa ⟨w, a, b⟩) ∧ fails (.mxb ⟨w, a⟩) ∧ fails (.mxrun ⟨w, a, d⟩) ∧ (w = true → fails (.mxmap ⟨w, a, b⟩))) ∧
  (∀ (s : State) (w : Bool) (a b : BitVec 6) (d : BitVec 2), (s.cluster (clusterOf s.cur.core)).health ≠ 2 →
    (s.commands s.cur.core).length < 2 →
    let core := s.cur.core
    let A := s.now.getG a.toNat
    let B := s.now.getG b.toNat
    let room := s.reservoir (s.jobOf core)
    let goes (i : Instr) (kind : CmdKind) (words : List Word) (tag : Option Nat) : Prop := ∃ t, exec i s = .next t ∧ s.Commanded t kind words tag
    let col := mxbPlanes A * blocksOf (mxbK A) 128
    (s.Ready w [gr a] → bits A 62 61 = 0 → col ≤ bits A 36 21 → mxbBase A + mxbStride A * (mxbCols A - 1) + 16 * col ≤ room → mxbBase A % 16 = 0 →
      goes (.mxb ⟨w, a⟩) .mxb [A] none) ∧
    (s.Ready w [gr a, gr b] → bits A 31 0 = 0 → mxaTaken A ≤ mxaPlanes A → B.toNat ≤ 0x1FFFFF → B.toNat + 4 * mxaRows A ≤ room →
      B.toNat % 4 = 0 → bit (s.core core).owned (bits A 63 58) = false → goes (.mxa ⟨w, a, b⟩) .mxa [A, B] (some (bits A 63 58))) ∧
    (s.Ready w [gr a] → bit (s.core core).owned (runTag A) = false → ∃ t, exec (.mxrun ⟨w, a, d⟩) s = .next t ∧
      s.Commanded t .mxrun [A, s.now.getS d.toNat] (some (runTag A)) ∧ (rising s.ctxs = true → (t.ctx s.cur).getS d.toNat =
        if runSkips A then cursorAfter (s.now.getS d.toNat) (runK A) else s.now.getS d.toNat)) ∧
    (s.Ready true [gr a, gr b] → bits B 63 9 = 0 → bits B 7 6 = 0 → 1 ≤ bits B 5 0 → bits B 5 0 ≤ 32 → s.rangeTrap core A 64 8 = none →
      rising s.ctxs = true → ∃ t, exec (.mxmap ⟨w, a, b⟩) s = .next t ∧ s.sameMemory t ∧ (t.ctx s.cur).busy = .mxmap A B [] ∧ t.ops = s.ops)) ∧
  (∀ (s : State) (w : Bool) (a b d : BitVec 6) (r : BitVec 2),
    let core := s.cur.core
    let A := s.now.getG a.toNat
    let B := s.now.getG b.toNat
    (s.Ready w [gr a, gr b] → bits A 63 20 = 0 → B.toNat ≤ 4095 → A.toNat + 2 * B.toNat ≤ 0x100000 → A.toNat % 2 = 0 →
      s.firstBad (s.jobOf core) core (bits A 19 0) (2 * B.toNat) = none → exec (.mxskip ⟨w, a, b, r⟩) s =
        .next (s.after fun x => x.setS r.toNat (word (B.toNat * 2 ^ 48 + bits A 19 0)))) ∧
    (s.Ready true [gr a] → s.rangeTrap core A 32 8 = none → s.poolHeld s.cur = false → s.marksAllow false (poolLoc core (bits A 19 0)) 32 → s.poison = [] →
      let ws := s.rdWords (poolLoc core (bits A 19 0)) 4
      scaleBad ws = none → s.now.resumed = false → rising s.ctxs = true → ∃ t, exec (.mxscale ⟨w, a⟩) s = .next t ∧ s.sameMemory t ∧
        (t.ctx s.cur).busy = .mxscale ws s.now.rm 0) ∧
    (s.Ready w [gr a, gr d] → A.toNat ≤ 5 → ∃ t, exec (.mxstat ⟨w, a, d⟩) s = .next t ∧ s.Sent t .mxstat A ∧
      ⟨s.cycle + 1, none, .homeAccess, .num s.nextId⟩ ∈ t.agenda) ∧
    (s.Ready w [gr a, gr d] → s.jobOf core = 0 → bits A 63 32 = 0 → bits A 15 9 = 0 → bits A 8 5 ≤ 11 → exec (.mxcap ⟨w, a, d⟩) s =
      .next (s.after fun x => x.setG d.toNat (word (capTag s.capkey (bits A 31 0) * 2 ^ 32 + bits A 31 0)))) ∧
    (s.Ready w [gr a, gr b] → runSkips B = false → bits A 8 5 ≤ 11 → bit (s.core core).owned (runTag B) = false → s.ops = [] →
      rising s.cores = true → ∃ t q, exec (.mxsend ⟨w, a, b⟩) s = .next t ∧ t.ops = [q] ∧ q.mx = true ∧ q.jidx = some ((s.core core).jnext % 64) ∧
        q.body = .store 1 16 (BitVec.ofNat 128 (B.toNat * 2 ^ 64 + A.toNat)) ∧ q.addr = storeAddr (capTarget A) 0x1FFFF0 ∧
        bit (t.core core).owned (runTag B) = true ∧ s.sameMemory t)) ∧
  (∀ (s : State) (c : CtxId) (a b : Word) (es : List Word), s.arg = .ctx c → (s.ctx c).busy = .mxmap a b es → es.length < 6 → s.poison = [] →
    s.poolHeld c = false → rising s.ctxs = true →
    let at' := poolLoc c.core (bits a 19 0 + 8 * es.length)
    ∀ t l, s.markLines ⟨none, c⟩ (s.ctx c).region false (s.markable at' 16) = (.ok t, l) → ∃ u, exec .mxmapTableStep s = .next u ∧
      (u.ctx c).busy = .mxmap a b (es ++ [s.rd64 at', s.rd64 (at' + 8)])) ∧
  (∀ (s : State) (c : CtxId) (ws : List Word) (mode t : Nat) (u : State), s.arg = .ctx c → (s.ctx c).busy = .mxscale ws mode t →
    s.poolHeld c = false → (scaleOfWords ws).cols = 1 → s.scaleElement c (scaleOfWords ws) mode t = .ok u → rising u.ctxs = true → ∃ v, exec .mxscaleStep s = .next v ∧
      u.sameMemory v ∧ (t + 1 < (scaleOfWords ws).rows → (v.ctx c).busy = .mxscale ws mode (t + 1)) ∧
      ((scaleOfWords ws).rows ≤ t + 1 → v.ctx c = { u.ctx c with busy := .idle }.advance 1))

/-- What the matrix engine performs (R254, R258-R268, R274): MXMAP and MXB load their registers; MXA fills the latch in the order of its index list
and sets its tag; a run adds, to each sum, the product of a latch row and a column of B over the positions that are not skipped; a run that finds no
operands is refused with BOUNDS; the command window refuses a capability that is not the cluster's and lets a good one's run enter the queue; and a
failed engine abandons what it holds. -/
def Obligations.Matrix_engine_performs : Prop :=
  (∀ (s : State) (k : Nat) (c : Cmd), s.arg = .num k → rising s.clusters = true →
    (s.mxHead k .mxmap = some c → (s.cluster k).mxq = [c] → ∃ t, exec .mxmapPerform s = .next t ∧ (t.cluster k).mx = { (s.cluster k).mx with
      map := c.words.drop 1, pitch := bits (c.words.getD 0 0) 5 0, mv := true }) ∧
    (s.mxHead k .mxb = some c → (s.cluster k).mxq = [c] → ∃ t, exec .mxbPerform s = .next t ∧ (t.cluster k).mx = { (s.cluster k).mx with
      breg := setBits (c.words.getD 0 0) 63 63 0, bv := true }) ∧
    (rising s.cores = true → (s.core c.ctx.core).tagWaiters = [] →
      let w := c.words.getD 0 0
      let core := c.ctx.core
      (∀ rows, s.mxHead k .mxa = some c → (s.cluster k).mxq = [c] → s.gatherRows k w (bits (c.words.getD 1 0) 20 0) 0 (mxaRows w) = .ok rows →
        ∃ t, exec .mxaPerform s = .next t ∧ (t.cluster k).mx.latch = rows ∧ (t.cluster k).mx.lv = true ∧
          bit (t.core core).tags (runTag w) = true ∧ bit (t.core core).owned (runTag w) = false) ∧
      (s.mxHead k .mxrun = some c → s.runRefused k w = false → s.poison = [] → runEmits w = false →
        let m := (s.cluster k).mx
        let mask := blockMask (runK w) 0 (s.runSkipped core w (c.words.getD 1 0))
        let sums := accumulate m w mask ((List.range (runCols w)).map (s.columnFor k m.breg w)) (if runClears w then [] else m.accum)
        ∃ t, exec .mxrunPerform s = .next t ∧ s.sameMemory t ∧ (t.cluster k).mx.accum = sums.1 ∧ (t.cluster k).mx.sat = (m.sat || sums.2) ∧
          (t.cluster k).mx.runs = m.runs + 1 ∧ bit (t.core core).tags (runTag w) = true ∧ bit (t.core core).owned (runTag w) = false) ∧
      (s.mxHead k .mxrun = some c → s.runRefused k w = true → c.kind = .mxrun → ∃ t, exec .mxrunPerform s = .next t ∧ s.sameMemory t ∧
        (t.cluster k).mx.cause = cBounds ∧ (t.cluster k).mx.accum = (s.cluster k).mx.accum ∧ bit (t.core core).tagfault (runTag w) = true))) ∧
  (∀ (s : State) (id kind n : Nat) (data : BitVec 128) (o : Op), s.arg = .num id → s.op id = some o → o.body = .store kind n data →
    let cap : Word := data.truncate 64
    let run : Word := (data >>> 64).truncate 64
    let k := 12 * bits o.addr 55 51 + bits o.addr 59 56
    (s.capOk k cap = false → exec .mxCommandWindow s =
      .next (s.answer { o with loc := some (storeLoc k 0x1FFFF0) } (.refused cCapRefused 0 0))) ∧
    (s.capOk k cap = true → s.mxRoom k = false → exec .mxCommandWindow s = .next (s.later 1 none .mxCommandWindow (.pair o.id 1))) ∧
    (s.capOk k cap = true → s.mxRoom k = true → rising s.clusters = true → ∃ t c, exec .mxCommandWindow s = .next t ∧
      (t.cluster k).mxq = (s.cluster k).mxq ++ [c] ∧ c.kind = .mxrun ∧ c.words = [run, 0] ∧ c.job = bits cap 21 16 ∧ c.ctx = o.ctx)) ∧
  (∀ (s : State) (k : Nat), s.arg = .num k → rising s.clusters = true → ∃ t, exec .mxEngineFail s = .next t ∧ (t.cluster k).health = 2 ∧
    (t.cluster k).mxq = [] ∧ (t.cluster k).mxBusy = false)

/-- The dot product that a run computes on bit planes (R254, R263, R264) is the sum, over the positions that the mask keeps, of the product of the
two numbers that the planes hold at the position, each signed or unsigned as its operand says. -/
def Obligations.Matrix_planes_multiply : Prop :=
  ∀ (sa sb : Bool) (mask : Nat) (as bs : List Nat),
    let value (signed : Bool) (ps : List Nat) (k : Nat) : Int :=
      (ps.zipIdx.map fun (p, i) => if p.testBit k then planeWeight signed ps.length i else 0).foldl (· + ·) 0
    planeDot sa sb mask as bs =
      ((List.range 1024).map fun k => if mask.testBit k then value sa as k * value sb bs k else 0).foldl (· + ·) 0

/-- The curve instructions (R292-R302), with a control word that passes its checks and keys that are valid: DXENC, DXADD and DXSUB make the key
whose fields are the coordinates or the sums, modulo the axis width, and report each axis that overflows; DXDEC gives the fields; DXIN tells whether
a key lies in a box; DXLEV, DXCELL and DXCMP compare and cut keys at a level. The order of the register checks is log entry 18. -/
def Obligations.Curve_results : Prop :=
  ∀ (s : State) (o : KABD), s.Ready o.s [gr o.a, gr o.b, gr o.d] →
    let A := s.now.getG o.a.toNat
    let w := s.now.getG o.b.toNat
    let b (i : Nat) : Nat := (s.now.getG (o.b.toNat + i)).toNat
    let d := dxAxes w
    let usable (r m : Nat) : Prop := regTrap (s.core s.cur.core).partword s.now (regRange r m) = none
    let valid (x : Nat) : Prop := x < 2 ^ (d * axisBits d)
    let gives (i : Instr) (v : Word) : Prop := exec i s = .next (s.after fun x => x.setG o.d.toNat v)
    let makes (i : Instr) (ov : Nat → Prop) (field : Nat → Nat) (value : Word → Word) : Prop := ∃ key m : Nat,
      valid key ∧ m < 2 ^ d ∧ (∀ a, a < d → axisOf d a key = field a ∧ (m.testBit a = true ↔ ov a)) ∧
      (dxTrap w = true → m ≠ 0 → exec i s = .next (s.raise s.cur (exact cDxOverflow (value (word key)) (word m)))) ∧
      (dxTrap w = false ∨ m = 0 → exec i s = .next (s.after fun x => (x.setM (dxMask w) (BitVec.ofNat 16 m)).setG o.d.toNat (word key)))
    bits w 63 24 = 0 → bit w 15 = false → d ≤ 6 →
    (usable o.a.toNat d →
      let c (a : Nat) : Word := s.now.getG (o.a.toNat + a)
      makes (.dxenc o)
        (fun a => if dxSigned w then (c a).toInt < -(2 ^ (axisBits d - 1)) ∨ 2 ^ (axisBits d - 1) ≤ (c a).toInt else 2 ^ axisBits d ≤ (c a).toNat)
        (fun a => (c a).toNat % 2 ^ axisBits d) (fun k => k)) ∧
    (usable o.d.toNat d → valid A.toNat → rising s.ctxs = true → (rising s.now.g = true) → ∃ t, exec (.dxdec o) s = .next t ∧ s.onlyCtxs t ∧
      ∀ a, a < d → o.d.toNat + a ≠ 0 → (t.ctx s.cur).getG (o.d.toNat + a) = word (axisOf d a A.toNat)) ∧
    (usable (o.b.toNat + 1) 1 → valid A.toNat → valid (b 1) →
      let step (a : Nat) : Int := sextN (axisOf d a (b 1)) (axisBits d)
      let sum (a : Nat) : Int := axisOf d a A.toNat + step a
      let dif (a : Nat) : Int := axisOf d a A.toNat - step a
      makes (.dxadd o) (fun a => sum a < 0 ∨ 2 ^ axisBits d ≤ sum a) (fun a => (sum a % 2 ^ axisBits d).toNat) (fun _ => A) ∧
      makes (.dxsub o) (fun a => dif a < 0 ∨ 2 ^ axisBits d ≤ dif a) (fun a => (dif a % 2 ^ axisBits d).toNat) (fun _ => A) ∧
      (∀ l, l ≤ axisBits d → A.toNat / 2 ^ (d * l) = b 1 / 2 ^ (d * l) → (∀ m, m < l → A.toNat / 2 ^ (d * m) ≠ b 1 / 2 ^ (d * m)) →
        gives (.dxlev o) (word l)) ∧
      (dxLevel w ≤ axisBits d →
        let u := 2 ^ (d * dxLevel w)
        gives (.dxcmp o) (if A.toNat / u < b 1 / u then wordI (-1) else if A.toNat / u = b 1 / u then 0 else 1))) ∧
    (valid A.toNat → dxLevel w ≤ axisBits d →
      let u := 2 ^ (d * dxLevel w)
      gives (.dxcell o) (word (A.toNat / u * u + if dxHigh w then u - 1 else 0))) ∧
    (usable (o.b.toNat + 1) 2 → valid (b 1) → valid (b 2) →
      let inside (k : Nat) : Prop := valid k ∧ ∀ a, a < d → axisOf d a (b 1) ≤ axisOf d a k ∧ axisOf d a k ≤ axisOf d a (b 2)
      (valid A.toNat → inside A.toNat → gives (.dxin o) 1) ∧ (valid A.toNat → ¬ inside A.toNat → gives (.dxin o) 0))

/-- DXNEXT gives the least key of the box above a position, or −1 where there is none (R299); DXSPLIT writes at most as many ranges as it was given,
which together hold every key of the box and, where it does not report that it merged any, no other key, and it returns their count (R300). -/
def Obligations.Curve_boxes : Prop :=
  ∀ (s : State) (o : KABD) (n : Nat), s.Ready o.s [gr o.a, gr o.b, gr o.d] →
    let A := s.now.getG o.a.toNat
    let w := s.now.getG o.b.toNat
    let b (i : Nat) : Nat := (s.now.getG (o.b.toNat + i)).toNat
    let d := dxAxes w
    let valid (x : Nat) : Prop := x < 2 ^ (d * axisBits d)
    bits w 63 24 = 0 → bit w 15 = false → d ≤ 6 →
    regTrap (s.core s.cur.core).partword s.now (regRange (o.b.toNat + 1) 2) = none → valid (b 1) → valid (b 2) →
      let inside (k : Nat) : Prop := valid k ∧ ∀ a, a < d → axisOf d a (b 1) ≤ axisOf d a k ∧ axisOf d a k ≤ axisOf d a (b 2)
      (∀ k, inside k → A.toNat < k → (∀ j, inside j → A.toNat < j → k ≤ j) →
        exec (.dxnext o) s = .next (s.longResult s.cur (firstWord (.dxnext o)) (gr o.d) (wide (word k)) 4)) ∧
      ((∀ j, inside j → j ≤ A.toNat) →
        exec (.dxnext o) s = .next (s.longResult s.cur (firstWord (.dxnext o)) (gr o.d) (wide (wordI (-1))) 4)) ∧
      (let r := dxSplit d (b 1) (b 2) (dxRanges w)
       r.1.length = 2 * bits r.2 15 0 ∧ bits r.2 15 0 ≤ dxRanges w ∧
       (∀ k, inside k → ∃ i, 2 * i + 1 < r.1.length ∧ (r.1.getD (2 * i) 0).toNat ≤ k ∧ k ≤ (r.1.getD (2 * i + 1) 0).toNat) ∧
       (bit r.2 31 = false → ∀ i k, 2 * i + 1 < r.1.length → (r.1.getD (2 * i) 0).toNat ≤ k → k ≤ (r.1.getD (2 * i + 1) 0).toNat → inside k) ∧
       (s.rangeTrap s.cur.core A (16 * dxRanges w) 16 = none → s.noneOut → s.poison = [] → r.1.length = n → n ≠ 0 →
         s.marksAllow true (poolLoc s.cur.core (bits A 19 0)) (8 * n) → ∃ t, exec (.dxsplit o) s = .next t ∧
           s.Performed t (s.wrWords (poolLoc s.cur.core (bits A 19 0)) r.1) (wide r.2) (some (gr o.d))))

/-- Taking a trap and returning from one: the record, INTRAP and the handler's address, and that no other register changes, with the pending bits as
they were (R121; LOOP_FORM by a body word alone abandons the loop, R73); a TRAPVEC of 0 freezes the context (R128), and in job 0 hangs its die (R129); TRAP, BRK and an unassigned
encoding trap (R130, R53); and TRET goes on at TRAPPC with INTRAP 0, after it has issued a reported operation again, removed a held fault that the
instruction met, or freed the refused journal entry (R127). What becomes of a store that has left the core is log entry 36. -/
def Obligations.Traps_are_taken_and_returned : Prop :=
  (∀ (s : State) (c : CtxId) (t : Trap), rising s.ctxs = true →
    let x := s.ctx c
    let y := (s.takeTrap c t).ctx c
    (y.trapcause = word (t.kind.code * 256 + t.cause) ∧ y.trapval = t.value ∧ y.trapinfo = t.info ∧ y.trappc = t.pc.getD x.pc ∧ y.intrap = true ∧
      y.pc = word (bits x.trapvec 63 2 * 4) ∧ y.g = x.g ∧ y.v = x.v ∧ y.m = x.m ∧ y.sr = x.sr ∧ y.pend = x.pend ∧ y.fcsr = x.fcsr ∧
      y.rndseed = x.rndseed ∧ y.feretry = x.feretry ∧ y.trapvec = x.trapvec ∧ y.loopstart = x.loopstart ∧ y.loopend = x.loopend ∧ y.loopbuf = [] ∧
      (s.takeTrap c t).marks = s.marks ∧
      y.trapsave = x.trapsave ∧ (t.leavesLoop = false → y.loopcnt = x.loopcnt) ∧ (t.leavesLoop = true → y.loopcnt = 0)) ∧
    (bits x.trapvec 63 2 ≠ 0 → y.st = .running) ∧
    (bits x.trapvec 63 2 = 0 → y.st = .frozen ∧
      (s.jobOf c.core = 0 → rising s.dies = true → (s.takeTrap c t).die (dieOf c.core) = .hung))) ∧
  (∀ (o : KTrap) (s : State), s.Ready true [gr o.a] → exec (.trap o) s =
    .next (s.takeTrap s.cur ⟨.exact, 0x15, s.now.getG o.a.toNat, word o.c.toNat, some (s.now.pc + 4)⟩)) ∧
  (∀ (o : KBrk) (s : State), s.Ready true [] → exec (.brk o) s = .next (s.takeTrap s.cur ⟨.exact, 0x16, 0, word o.c.toNat, none⟩)) ∧
  (∀ (s : State) (w : IWord) (i : Nat), s.arg = .word w i → exec .unassignedEncoding s =
    .next (s.raise s.cur ⟨.exact, 0x01, w.zeroExtend 64, word i, none⟩)) ∧
  (∀ (o : K0) (s : State), s.Ready true [] →
    (s.now.intrap = false → exec (.tret o) s = .next (s.takeTrap s.cur ⟨.exact, 0x01, (firstWord (.tret o)).zeroExtend 64, 0, none⟩)) ∧
    (s.now.intrap = true → bits s.now.trappc 1 0 ≠ 0 → exec (.tret o) s = .next (s.takeTrap s.cur ⟨.exact, 0x05, s.now.trappc, 0, none⟩)) ∧
    (s.now.intrap = true → bits s.now.trappc 1 0 = 0 → rising s.ctxs = true →
      let kind := bits s.now.trapcause 9 8
      let back (y : Ctx) : Prop :=
        y.pc = s.now.trappc ∧ y.intrap = false ∧ y.g = s.now.g ∧ y.v = s.now.v ∧ y.m = s.now.m ∧ y.trapvec = s.now.trapvec
      (kind ≠ 1 ∨ s.now.faults = [] → ∃ t, exec (.tret o) s = .next t ∧ back (t.ctx s.cur) ∧
        (s.now.faults = [] → kind = 0 → t = s.setCtx s.cur
          { s.now with intrap := false, pc := s.now.trappc, handlerFirst := false, resumed := true, blocked := false }) ∧
        (∀ f, s.now.faults = [f] → f.reported = true → kind = 0 → bits s.now.trapcause 7 0 = f.cause → s.now.trapval = f.addr →
          (t.ctx s.cur).faults = []) ∧
        (∀ q, kind = 2 → bits s.now.trapcause 7 0 = 0x0C → s.journalEntry s.cur.core (bits s.now.trapinfo 5 0) = some q →
          q.left = false ∨ q.reason ≠ 0 → t.ops = s.ops.filter fun p => p.id != q.id)) ∧
      (∀ f, s.now.faults = [f] → f.reported = true → kind = 1 → (∀ a b c, f.op.body ≠ .stc a b c) →
        ∃ t, exec (.tret o) s = .next t ∧ back (t.ctx s.cur) ∧ ∃ q ∈ t.ops, q.id = s.nextId ∧ q.replay = true ∧ q.addr = f.op.addr ∧
          q.body = f.op.body ∧ q.dst = f.op.dst ∧ q.performed = false)))

/-- The CSR instructions (R52, R131): CSRR reads, CSRW writes, CSRX exchanges, CSRS sets and CSRC clears bits of what the
CSR holds, the last two without a write of g[D] (log entry 16), and what CAPKEY holds is the key, though it reads as 0 (R133); a CSR of the monitor's range traps PRIVILEGE outside job 0, and an unassigned one, or a write of a read-only one, traps ILLEGAL. The
steps that write CSRs make the same writes; JOBGEN with FREE set frees (log entry 35). -/
def Obligations.CSR_instructions : Prop :=
  (∀ (s : State) (w : Bool) (c : BitVec 12) (d : BitVec 6), s.Ready w [gr d] →
    let n := c.toNat
    let old := s.csrRead s.cur n
    let g := s.now.getG d.toNat
    let writes (i : Instr) (v : Word) (f : Ctx → Ctx) : Prop :=
      let u := s.csrWrite s.cur n v
      exec i s = .next (u.setCtx s.cur ((f (u.ctx s.cur)).advance 1))
    csrAssigned n = true → (0x100 ≤ n → n ≤ 0x1FF → s.jobOf s.cur.core = 0) →
      exec (.csrr ⟨w, c, d⟩) s = .next (s.after fun x => x.setG d.toNat old) ∧
      (csrReadOnly n = false →
        writes (.csrw ⟨w, c, d⟩) g id ∧ writes (.csrx ⟨w, c, d⟩) g (fun x => x.setG d.toNat old) ∧
        let held : Word := if n = 0x103 then s.capkey else old
        writes (.csrs ⟨w, c, d⟩) (held ||| g) id ∧
        writes (.csrc ⟨w, c, d⟩) (held &&& ~~~g) id)) ∧
  (∀ (s : State) (w : Bool) (c : BitVec 12) (d : BitVec 6), (w = true → s.outstanding s.cur = false ∧ s.now.faultTrap = none) →
    let n := c.toNat
    let denied (i : Instr) : Prop := exec i s = .next (s.raise s.cur (exact cPrivilege ((firstWord i).zeroExtend 64) (word n)))
    let illegal (i : Instr) : Prop := exec i s = .next (s.raise s.cur (exact cIllegal ((firstWord i).zeroExtend 64) 0))
    let writers : List Instr := [.csrw ⟨w, c, d⟩, .csrx ⟨w, c, d⟩, .csrs ⟨w, c, d⟩, .csrc ⟨w, c, d⟩]
    (0x100 ≤ n → n ≤ 0x1FF → s.jobOf s.cur.core ≠ 0 → denied (.csrr ⟨w, c, d⟩) ∧ ∀ i ∈ writers, denied i) ∧
    ((n < 0x100 ∨ 0x1FF < n ∨ s.jobOf s.cur.core = 0) →
      (csrAssigned n = false → illegal (.csrr ⟨w, c, d⟩)) ∧ (csrAssigned n = false ∨ csrReadOnly n = true → ∀ i ∈ writers, illegal i))) ∧
  (∀ (s : State) (a : CsrSet), s.arg = .csr a →
    let n := a.num.toNat
    let sets (i : Instr) : Prop := exec i s = .next (s.csrWrite a.ctx n a.value)
    (n ∈ [0x000, 0x010, 0x011, 0x012, 0x013, 0x014, 0x015, 0x050, 0x100, 0x110] → sets .csrWrite) ∧ (n = 0x020 → sets .fcsrWrite) ∧
    (n = 0x021 → sets .rndseedWrite) ∧ (n ∈ [0x030, 0x031, 0x032] → sets .loopCsrWrite) ∧ (n ∈ [0x040, 0x041] → sets .tagsWrite) ∧
    (n = 0x101 → sets .ptrootWrite) ∧ (n = 0x102 → bit a.value 3 = false → sets .jobgenGen) ∧
    (n = 0x102 → bit a.value 3 = true → sets .jobgenFree) ∧ (n = 0x103 → sets .capkeyWrite) ∧ (n = 0x111 → sets .thaw))

/-- What the CSRs hold and how a write changes them (R17-R21, R131-R134): each reads as its field; a write takes the fields that software may write;
RM keeps its value when 5, 6 or 7 is written; RNDSEED never holds 0; a loop CSR discards the loop buffer; a tag that is owned keeps its bit; JOBGEN
makes a free number live with a generation, and a killed one free; and THAW starts a frozen context at its handler. Four of these are the model's
choices: that a write of JOBGEN with FREE set makes a free number live, and that freeing keeps GEN (log entry 35), that THAW starts a context whose
TRAPVEC is 0 at address 0 (log entry 107), and which context JOBSEL and THAW select (log entry 108). An owned tag keeps its bits by R236. -/
def Obligations.CSR_values : Prop :=
  ∀ (s : State) (c : CtxId) (v : Word), rising s.ctxs = true → rising s.cores = true → rising s.jobs = true →
    let x := s.ctx c
    let co := s.core c.core
    let j := x.jobsel.toNat
    let reads (n : Nat) (r : Word) : Prop := (s.csrWrite c n v).csrRead c n = r
    (∀ i, i < 64 → bit ((s.csrWrite c 0x000 v).csrRead c 0x000) i = if i = 4 ∨ i = 5 then bit v i else bit (s.csrRead c 0x000) i) ∧
    s.csrRead c 0x001 = word c.k ∧ s.csrRead c 0x002 = word (xOf c.core * 128 + yOf c.core) ∧
    s.csrRead c 0x003 = word (co.gen % 1024 * 64 + s.jobOf c.core % 64) ∧ s.csrRead c 0x005 = word s.cycle ∧
    s.csrRead c 0x061 = word (s.journal c.core).length ∧ s.csrRead c 0x080 = word (s.cluster (clusterOf c.core)).health ∧
    reads 0x010 (word (bits v 63 2 * 4)) ∧ reads 0x011 v ∧ reads 0x012 (word (bits v 9 0)) ∧ reads 0x013 v ∧ reads 0x014 v ∧ reads 0x015 v ∧
    reads 0x020 (word (bits v 8 3 * 8 + if bits v 2 0 ≤ 4 then bits v 2 0 else x.fcsr.toNat % 8)) ∧
    reads 0x021 (if bits v 31 0 = 0 then 1 else word (bits v 31 0)) ∧
    reads 0x030 (word (bits v 31 0)) ∧ reads 0x031 (word (bits v 63 2 * 4)) ∧ reads 0x032 (word (bits v 63 2 * 4)) ∧
    (∀ n, n ∈ [0x030, 0x031, 0x032] → ((s.csrWrite c n v).ctx c).loopbuf = []) ∧
    reads 0x050 (word (bits v 15 0)) ∧ reads 0x100 (word (bits v 5 0)) ∧ reads 0x101 (word (bits v 51 14 * 2 ^ 14 + bits v 0 0)) ∧
    reads 0x110 (word (bits v 19 16 * 2 ^ 16 + bits v 14 0)) ∧
    (co.tagWaiters = [] → ∀ i, i < 64 →
      bit ((s.csrWrite c 0x040 v).core c.core).tags i =
        (if bit co.owned i then bit co.tags i else bit v i || (bit co.tags i && bit (s.freshTags c.core).1 i)) ∧
      bit ((s.csrWrite c 0x041 v).core c.core).tagfault i =
        (if bit co.owned i then bit co.tagfault i else bit v i || (bit co.tagfault i && bit (s.freshTags c.core).2 i))) ∧
    (bit v 3 = false → (s.job j).st = .free ∨ ((s.job j).st = .killed ∧ (s.job j).pend = false) →
      (s.csrWrite c 0x102 v).job j = { s.job j with st := .live, gen := bits v 15 6, drop := 0 }) ∧
    (bit v 3 = true → (s.job j).st = .free →
      (s.csrWrite c 0x102 v).job j = { s.job j with st := .live, gen := bits v 15 6, drop := 0 }) ∧
    (bit v 3 = true → (s.job j).st = .killed → (s.job j).pend = false → (s.csrWrite c 0x102 v).job j = { s.job j with st := .free }) ∧
    ((s.job j).st = .live → s.csrWrite c 0x102 v = s) ∧ (s.csrWrite c 0x103 v).capkey = v ∧
    (∀ d, bit v 8 = true → x.selected = some d → (s.ctx d).st = .frozen → ((s.csrWrite c 0x111 v).ctx d).st = .running ∧
      ((s.csrWrite c 0x111 v).ctx d).pc = word (bits (s.ctx d).trapvec 63 2 * 4)) ∧
    (∀ d, x.selected = some d → (s.ctx d).st ≠ .frozen → s.csrWrite c 0x111 v = s)

/-- JRNL and the privileged instructions at issue (R135-R142): JRNL gives a word of a journal entry, or 0 where no entry has the index; ICINV,
TLBINV and REPART stand as operations until they complete, an ICINV of no bytes being done at once; KILLJ makes a named job killed and takes its
operations away at once (log entry 37); CANCELJ makes it cancelled; each privileged one traps outside job 0. -/
def Obligations.System_instructions : Prop :=
  (∀ (s : State) (w : Bool) (a b d : BitVec 6),
    let A := s.now.getG a.toNat
    let B := s.now.getG b.toNat
    let core := s.cur.core
    (s.Ready w [gr a, gr d] →
      (∀ p, (s.journal core).find? (fun p => p.jidx == some (bits A 5 0)) = some p → exec (.jrnl ⟨w, a, d⟩) s =
        .next (s.longResult s.cur (firstWord (.jrnl ⟨w, a, d⟩)) (gr d) (wide (p.journalWord (bits A 7 6))) 5)) ∧
      ((∀ p ∈ s.journal core, p.jidx ≠ some (bits A 5 0)) → exec (.jrnl ⟨w, a, d⟩) s =
        .next (s.longResult s.cur (firstWord (.jrnl ⟨w, a, d⟩)) (gr d) (wide 0) 5))) ∧
    (s.Ready w [gr a, gr b] → bits A 63 48 = 0 → A.toNat + B.toNat ≤ 2 ^ 48 →
      (B = 0 → exec (.icinv ⟨w, a, b⟩) s = .next (s.after id)) ∧
      (B ≠ 0 → ∃ t, exec (.icinv ⟨w, a, b⟩) s = .next t ∧ s.Sent t (.icinv B) A)) ∧
    (s.jobOf core = 0 →
      (s.Ready w [gr a, gr b] → bits B 9 8 ≠ 3 → ∃ t, exec (.tlbinv ⟨w, a, b⟩) s = .next t ∧ s.Sent t (.tlbinv B) A) ∧
      (s.Ready w [gr a] →
        (∀ t off, bits A 63 61 = 1 → s.place core (word (A.toNat / 2 ^ 20 * 2 ^ 20)) = .ok (.pool t off) →
          let p := (s.core t).partword.toNat
          nbits p 27 26 ≠ 0 → nbits p 29 28 < 2 → ∃ u, exec (.repart ⟨w, a⟩) s = .next u ∧ s.Sent u .repart A) ∧
        (let n := bits A 5 0
         n ≠ 0 → rising s.jobs = true →
          (s.named A [.live, .cancelled] = false → exec (.killj ⟨w, a⟩) s = .next (s.after id)) ∧
          (s.named A [.live, .cancelled] = true → ∃ t, exec (.killj ⟨w, a⟩) s = .next t ∧ (t.job n).st = .killed ∧ (t.job n).pend = true ∧
            (∀ q ∈ t.ops, q.job ≠ n) ∧ (∀ v ∈ t.subs, v.job ≠ n) ∧ (∀ v ∈ t.waiters, v.job ≠ n) ∧
            ∃ k, ⟨k, none, .killjComplete, .triple n (s.job n).gen (s.nextId + 1)⟩ ∈ t.agenda) ∧
          (s.named A [.live] = false → exec (.cancelj ⟨w, a⟩) s = .next (s.after id)) ∧
          (s.named A [.live] = true → (s.job n).sched = .resident → ∃ t, exec (.cancelj ⟨w, a⟩) s = .next t ∧ s.Sent t .cancelj A ∧
            t.job n = { s.job n with st := .cancelled } ∧ ∀ c ∈ s.coresOf n, ∃ k, ⟨k, none, .cancelArrive, .pair n c⟩ ∈ t.agenda))))) ∧
  (∀ (s : State) (w : Bool) (a b : BitVec 6), (w = true → s.outstanding s.cur = false ∧ s.now.faultTrap = none) → s.jobOf s.cur.core ≠ 0 →
    ∀ i ∈ ([.tlbinv ⟨w, a, b⟩, .repart ⟨w, a⟩, .killj ⟨w, a⟩, .cancelj ⟨w, a⟩, .mxcap ⟨w, a, b⟩] : List Instr),
      exec i s = .next (s.raise s.cur (exact cPrivilege ((firstWord i).zeroExtend 64) 0)))

/-- How the operations of the system complete (R136-R141): after an ICINV no instruction cache holds a line of its range of the job, and after a
TLBINV no TLB holds a translation that it names; REPART holds dispatch until every context is free, and then halves the contexts and doubles the
registers of each; a kill ends, with nothing of the generation on its way, with the job's clusters free and PEND 0, and with it every CANCELJ of the generation and the
command of the schedule that was under way; a cancel reaches the cores one by one, dropping what their rings hold, and
is complete when the job has gone quiet. -/
def Obligations.System_operations_complete : Prop :=
  (∀ (s : State) (id : Nat) (o : Op), s.arg = .num id → s.op id = some o → o.id = id → rising s.clusters = true → rising s.cores = true →
    let gone (t : State) : Prop := ∀ q ∈ t.ops, q.id ≠ id
    (∀ n, o.body = .icinv n → s.storesBefore o = false → ∃ t, exec .invalidateComplete s = .next t ∧ gone t ∧
      ∀ k l, l ∈ (t.cluster k).icache → l.job = o.job → l.line < o.addr.toNat / 64 ∨ (o.addr.toNat + n.toNat - 1) / 64 < l.line) ∧
    (∀ n, o.body = .icinv n → s.storesBefore o = true → exec .invalidateComplete s = .next (s.later 1 none .invalidateComplete (.num id))) ∧
    (∀ sel, o.body = .tlbinv sel → s.storesBefore o = false → ∃ t, exec .invalidateComplete s = .next t ∧ gone t ∧
      ∀ k e, e ∈ (t.cluster k).tlb → tlbNamed sel o.addr e.job e.base e.size = false) ∧
    (o.body = .repart → let c := coreAt (bits o.addr 59 53) (bits o.addr 52 46)
      (s.core c).repart = none ∨ (s.core c).repart = some id →
      ((∃ x ∈ s.coreCtxs c, (s.ctx x).st ≠ .free) → ∃ t, exec .repartApply s = .next t ∧ t.core c = { s.core c with repart := some id } ∧
        ⟨s.cycle + 1, none, .repartApply, .num id⟩ ∈ t.agenda) ∧
      ((∀ x ∈ s.coreCtxs c, (s.ctx x).st = .free) → nbits (s.core c).partword.toNat 27 26 ≠ 0 → nbits (s.core c).partword.toNat 29 28 < 2 →
        ∃ t, exec .repartApply s = .next t ∧ gone t ∧ (t.core c).repart = none ∧
          2 * ctxCount (t.core c).partword = ctxCount (s.core c).partword ∧ classG (t.core c).partword = 2 * classG (s.core c).partword ∧
          classV (t.core c).partword = 2 * classV (s.core c).partword ∧ partSys (t.core c).partword = partSys (s.core c).partword ∧
          partAcc (t.core c).partword = partAcc (s.core c).partword ∧ partSpad (t.core c).partword = partSpad (s.core c).partword)) ∧
    (o.body = .cancelj → let n := bits o.addr 5 0
      ((s.job n).st = .killed → (s.job n).pend = false) →
      (∀ c ∈ s.coresOf n, (s.core c).cancelled = true ∧ ∀ x ∈ s.coreCtxs c, (s.ctx x).st = .free) →
      (∀ q ∈ s.ops, q.job = n → q.body.isMessage = false) → (∀ d ∈ s.agenda, inFlight n d = false) →
      ∃ t, exec .canceljComplete s = .next t ∧ gone t)) ∧
  (∀ (s : State) (n gen id : Nat), s.arg = .triple n gen id → (s.job n).st = .killed → (s.job n).pend = true → (s.job n).gen = gen → n ≠ 0 →
    (∀ d ∈ s.agenda, d.carries n gen = false) → rising s.cores = true → rising s.jobs = true → ∃ t, exec .killjComplete s = .next t ∧
      t.job n = { s.job n with pend := false, cmd := none } ∧
      (∀ q ∈ t.ops, q.body = .cancelj → bits q.addr 15 0 ≠ jobid n gen) ∧
      (∀ k, (s.job n).cmd = some k → ⟨s.cycle, none, .journalAccept, .num k⟩ ∈ t.agenda) ∧
      ∀ c, isMonitor c = false → (s.core c).owner = some n → (t.core c).owner = none) ∧
  (∀ (s : State) (n c : Nat), s.arg = .pair n c → (s.core c).owner = some n → (s.job n).st = .cancelled → rising s.cores = true →
    rising s.jobs = true → ∃ t, exec .cancelArrive s = .next t ∧ (t.core c).cancelled = true ∧ (t.core c).ring = [] ∧
      (t.job n).drop = (s.job n).drop + BitVec.ofNat 32 ((s.core c).ring.filter fun p => p.2.isSome).length)

/-- Translation and fetch (R325-R330, R335, R379): a 64 KiB page is found by three reads; a walker that succeeds puts its page into the cluster's
TLB where the access may use it and gives its walker back, and one that fails answers PAGE, PROTECT for a page that the access may not use, or
ENDPOINT_DOWN where an entry's home does not operate (log entry 34); a waiting miss gets a walker and its root from PTROOT as it stands then; a fetch waits for a walk, fills a line from memory, or takes the cause
of its translation (its TRAPVAL is log entry 70); and a code page is verified by its hash, told to the host at its first mismatch, and the loss of
the job at its second (log entries 8 and 69). -/
def Obligations.Translation_and_fetch : Prop :=
  (∀ (s : State) (job va : Nat) (t2 t3 pa : Nat), va < 2 ^ 48 →
    let root := (s.job job).ptroot
    let e3 := s.rd64 (t3 + 8 * nbits va 26 16)
    bits root 0 0 = 1 → bits root 51 14 * 2 ^ 14 < Config.hbmBytes →
    pteTable (s.rd64 (bits root 51 14 * 2 ^ 14 + 8 * nbits va 47 38)) = some t2 →
    pteTable (s.rd64 (t2 + 8 * nbits va 37 27)) = some t3 →
    e3 = word (pa + 2) ||| (e3 &&& 0x70) → pa % 2 ^ 16 = 0 → pa + 2 ^ 16 ≤ Config.hbmBytes →
    ∃ p, s.walk job va = some p ∧ p.pa + (va - p.base) = pa + va % 2 ^ 16 ∧ p.size = 2 ^ 16 ∧ p.ex = bit e3 6 ∧ p.wr = bit e3 5 ∧ p.rd = bit e3 4) ∧
  (∀ (s : State) (k job region : Nat) (m : Miss) (o : Op), s.arg = .triple k job region → m ∈ (s.cluster k).misses → m.job = job →
    m.region = region → m.walking = true → m.gen = (s.job job).gen → rising s.clusters = true → (s.cluster k).misses = [m] →
    s.walkWaits k job region = [o] → s.poison = [] → k < 384 →
    let fails (t : State) (cause : Nat) : Prop := o.jidx = none → ⟨s.cycle, none, .fallibleOpFault, .fault o.id cause o.addr⟩ ∈ t.agenda
    ∃ t, exec .pageWalk s = .next t ∧ (t.cluster k).misses = [] ∧
      ⟨s.cycle, none, .walkerGrant, .num ((k / 12) / 16 * 2 + (k % 12) / 6)⟩ ∈ t.agenda ∧
      (s.walkDown m.root (region * 2 ^ 16) = true → fails t cEndpoint) ∧
      (∀ p, s.walkDown m.root (region * 2 ^ 16) = false → s.walkFrom m.root (region * 2 ^ 16) = some p →
        o.body.need.ok p.ex p.wr p.rd = true → m.noFill = false →
        ∃ e, (t.cluster k).tlb.head? = some e ∧ e.job = job ∧ e.base = p.base ∧
          e.size = p.size ∧ e.pa = p.pa ∧ e.wr = p.wr ∧ e.rd = p.rd ∧ e.ex = p.ex) ∧
      (∀ p, s.walkDown m.root (region * 2 ^ 16) = false → s.walkFrom m.root (region * 2 ^ 16) = some p →
        o.body.need.ok p.ex p.wr p.rd = false → m.needs = [] → fails t cProtect ∧
        (t.cluster k).tlb = (s.cluster k).tlb) ∧
      (s.walkDown m.root (region * 2 ^ 16) = false → s.walkFrom m.root (region * 2 ^ 16) = none → fails t cPage)) ∧
  (∀ (s : State) (d k : Nat) (m : Miss), s.arg = .num d → s.dieMisses d = [(k, m)] → m.walking = false → (s.cluster k).misses = [m] →
    rising s.clusters = true → ∃ t n, exec .walkerGrant s = .next t ∧ (t.cluster k).misses =
      [{ m with walking := true, root := (s.job m.job).ptroot }] ∧ ⟨n, some (m.path k), .pageWalk, .triple k m.job m.region⟩ ∈ t.agenda) ∧
  (∀ (s : State) (c : CtxId) (line : Nat), s.arg = .line c line →
    let job := s.jobOf c.core
    let k := clusterOf c.core
    (s.pageAt k job (64 * line) .fetch = .error 0 → exec .icacheFill s = .next (s.addMiss k job (64 * line) [.fetch])) ∧
    (∀ cause, s.pageAt k job (64 * line) .fetch = .error cause → cause ≠ 0 → exec .icacheFill s =
      .next ((s.spent k job (word (64 * line))).fetchFault c (exact cause (s.missAddr c line) 1))) ∧
    (∀ pa, s.pageAt k job (64 * line) .fetch = .ok pa → s.homeDown pa = true → exec .icacheFill s =
      .next (s.fetchFault c (exact cEndpoint (s.missAddr c line) 1))) ∧
    (∀ pa, s.pageAt k job (64 * line) .fetch = .ok pa → s.homeDown pa = false → s.granuleRetired pa 64 = true → exec .icacheFill s =
      .next (s.fetchFault c (exact cProtect (s.missAddr c line) 1))) ∧
    (∀ pa, s.pageAt k job (64 * line) .fetch = .ok pa → s.homeDown pa = false → s.granuleRetired pa 64 = false →
      (∀ p ∈ (s.job job).pages, p.verified = true) → s.poison = [] → rising s.clusters = true → ∃ t l, exec .icacheFill s = .next t ∧ (t.cluster k).icache.head? = some l ∧ l.job = job ∧ l.line = line ∧
        l.words = (List.range 16).map fun i => BitVec.ofNat 32 (s.read (pa + 4 * i) 4)) ∧
    (∀ pa p, s.pageAt k job (64 * line) .fetch = .ok pa → s.homeDown pa = false → s.granuleRetired pa 64 = false → (s.job job).pages = [p] → p.page = 64 * line / 65536 → p.verified = false →
      rising s.ctxs = true → s.agenda = [] → ∃ t, exec .icacheFill s = .next t ∧ (t.ctx c).st = .marker ∧ (t.ctx c).busy = .codeWait p.page ∧
        ∃ n, ⟨n, none, .codePageVerify, .pair job p.page⟩ ∈ t.agenda)) ∧
  (∀ (s : State) (job page : Nat) (p : CodePage), s.arg = .pair job page → (s.job job).pages = [p] → p.page = page → p.verified = false →
    let copied := s.writeBytes p.pa (s.readBytes p.src 65536)
    rising s.jobs = true → (copied.codeWaiters job page) = [] →
    (sha3 (s.readBytes p.src 65536) = copied.readBytes p.hash 32 → ∃ t, exec .codePageVerify s = .next t ∧ copied.sameMemory t ∧
      (t.job job).pages = [{ p with verified := true }]) ∧
    (sha3 (s.readBytes p.src 65536) ≠ copied.readBytes p.hash 32 → p.failed = false → ∃ t, exec .codePageVerify s = .next t ∧
      copied.sameMemory t ∧ (t.job job).pages = [{ p with failed := true }] ∧
      ∃ w, Outgoing.record (s.job job).host (leBytes 8 w) ∈ t.out) ∧
    (sha3 (s.readBytes p.src 65536) ≠ copied.readBytes p.hash 32 → p.failed = true → job ≠ 0 → (s.job job).st = .live →
      ∃ t, exec .codePageVerify s = .next t ∧ (t.job job).st = .killed ∧ ((t.job job).lostRec).isSome = true))

/-- Scheduling (R306-R318): the schedule window refuses with PROTECT a command with a reserved field set, of a reserved OP, of a job or a generation that
is not live or cancelled or whose corner cluster it is not, and one that the schedule state does not accept, and it passes on the others (R311,
R312); QUIESCE and SWITCH_OUT send the hold to every core of the rectangle; a hold that arrives is in force; a job that is
quiet under it (log entry 64) becomes quiesced, or is saved and leaves its cores; RELEASE and ABORT lift the hold; SWITCH_IN puts the saved state
back with the hold in force after the model's 1024 cycles (log entry 68), and the job is resident once its inbox is empty; a held thread at a marker
wait becomes a continuation (log entry 65); and a thread that has reached no blocking point for WDLIMIT cycles takes WATCHDOG. -/
def Obligations.Scheduling_events : Prop :=
  (∀ (s : State) (o : Op) (k : Nat) (d : Vec), s.arg = .num o.id → s.op o.id = some o → o.performed = false ∧ o.reason = 0 ∧ o.mx = false ∧ o.left = true →
    let l := 2 ^ 42 + k * 2 ^ 21 + 0x1FFFE0
    o.loc = some l → k < 384 → s.homeDown l = false → s.stampOk 0 o.gen = true → o.job = 0 → o.ord = .release → o.body = .store 1 16 d →
    let d0 := o.data0
    let d1 := o.data1
    let n := bits d0 5 0
    let op := bits d0 23 20
    let j := s.job n
    (bits d0 63 48 ≠ 0 ∨ bits d0 31 24 ≠ 0 ∨ bits d0 19 16 ≠ 0 ∨ op = 0 ∨ 5 < op ∨ n = 0 ∨ j.gen ≠ bits d0 15 6 ∨ (j.st ≠ .live ∧ j.st ≠ .cancelled) ∨
      k ≠ 12 * j.cy + j.cx ∨ ((op = 1 ∨ op = 2) ∧ j.sched ≠ .resident) ∨ (op = 3 ∧ j.sched ≠ .switchedOut) ∨ (op = 4 ∧ j.sched ≠ .quiesced) ∨
      (op = 5 ∧ j.sched ≠ .quiescing ∧ j.sched ≠ .quiesced ∧ j.sched ≠ .switching) ∨ (op = 2 ∧ bits d0 47 32 = 0) ∨ (op ≠ 2 ∧ bits d0 47 32 ≠ 0) ∨
      ((op = 2 ∨ op = 3) ∧ (bits d1 63 52 ≠ 0 ∨ bits d1 15 0 ≠ 0)) ∨ (op ≠ 2 ∧ op ≠ 3 ∧ d1 ≠ 0) →
      exec .homeAccess s = .next (s.answer o (.refused 0x08 0 0)) ∧ s.sameMemory (s.answer o (.refused 0x08 0 0))) ∧
    (d1 = 0 → n ≠ 0 → s.stampOk n (bits d0 15 6) = true → k = 12 * j.cy + j.cx →
      (d0.toNat = 1 * 2 ^ 20 + bits d0 15 0 → j.sched = .resident → j.cmd = none → exec .homeAccess s =
        .next ((s.setJob n { j with cmd := some o.id, sched := .quiescing }).later 0 none .quiesce (.num o.id))) ∧
      (d0.toNat = 4 * 2 ^ 20 + bits d0 15 0 → j.sched = .quiesced → exec .homeAccess s =
        .next ((s.setJob n j).later 0 none .releaseJob (.num o.id))) ∧
      (d0.toNat = 5 * 2 ^ 20 + bits d0 15 0 → j.sched = .switching → exec .homeAccess s =
        .next ((s.setJob n j).later 0 none .abortSwitch (.num o.id))))) ∧
  (∀ (s : State) (id n : Nat) (j : Job), s.arg = .num id → s.schedOf id = some (n, j) → j.coset = [] → j.comembers = [] →
    ∀ i ∈ ([.quiesce, .switchOut] : List Instr), ∃ t, exec i s = .next t ∧ (∃ k, ⟨k, none, .quiesced, .num n⟩ ∈ t.agenda) ∧
      ∀ c ∈ s.rectCores n, ∃ k, ⟨k, none, .holdArrive, .pair n c⟩ ∈ t.agenda) ∧
  (∀ (s : State) (n c : Nat), s.arg = .pair n c → (s.core c).owner = some n → (s.job n).sched = .quiescing ∨ (s.job n).sched = .switching →
    exec .holdArrive s = .next (s.setCore c { s.core c with held := true })) ∧
  (∀ (s : State) (n id : Nat), s.arg = .num n → (s.job n).cmd = some id → rising s.jobs = true →
    (s.isQuiet n = true → (s.job n).sched = .quiescing → exec .quiesced s =
      .next ((s.setJob n { s.job n with sched := .quiesced, cmd := none }).schedDone id)) ∧
    (s.isQuiet n = true → (s.job n).sched = .switching → ∃ k, exec .quiesced s = .next (s.later k none .switchOutSaveDone (.num n))) ∧
    (s.isQuiet n = false → (s.job n).sched = .quiescing → ∃ k, exec .quiesced s = .next (s.later k none .quiesced (.num n))) ∧
    (s.isQuiet n = true → (s.job n).sched = .switching → s.poison = [] → rising s.cores = true → rising s.mem = true →
      (s.job n).save + saveBytes (s.job n).icap ((s.job n).cw * (s.job n).ch) ≤ Config.hbmBytes → ∃ t, exec .switchOutSaveDone s = .next t ∧
        (t.job n).sched = .switchedOut ∧ (t.job n).cmd = none ∧ s.capture n ∈ t.saves ∧ (∀ c ∈ s.coresOf n, (t.core c).owner = none) ∧
        t.rd64 (s.job n).save = word ((s.job n).icap * 2 ^ 32)) ∧
    (s.read (s.job n).save 4 = 0 → (s.job n).sched = .switchedOut → s.subs = [] → ∃ t, exec .inboxDeliver s = .next t ∧
      (t.job n).sched = .resident ∧ (t.job n).cmd = none)) ∧
  (∀ (s : State) (id : Nat) (o : Op), s.arg = .num id → s.op id = some o → rising s.jobs = true → rising s.cores = true →
    let n := o.schedJob
    ((s.job n).sched = .quiesced → ∃ t, exec .releaseJob s = .next t ∧ (t.job n).sched = .resident ∧ ∀ c ∈ s.coresOf n, (t.core c).held = false) ∧
    ((s.job n).sched = .quiescing ∨ (s.job n).sched = .quiesced ∨ (s.job n).sched = .switching → ∃ t, exec .abortSwitch s = .next t ∧
      (t.job n).sched = .resident ∧ (t.job n).cmd = none ∧ ∀ c ∈ s.coresOf n, (t.core c).held = false) ∧
    (∀ v j, s.schedOf id = some (n, j) → s.saves.find? (fun v => v.job == n) = some v → exec .switchIn s =
      .next ((s.putBack v).later 1024 none .inboxDeliver (.num n)))) ∧
  (∀ (s : State) (v : Saved) (c : Nat) (co : Core), v.cores = [(c, co)] → rising s.cores = true → (s.job v.job).st = .live →
    (s.putBack v).core c = { co with held := true } ∧ ∀ w ∈ (s.putBack v).saves, w.job ≠ v.job) ∧
  (∀ (s : State) (c : CtxId), s.arg = .ctx c →
    (∀ e u, (s.core c.core).held = true → s.atMarkerBlock c = true → s.intoPool c 7 (s.ctx c).pc 0 false = some (e, u) →
      exec .preempt s = .next u) ∧
    ((s.ctx c).st = .running → s.watchDue c = true → exec .watchdog s =
      .next ((s.setCtx c { s.ctx c with watched := s.cycle - (s.ctx c).since }).takeTrap c
        ⟨.asynchronous, 0x18, word (s.cycle - (s.ctx c).since), 0, none⟩)) ∧
    (let wd := (s.job (s.jobOf c.core)).wdlimit
     s.watchDue c = true ↔ 0 < wd ∧ (s.ctx c).intrap = false ∧ (s.ctx c).watched / wd < (s.cycle - (s.ctx c).since) / wd))

/-- Host commands (R347, R348, R350, R365, R368, R378): while the island serves, each is performed and answered with a reply, whose body is the
model's choice where the manual gives none (log entries 12 and 14); POWER moves dies between OFF and RESET, CRESET brings them to RUN, FWLOAD and
ISLRESET begin a drain, DOMAIN names the device; a command of the monitor class stands in its ring entry, and the monitor's part of LAUNCH, CANCEL,
KILL and CHECKPOINT is performed with it (log entry 21); in DRAIN a command is answered with an error, and with its ring entry in use the receiver
is not ready (log entry 73). -/
def Obligations.Host_commands : Prop :=
  (∀ (s : State) (h : HostReq),
    let a := hostArg h
    let replied (t : State) : Prop := ∃ w, Outgoing.reply h.host (hostTag h) true w [] ∈ t.out
    (s.Serves h 0x01 → exec .hostStatus s = .next (s.hostReply h true
      (leBytes 8 s.islState.toNat ++ wordBytes s.lifeHeader ++ s.island.closed.map fun n => BitVec.ofNat 8 n))) ∧
    (s.Serves h 0x02 → bits a 63 9 = 0 → bits a 7 4 = 0 → rising s.dies = true → ∃ t, exec .hostPower s = .next t ∧ replied t ∧
      ∀ d, d < 4 → t.die d = if bit a d = true then (if bit a 8 = true then (if s.die d = .off then .reset else s.die d) else .off) else s.die d) ∧
    (s.Serves h 0x03 → bits a 63 4 = 0 → rising s.dies = true → ∃ t, exec .creset s = .next t ∧ replied t ∧
      ∀ d, d < 4 → d ∉ s.hot → t.die d = if bit a d = true ∧ s.die d ≠ .off then .run else s.die d) ∧
    (s.Serves h 0x04 → exec .hostQuote s = .next ((s.quote a).2.hostReply h true (s.quote a).1)) ∧
    (s.Serves h 0x05 → ∃ t, exec .fwload s = .next t ∧ replied t ∧
      (Config.isIslandFirmware a (hostBody h) = true → t.island.st = .drain ∧ t.island.firmware = some (hostBody h)) ∧
      (Config.isIslandFirmware a (hostBody h) = false → t.island.monitorFw = hostBody h ∧ t.island.st = s.island.st)) ∧
    (s.Serves h 0x0A → exec .liferead s = .next (s.hostReply h true (s.lifeSlice a.toNat))) ∧
    (s.Serves h 0x0B → ∃ t, exec .islreset s = .next t ∧ replied t ∧ t.island.st = .drain ∧
      ∃ n, ⟨n, none, .drainEnd, .nothing⟩ ∈ t.agenda) ∧
    (s.Serves h 0x0C → bits a 63 28 = 0 → bits a 15 10 = 0 → bits a 9 0 ≤ 767 → bits a 19 16 ≤ 8 → bits a 23 20 ≤ 8 → bits a 27 24 ≤ 12 →
      ∃ t, exec .hostDomain s = .next t ∧ replied t ∧ t.devnum = bits a 9 0 ∧
        t.island.extents = (bits a 19 16, bits a 23 20, bits a 27 24)) ∧
    (bits a 63 16 ≠ 0 → ∀ p ∈ ([(.hostCancel, 0x07), (.hostKill, 0x08), (.hostCheckpoint, 0x09)] : List (Instr × Nat)), s.Serves h p.2 →
      exec p.1 s = .next (s.hostReply h false []))) ∧
  (∀ (s u : State) (h : HostReq),
    let a := hostArg h
    let n := bits a 5 0
    (s.Rings u h 0x07 → bits a 63 16 = 0 → n ≠ 0 → exec .hostCancel s =
      .next ((if u.named a [.live] = true then u.cancel n else u).hostReply h true [])) ∧
    (s.Rings u h 0x08 → bits a 63 16 = 0 → n ≠ 0 → exec .hostKill s =
      .next ((if u.named a [.live, .cancelled] = true then u.kill n 0 else u).hostReply h true [])) ∧
    (s.Rings u h 0x06 →
      (∀ p, u.planLaunch (hostBody h) = some p →
        let down := u.spanDown p.base p.size || u.spanDown p.record.image p.record.len || u.spanDown p.record.hashes (32 * p.record.npage)
        (down = true → exec .hostLaunch s = .next (u.hostRefuse h (some cEndpoint))) ∧
        (down = false →
          (∀ t, (u.layJob p h.host).fillJob p = .ok t → exec .hostLaunch s = .next (t.hostReply h true (leBytes 8 (jobid p.job (t.job p.job).gen)))) ∧
          (∀ e, (u.layJob p h.host).fillJob p = .error e → exec .hostLaunch s = .next (u.hostRefuse h e)))) ∧
      (u.planLaunch (hostBody h) = none → exec .hostLaunch s = .next (u.hostReply h false []))) ∧
    (∀ code, u.hostRefuse h (some code) = { u with out := u.out ++ [Outgoing.reply h.host (hostTag h) false (word code) []] }) ∧
    (s.Rings u h 0x09 → bits a 63 16 = 0 → u.named a [.live, .cancelled] = true → (∀ c ∈ u.island.ckpts, c.job ≠ n) → ∃ t c, exec .hostCheckpoint s = .next t ∧
      c ∈ t.island.ckpts ∧ c.job = n ∧ c.gen = bits a 15 6 ∧ c.begun = false ∧
      ∃ k, ⟨k, none, .hostCheckpoint, .pair n (bits a 15 6)⟩ ∈ t.agenda) ∧
    (∀ r, s.toRing h = .ok u → s.island.attach = some r → (s.monitorFor 0).isSome = true → rising s.mem = true →
      u.readBytes (r.ring + 65536 * s.island.next) h.bytes.length = h.bytes ∧ s.island.next ∈ u.island.inUse ∧
      u.island.next = (s.island.next + 1) % max 1 r.entries)) ∧
  (∀ (s : State) (n gen : Nat) (c : Ckpt), s.arg = .pair n gen → s.island.ckpts = [c] → c.job = n → c.gen = gen → c.begun = false →
    (s.job n).gen = gen → (s.job n).st = .live → (s.job n).sched = .quiesced → exec .hostCheckpoint s = .next (s.startCkpt c)) ∧
  (∀ (s : State) (h : HostReq), s.arg = .host h → s.island.refused = [] →
    ∀ p ∈ ([(.hostPower, 0x02), (.creset, 0x03), (.hostQuote, 0x04), (.fwload, 0x05), (.hostLaunch, 0x06), (.hostCancel, 0x07), (.hostKill, 0x08),
      (.hostCheckpoint, 0x09), (.liferead, 0x0A), (.islreset, 0x0B), (.hostDomain, 0x0C)] : List (Instr × Nat)), hostCode h = p.2 →
      (s.island.st = .drain → s.ringBusy = false → exec p.1 s = .next (s.hostReply h false [])) ∧
      (s.island.st = .forward ∨ s.island.st = .full ∨ s.island.st = .drain → s.ringBusy = true → ∃ t, exec p.1 s = .next t ∧
        t.out = s.out ++ [Outgoing.notReady h.host] ∧ t.island.refused = [(h.host, h.bytes)])) ∧
  (∀ (s : State) (h : HostReq), s.arg = .host h → s.island.st ≠ .off → s.island.st ≠ .boot → exec .unsupportedOperation s =
    .next { s with out := s.out ++ [Outgoing.unsupported h.host] })

/-- Commands at the island window (R349-R351, R356): the window refuses with PROTECT a command with a bit of 63:15 set or an unassigned code, and, by the
model's reading, every command while the island is OFF or in BOOT (log entry 83); ATTACH brings the island to FULL with an empty ring (the record's layout is log entry 23),
REPLY sends a record of 64 bytes (log entry 15), OPEN opens a stream, CLOSE ends one that has no frame open, FREE frees a ring entry, and CKPT
starts the stream of a quiesced job (log entry 74); each is answered, and one whose conditions fail, or whose record lies above the memory (log entry
23), is refused PROTECT; a checkpoint whose stream has no port ends with ENDPOINT_DOWN, and its end is told to its channel, or, where the model ran it
for a host, releases the job (log entry 21). -/
def Obligations.Island_window_commands : Prop :=
  (∀ (s : State) (o : Op) (d : Vec), s.arg = .num o.id → s.op o.id = some o → o.performed = false ∧ o.reason = 0 ∧ o.mx = false ∧ o.left = true →
    o.loc = some (2 ^ 42 + 0x1FFFD0) → s.stampOk 0 o.gen = true → o.job = 0 → o.ord = .release → o.body = .store 1 16 d →
    let code := bits o.data0 7 0
    (bits o.data0 63 15 ≠ 0 ∨ code = 0 ∨ 6 < code ∨ s.island.st = .off ∨ s.island.st = .boot →
      exec .homeAccess s = .next (s.answer o (.refused 0x08 0 0)) ∧ s.sameMemory (s.answer o (.refused 0x08 0 0))) ∧
    (bits o.data0 63 15 = 0 → s.island.st ≠ .off → s.island.st ≠ .boot →
      ∀ p ∈ ([(1, .attachRing), (2, .hostReply), (3, .openStream), (4, .closeStream), (5, .ckpt), (6, .freeEntry)] : List (Nat × Instr)), code = p.1 →
        exec .homeAccess s = .next (s.later 0 none p.2 (.num o.id)))) ∧
  (∀ (s : State) (o : Op) (d0 d1 : Word), s.AtWindow o d0 d1 →
    let w (i : Nat) : Word := s.rd64 (d1.toNat + 8 * i)
    let n := bits d0 14 8
    let refused (i : Instr) : Prop := exec i s = .next (s.answer o (.refused 0x08 0 0))
    (s.island.st = .forward ∨ s.island.st = .full → bits (w 0) 11 0 = 0 → bits (w 1) 31 0 ≠ 0 → s.die (dieOf o.ctx.core) = .run →
        (w 0).toNat + 65536 * bits (w 1) 31 0 ≤ Config.hbmBytes →
      ∃ t a, exec .attachRing s = .next t ∧ t.island.st = .full ∧ t.island.attach = some a ∧ a.ring = (w 0).toNat ∧ a.entries = bits (w 1) 31 0 ∧
        a.chan = bits (w 1) 37 32 ∧ t.island.inUse = [] ∧ t.island.next = 0 ∧
        a.windows = ([((w 2).toNat, (w 3).toNat), ((w 4).toNat, (w 5).toNat), ((w 6).toNat, (w 7).toNat)].filter fun p => p.2 != 0)) ∧
    (s.island.st ≠ .forward → s.island.st ≠ .full → refused .attachRing) ∧
    (∃ t host, exec .hostReply s = .next t ∧ t.out = s.out ++ [Outgoing.record host (s.readBytes d1.toNat 64)]) ∧
    ((∀ x ∈ s.island.streams, x.num ≠ n) → ∃ t x, exec .openStream s = .next t ∧ t.island.streams = s.island.streams ++ [x] ∧ x.num = n ∧
      x.words = s.rdWords d1.toNat 8 ∧ x.index = 0 ∧ x.frame = none) ∧
    ((∃ x ∈ s.island.streams, x.num = n) → refused .openStream) ∧
    (d1 ≠ 0 → refused .closeStream) ∧
    (∀ x, d1 = 0 → s.island.streams.find? (fun y => y.num == n) = some x →
      (x.frame = none → ∃ t, exec .closeStream s = .next t ∧ t.island.streams = s.island.streams.filter (fun y => y.num != n)) ∧
      (x.frame ≠ none → ∃ t, exec .closeStream s = .next t ∧
        t.island.streams = s.island.streams.map fun y => if y.num = n then { y with closing := true } else y)) ∧
    ((∀ x ∈ s.island.streams, x.num ≠ n) → refused .closeStream) ∧
    (∀ a, s.island.attach = some a → d1.toNat < a.entries → d1.toNat ∈ s.island.inUse → ∃ t, exec .freeEntry s = .next t ∧
      t.island.inUse = nset s.island.inUse d1.toNat false) ∧
    (∀ a, s.island.attach = some a → a.entries ≤ d1.toNat ∨ d1.toNat ∉ s.island.inUse → refused .freeEntry) ∧
    (let job := bits s.openWord.1 5 0
     (s.job job).sched = .quiesced → (∀ c ∈ s.island.ckpts, c.job ≠ job) → s.poison = [] → ∃ t c, exec .ckpt s = .next t ∧
       c ∈ t.island.ckpts ∧ c.job = job ∧ c.begun = true)) ∧
  (∀ (s : State) (n cause : Nat) (c : Ckpt), s.arg = .pair n cause → s.island.ckpts = [c] → c.job = n →
    (∀ ch, c.chan = some ch → ∃ t k p m, exec .checkpointDone s = .next t ∧ t.island.ckpts = [] ∧ ⟨k, some p, .messageArrive, .msg m⟩ ∈ t.agenda ∧
      m.target = c.monitor ∧ m.body = .start ch 2 [word (jobid n c.gen), word cause]) ∧
    (c.chan = none → exec .checkpointDone s =
      .next (if (s.job n).sched = .quiesced then (s.dropCkpt n).monitorSched n 4 else s.dropCkpt n))) ∧
  (∀ (s : State) (c : Ckpt), s.poison = [] →
    { c with begun := true } ∈ (s.startCkpt c).island.ckpts ∧ s.sameMemory (s.startCkpt c) ∧
    (s.island.st = .forward ∨ s.island.st = .full → s.island.ports ≠ [] → s.out.length < (s.startCkpt c).out.length) ∧
    (s.island.ports = [] → (s.startCkpt c).out = s.out ∧ ∃ k, ⟨k, ckptPath c.job, .checkpointDone, .pair c.job 0x0D⟩ ∈ (s.startCkpt c).agenda)) ∧
  (∀ (s : State) (o : Op), s.arg = .num o.id → s.op o.id = some o → Config.hbmBytes < o.data1.toNat + 64 →
    ∀ i ∈ [.attachRing, .hostReply, .openStream, .ckpt], exec i s = .next (s.answer o (.refused 0x08 0 0)))

/-- Traffic with hosts and other parts, and the states of the island (R340-R346): an RMA reads or writes its window, or is answered with an error
outside it, in a retired granule, outside FULL, or at a home that does not operate; a request leaves for another part where a path is up, and one of
another part is performed at its home here, behind those of its core that wait there (log entries 62 and 85); transit packets enter and go on; and power, boot, links, drain and the loss of the rail move the
island through its states. -/
def Obligations.Traffic_and_island_states : Prop :=
  (∀ (s : State) (r : RmaReq) (a : Attach) (base len : Nat), s.arg = .rma r → s.island.attach = some a → a.windows[r.window]? = some (base, len) →
    (s.island.st = .full → r.offset + r.len ≤ len → base + len ≤ Config.hbmBytes → s.granuleRetired (base + r.offset) r.len = true →
      exec .rmaWrite s = .next { s with out := s.out ++ [Outgoing.protection r.host] } ∧
      exec .rmaRead s = .next { s with out := s.out ++ [Outgoing.protection r.host] }) ∧
    (s.island.st = .full → r.offset + r.len ≤ len → base + len ≤ Config.hbmBytes → s.granuleRetired (base + r.offset) r.len = false →
      s.spanDown (base + r.offset) r.len = true →
      exec .rmaWrite s = .next { s with out := s.out ++ [Outgoing.endpointDown r.host] } ∧
      exec .rmaRead s = .next { s with out := s.out ++ [Outgoing.endpointDown r.host] }) ∧
    (s.island.st = .full → r.offset + r.len ≤ len → base + len ≤ Config.hbmBytes → s.granuleRetired (base + r.offset) r.len = false →
      s.spanDown (base + r.offset) r.len = false →
      (r.data.length = r.len → rising s.mem = true → ∃ t, exec .rmaWrite s = .next t ∧ t.readBytes (base + r.offset) r.len = r.data ∧
        ∀ loc, loc < base + r.offset ∨ base + r.offset + r.len ≤ loc → t.byte loc = s.byte loc) ∧
      exec .rmaRead s = .next { s with out := s.out ++ [Outgoing.readData r.host (s.readBytes (base + r.offset) r.len)] }) ∧
    (s.island.st = .full → len < r.offset + r.len →
      exec .rmaWrite s = .next { s with out := s.out ++ [Outgoing.protection r.host] } ∧
      exec .rmaRead s = .next { s with out := s.out ++ [Outgoing.protection r.host] }) ∧
    (s.island.st = .forward ∨ s.island.st = .drain →
      exec .rmaWrite s = .next { s with out := s.out ++ [Outgoing.endpointDown r.host] } ∧
      exec .rmaRead s = .next { s with out := s.out ++ [Outgoing.endpointDown r.host] })) ∧
  (∀ (s : State) (o : Op), s.arg = .peer (.outgoing o.id) → s.op o.id = some o →
    (s.peerUp (bits o.addr 57 48) = true →
      (∃ t asks, exec .peerRequest s = .next t ∧ t.out = s.out ++ asks ++ [Outgoing.request (bits o.addr 57 48) o.id] ∧ s.sameMemory t ∧ t.ctxs = s.ctxs) ∧
      (o.plain = false → exec .peerRequest s = .next { s with out := s.out ++ [Outgoing.request (bits o.addr 57 48) o.id] })) ∧
    (∀ n, s.peerUp (bits o.addr 57 48) = false → o.body = .load n → exec .peerRequest s = .next (s.answer o (.refused 0x0D 0 0)))) ∧
  (∀ (s : State) (tag dev core k job gen n : Nat) (va : Word), s.arg = .peer (.incoming tag dev core k job gen (.load va n false)) →
    let path (p : Page) : Path := peerPath dev core (p.pa + (bits va 47 0 - p.base))
    let queued : Prop := ∃ p, s.walk job (bits va 47 0) = some p ∧ ∃ d ∈ s.agenda, d.path = some (path p)
    let answers (x : Outgoing) : Prop := ¬ queued → ∃ t, exec .peerRequest s = .next t ∧ t.out = s.out ++ [x] ∧ s.sameMemory t
    let up : Prop := ∀ p, s.walk job (bits va 47 0) = some p → s.homeDown (p.pa + (bits va 47 0 - p.base)) = false
    (∀ p, s.island.st ≠ .off → s.island.st ≠ .boot → s.walk job (bits va 47 0) = some p → (∃ d ∈ s.agenda, d.path = some (path p)) → exec .peerRequest s =
      .next (s.later 1 (some (path p)) .peerRequest (.peer (.held tag dev core k job gen (.load va n false))))) ∧
    (s.island.st = .forward → answers (.refusal dev tag 0x0D 0)) ∧
    (s.island.st = .full → ¬ up → answers (.refusal dev tag 0x0D 0)) ∧
    (s.island.st = .full → up → s.stampOk job gen = false → answers (.refusal dev tag 0x08 0)) ∧
    (s.island.st = .full → s.stampOk job gen = true → s.walk job (bits va 47 0) = none → answers (.refusal dev tag 0x07 0)) ∧
    (∀ p, s.island.st = .full → s.stampOk job gen = true → s.walk job (bits va 47 0) = some p → p.rd = true →
      let l := p.pa + (bits va 47 0 - p.base)
      s.homeDown l = false → s.granuleRetired l n = false → s.poison = [] → answers (.answer dev tag (BitVec.ofNat 128 (s.read l n))))) ∧
  (∀ (s : State) (dest n : Nat) (bytes : List Byte),
    (s.arg = .peer (.transit dest bytes) → s.island.st = .forward ∨ s.island.st = .full ∨ s.island.st = .drain → dest ≠ s.devnum → ∃ t,
      exec .peerRequest s = .next t ∧ t.island.transit = s.island.transit ++ [(s.nextId, dest, bytes)]) ∧
    (s.arg = .peer (.forward n) → s.island.transit = [(n, dest, bytes)] → s.torusUp dest = true → ∃ t,
      exec .peerRequest s = .next t ∧ t.island.transit = [] ∧ t.out = s.out ++ [Outgoing.transit dest bytes])) ∧
  (∀ (s : State),
    (s.island.st = .off → ∃ t, exec .islandPowerGood s = .next t ∧ t.island.st = .boot ∧ t.island.ports = []) ∧
    (s.island.st ≠ .off → exec .islandPowerGood s = .next s) ∧
    (s.island.st = .boot → s.arg = .flag true → ∃ t, exec .islandBootDone s = .next t ∧ t.island.passed = true ∧
      t.island.st = if s.island.ports = [] then .boot else .forward) ∧
    (s.island.st = .boot → s.arg = .flag false → ∃ t, exec .islandBootDone s = .next t ∧ t.island.st = .off) ∧
    (∀ p, s.arg = .num p → p < 16 → s.island.st ≠ .off → ∃ t, exec .linkUp s = .next t ∧ p ∈ t.island.ports ∧
      t.island.st = if s.island.st = .boot ∧ s.island.passed = true then .forward else s.island.st) ∧
    (∀ p, s.arg = .num p → ∃ t, exec .linkDown s = .next t ∧ t.island.ports = nset s.island.ports p false ∧
      (s.outgoing = [] → t.island.st = s.island.st)) ∧
    (s.island.st = .drain → s.cycle < s.island.drainEnd →
      exec .drainEnd s = .next (s.later (s.island.drainEnd - s.cycle) none .drainEnd .nothing)) ∧
    (s.island.st = .drain → s.island.drainEnd ≤ s.cycle → ∃ t, exec .drainEnd s = .next t ∧ t.island.st = .boot ∧ t.island.firmware = none ∧
      t.island.islandFw = s.island.firmware.getD s.island.islandFw ∧ (s.outgoing = [] → t.dies = s.dies ∧ t.jobs = s.jobs)) ∧
    (∃ t, exec .islandRailLoss s = .next t ∧ t.island.st = .off ∧ t.island.attach = none ∧ t.island.streams = [] ∧
      (s.outgoing = [] → t.dies = s.dies ∧ t.life = s.flash)))

/-- Ingest (R351-R355): a packet that matches a stream is stamped with the PTP time on arrival and goes on by the stream's path; the first packet of
a frame opens it until its deadline; the sample rows of the first copy of a packet are written into the frame's slot, and a later copy is discarded,
as is a packet of an older frame (log entry 81). A frame closes by the marker bit, by a newer timestamp, which opens the next one, or at its
deadline: its bitmap is written and a message sent to the stream's channel, INCOMPLETE at the deadline or when a line is missing. An empty frame
does the same. A translation fault ends the stream with a last message that says that every line is missing. While the job is quiesced all of it
waits (log entry 117). -/
def Obligations.Ingest_events : Prop :=
  (∀ (s : State) (p : Packet) (x : Stream) (path : Nat), s.arg = .packet p → s.streamOf p = some (x, path) →
    (p.stamp = none → s.island.st = .full →
      exec .ingestPacket s = .next (s.later 0 x.path .ingestPacket (.packet { p with stamp := some s.ptpNow }))) ∧
    (∀ now, p.stamp = some now →
      (s.streamHeld x = true → exec .ingestPacket s = .next (s.again 64 x.path .ingestPacket (.packet p))) ∧
      (∀ f, s.streamHeld x = false → x.frame = some f →
        let g := { f with pathA := f.pathA || path == 0, pathB := f.pathB || path == 1 }
        (p.rtpTime = f.rtpTime → p.rtpSeq ∈ x.seqs → exec .ingestPacket s = .next (s.setStream { x with frame := some g })) ∧
        (p.rtpTime = f.rtpTime → p.rtpSeq ∉ x.seqs →
          (∀ got u, s.writeRows x p.rows = some (got, u) →
            let y := { x with frame := some { g with got := f.got ++ got }, seqs := x.seqs ++ [p.rtpSeq] }
            exec .ingestPacket s = .next (if p.marker = true then (u.setStream y).closeFrame y now false else u.setStream y)) ∧
          (s.writeRows x p.rows = none → exec .ingestPacket s = .next (s.faultStream x g))) ∧
        (p.rtpTime ≠ f.rtpTime → newer p.rtpTime f.rtpTime = false → exec .ingestPacket s = .next s) ∧
        (∀ y, p.rtpTime ≠ f.rtpTime → newer p.rtpTime f.rtpTime = true →
          (s.closeFrame x now false).island.streams.find? (fun z => z.num == x.num) = some y →
          exec .ingestPacket s = .next ((s.closeFrame x now false).openFrame y p path now))) ∧
      (s.streamHeld x = false → x.frame = none → x.last = none → ∃ (t : State) (y : Stream) (f : Frame),
        exec .ingestPacket s = .next (t.joinFrame y f p path now) ∧ f.first = now ∧ f.rtpTime = p.rtpTime ∧ y = { x with frame := some f } ∧
          ⟨s.cycle + nsCycles (x.period + x.guardNs), none, .frameDeadline, .pair x.num x.index⟩ ∈ t.agenda))) ∧
  (∀ (s : State) (x : Stream) (r : SampleRow) (rs : List SampleRow),
    let off := x.pgroup * r.offset
    let bs := (x.row r).2
    (r.line < x.lines → bs = r.data.take (min r.data.length (x.lbytes - off) / x.pgroup * x.pgroup)) ∧ (x.lines ≤ r.line → bs = []) ∧
    (∀ u v got, s.streamWrite x (x.w 0 + word (x.fstride * x.slot + x.lstride * r.line + off)) bs = some u → u.writeRows x rs = some (got, v) →
      s.writeRows x (r :: rs) = some (if bs = [] then got else (r.line, off, bs.length) :: got, v))) ∧
  (∀ (s : State) (x : Stream) (f : Frame) (now : Nat) (late : Bool), x.frame = some f → x.num < 128 →
    (∀ u, s.streamWrite x x.bitmap (bitmapBytes x.lines (f.misses x.lbytes)) = some u →
      let t := s.closeFrame x now late
      u.sameMemory t ∧ (∀ z ∈ t.island.streams, z.num = x.num → x.closing = false ∧ z.frame = none ∧ z.index = x.index + 1 ∧ z.last = some f.rtpTime) ∧
      ∃ k p m w, ⟨k, some p, .messageArrive, .msg m⟩ ∈ t.agenda ∧ m.target = x.dest ∧ m.job = x.job ∧ m.body = .start x.chan 4 w ∧ w.length = 4 ∧
        bit (w.getD 0 0) 40 = (late || (List.range x.lines).any (f.misses x.lbytes)) ∧ w.getD 2 0 = word f.first ∧ w.getD 3 0 = x.bitmap) ∧
    (s.streamWrite x x.bitmap (bitmapBytes x.lines (f.misses x.lbytes)) = none → s.closeFrame x now late = s.faultStream x f) ∧
    ((∀ z ∈ (s.faultStream x f).island.streams, z ∈ s.island.streams ∧ z.num ≠ x.num) ∧ s.sameMemory (s.faultStream x f) ∧
      ∃ k p m w, ⟨k, some p, .messageArrive, .msg m⟩ ∈ (s.faultStream x f).agenda ∧ m.target = x.dest ∧ m.body = .start x.chan 4 w ∧
        bit (w.getD 0 0) 40 = true ∧ (x.lines < 2 ^ 32 → bits (w.getD 1 0) 63 32 = x.lines))) ∧
  (∀ (s : State) (n i : Nat) (x : Stream), s.arg = .pair n i → s.island.streams.find? (fun y => y.num == n) = some x → x.index = i → n < 128 →
    (s.streamHeld x = true → exec .frameDeadline s = .next (s.later 64 none .frameDeadline (.pair n i)) ∧
      exec .emptyFrame s = .next (s.later 64 none .emptyFrame (.pair n i))) ∧
    (∀ f, s.streamHeld x = false → x.frame = some f →
      exec .frameDeadline s = .next (s.closeFrame x (f.first + x.period + x.guardNs) true)) ∧
    (∀ d, s.streamHeld x = false → x.frame = none → x.due = some d → x.empties < 8 →
      (∀ u, s.openWord.2.streamWrite x x.bitmap (bitmapBytes x.lines fun _ => true) = some u → ∃ t k p m,
        exec .emptyFrame s = .next t ∧ u.sameMemory t ∧ ⟨k, some p, .messageArrive, .msg m⟩ ∈ t.agenda ∧ m.target = x.dest ∧
        ∃ w, m.body = .start x.chan 4 w ∧ w.getD 2 1 = 0 ∧ bits (w.getD 1 0) 63 32 = x.lines)))

/-- Reliability and life records (R339, R357-R369): patrol leaves memory as it is and poisons what it cannot correct; late edges derate and then
retire a unit, but never a monitor core (R6, log entry 131); a die that overheats enters RESET, one that stops beating is HUNG, and the loss of the
compute rail turns all of them OFF (log entry 79); a link resends, moves to its spare lane, and is retired; a context-lost record joins the life records; and the records are flushed and age by
minutes. -/
def Obligations.Reliability_events : Prop :=
  (∀ (s : State) (loc : Nat),
    (s.arg = .pair loc 1 → ∃ t, exec .patrolScrub s = .next t ∧ t.poison = s.poison ∧ s.sameMemory t) ∧
    (s.arg = .pair loc 2 → ∃ t, exec .patrolScrub s = .next t ∧ loc / 8 ∈ t.poison ∧ s.sameMemory t)) ∧
  (∀ (s : State) (kind i n : Nat), s.arg = .triple kind i n → rising s.clusters = true →
    (kind < 3 → n < 64 → ∃ t, exec .lateEdgeWindow s = .next t ∧ t.clusters = s.clusters ∧ t.life.retired = s.life.retired ∧ t.derated = s.derated) ∧
    (kind = 1 → 64 ≤ n → n < 4096 → (s.cluster i).health = 0 → ∃ t, exec .lateEdgeWindow s = .next t ∧ (t.cluster i).health = 1) ∧
    (kind = 1 → 4096 ≤ n → ∃ t, exec .lateEdgeWindow s = .next t ∧ ⟨s.cycle, none, .mxEngineFail, .num i⟩ ∈ t.agenda) ∧
    (3 ≤ kind → exec .lateEdgeWindow s = .next (s.edgeAct (kind - 3) i 4096)) ∧
    (kind = 0 → 4096 ≤ n → i < 3072 → isMonitor i = false → ∃ t e, exec .lateEdgeWindow s = .next t ∧ e ∈ t.life.retired ∧ bits e 63 60 = 1) ∧
    (kind = 0 → isMonitor i = true → ∃ t, exec .lateEdgeWindow s = .next t ∧ t.life.retired = s.life.retired) ∧
    (kind = 2 → 64 ≤ n → n < 4096 → ∃ t, exec .lateEdgeWindow s = .next t ∧ i ∈ t.derated)) ∧
  (∀ (s : State) (d : Nat), rising s.dies = true →
    (s.arg = .num d → d < 4 → s.die d = .run ∨ s.die d = .hung → ∃ t, exec .thermalTrip s = .next t ∧ t.die d = .reset ∧ d ∈ t.hot) ∧
    (s.arg = .num d → d < 4 → s.die d = .run → ∃ t, exec .heartbeatTimeout s = .next t ∧ t.die d = .hung) ∧
    (∃ t, exec .computeRailFault s = .next t ∧ (∀ e, e < 4 → t.die e = .off) ∧ (s.island.st = .full → t.island.st = .forward))) ∧
  (∀ (s : State) (l : Nat), s.arg = .num l →
    (∃ t, exec .linkResend s = .next t ∧ s.sameMemory t ∧ t.dies = s.dies ∧ t.jobs = s.jobs) ∧
    (l ∉ s.spare → ∃ t, exec .spareLaneSwitch s = .next t ∧ l ∈ t.spare ∧ t.jobs = s.jobs) ∧
    (l ∈ s.spare → l < 16 → ∃ t, exec .spareLaneSwitch s = .next t ∧ l ∈ t.deadLinks ∧ t.island.ports = nset s.island.ports l false)) ∧
  (∀ (s : State) (n : Nat) (ws : List Word), s.arg = .num n → (s.job n).lostRec = some ws → ws.length = 8 → rising s.jobs = true →
    s.life.lost.length < 256 → ∃ t, exec .contextLostRecord s = .next t ∧ (t.job n).lostRec = none ∧ t.life.lost = s.life.lost ++ [ws] ∧
      (s.die (dieOf (coreAt (4 * (s.job n).cx) (2 * (s.job n).cy))) = .run →
        ∃ k₁ p₁ m₁ k₂ p₂ m₂, ⟨k₁, p₁, .messageArrive, .msg m₁⟩ ∈ t.agenda ∧ m₁.body = .start 63 4 (ws.take 4) ∧
          ⟨k₂, p₂, .messageArrive, .msg m₂⟩ ∈ t.agenda ∧ m₂.body = .start 63 4 (ws.drop 4))) ∧
  (∀ (s : State), exec .lifeFlush s = .next { s with flash := s.life }) ∧
  (∀ (s : State) (temps : List Nat) (power : Nat), s.arg = .minute temps power → ∃ t, exec .lifeMinute s = .next t ∧
    t.life.minutes = s.life.minutes + 1 ∧ t.temps = temps ∧ t.life.retired = s.life.retired ∧ s.sameMemory t)
end

