-- ==== Sys2Proof/Laws/Encoding.lean ====
section
/-!
SUPPORT. The fields of a word made in each format (R34): what the decoder cuts out is what the encoder put in.
-/
namespace Sys2Proof

/-! ### wRR -/

@[simp] theorem wRR_s (s : Bool) (maj : BitVec 6) (d : BitVec 6) (a : BitVec 6) (b : BitVec 6) (fn : BitVec 7) : sBit (wRR s maj d a b fn) = s := by
  simp only [sBit, wRR, BitVec.getLsbD_append]
  simp

@[simp] theorem wRR_maj (s : Bool) (maj : BitVec 6) (d : BitVec 6) (a : BitVec 6) (b : BitVec 6) (fn : BitVec 7) : fld (wRR s maj d a b fn) 25 6 = maj := by
  apply BitVec.eq_of_getLsbD_eq
  intro k hk
  simp only [fld, wRR, BitVec.getLsbD_extractLsb', BitVec.getLsbD_append]
  grind

@[simp] theorem wRR_d (s : Bool) (maj : BitVec 6) (d : BitVec 6) (a : BitVec 6) (b : BitVec 6) (fn : BitVec 7) : fld (wRR s maj d a b fn) 19 6 = d := by
  apply BitVec.eq_of_getLsbD_eq
  intro k hk
  simp only [fld, wRR, BitVec.getLsbD_extractLsb', BitVec.getLsbD_append]
  grind

@[simp] theorem wRR_a (s : Bool) (maj : BitVec 6) (d : BitVec 6) (a : BitVec 6) (b : BitVec 6) (fn : BitVec 7) : fld (wRR s maj d a b fn) 13 6 = a := by
  apply BitVec.eq_of_getLsbD_eq
  intro k hk
  simp only [fld, wRR, BitVec.getLsbD_extractLsb', BitVec.getLsbD_append]
  grind

@[simp] theorem wRR_b (s : Bool) (maj : BitVec 6) (d : BitVec 6) (a : BitVec 6) (b : BitVec 6) (fn : BitVec 7) : fld (wRR s maj d a b fn) 7 6 = b := by
  apply BitVec.eq_of_getLsbD_eq
  intro k hk
  simp only [fld, wRR, BitVec.getLsbD_extractLsb', BitVec.getLsbD_append]
  grind

@[simp] theorem wRR_fn (s : Bool) (maj : BitVec 6) (d : BitVec 6) (a : BitVec 6) (b : BitVec 6) (fn : BitVec 7) : fld (wRR s maj d a b fn) 0 7 = fn := by
  apply BitVec.eq_of_getLsbD_eq
  intro k hk
  simp only [fld, wRR, BitVec.getLsbD_extractLsb', BitVec.getLsbD_append]
  grind

/-! ### wRI -/

@[simp] theorem wRI_s (s : Bool) (maj : BitVec 6) (d : BitVec 6) (a : BitVec 6) (i : BitVec 13) : sBit (wRI s maj d a i) = s := by
  simp only [sBit, wRI, BitVec.getLsbD_append]
  simp

@[simp] theorem wRI_maj (s : Bool) (maj : BitVec 6) (d : BitVec 6) (a : BitVec 6) (i : BitVec 13) : fld (wRI s maj d a i) 25 6 = maj := by
  apply BitVec.eq_of_getLsbD_eq
  intro k hk
  simp only [fld, wRI, BitVec.getLsbD_extractLsb', BitVec.getLsbD_append]
  grind

@[simp] theorem wRI_d (s : Bool) (maj : BitVec 6) (d : BitVec 6) (a : BitVec 6) (i : BitVec 13) : fld (wRI s maj d a i) 19 6 = d := by
  apply BitVec.eq_of_getLsbD_eq
  intro k hk
  simp only [fld, wRI, BitVec.getLsbD_extractLsb', BitVec.getLsbD_append]
  grind

@[simp] theorem wRI_a (s : Bool) (maj : BitVec 6) (d : BitVec 6) (a : BitVec 6) (i : BitVec 13) : fld (wRI s maj d a i) 13 6 = a := by
  apply BitVec.eq_of_getLsbD_eq
  intro k hk
  simp only [fld, wRI, BitVec.getLsbD_extractLsb', BitVec.getLsbD_append]
  grind

@[simp] theorem wRI_i (s : Bool) (maj : BitVec 6) (d : BitVec 6) (a : BitVec 6) (i : BitVec 13) : fld (wRI s maj d a i) 0 13 = i := by
  apply BitVec.eq_of_getLsbD_eq
  intro k hk
  simp only [fld, wRI, BitVec.getLsbD_extractLsb', BitVec.getLsbD_append]
  grind

/-! ### wJ -/

@[simp] theorem wJ_s (s : Bool) (maj : BitVec 6) (o : BitVec 25) : sBit (wJ s maj o) = s := by
  simp only [sBit, wJ, BitVec.getLsbD_append]
  simp

@[simp] theorem wJ_maj (s : Bool) (maj : BitVec 6) (o : BitVec 25) : fld (wJ s maj o) 25 6 = maj := by
  apply BitVec.eq_of_getLsbD_eq
  intro k hk
  simp only [fld, wJ, BitVec.getLsbD_extractLsb', BitVec.getLsbD_append]
  grind

@[simp] theorem wJ_o (s : Bool) (maj : BitVec 6) (o : BitVec 25) : fld (wJ s maj o) 0 25 = o := by
  apply BitVec.eq_of_getLsbD_eq
  intro k hk
  simp only [fld, wJ, BitVec.getLsbD_extractLsb', BitVec.getLsbD_append]
  grind

/-! ### wC -/

@[simp] theorem wC_s (s : Bool) (maj : BitVec 6) (a : BitVec 6) (o : BitVec 19) : sBit (wC s maj a o) = s := by
  simp only [sBit, wC, BitVec.getLsbD_append]
  simp

@[simp] theorem wC_maj (s : Bool) (maj : BitVec 6) (a : BitVec 6) (o : BitVec 19) : fld (wC s maj a o) 25 6 = maj := by
  apply BitVec.eq_of_getLsbD_eq
  intro k hk
  simp only [fld, wC, BitVec.getLsbD_extractLsb', BitVec.getLsbD_append]
  grind

@[simp] theorem wC_a (s : Bool) (maj : BitVec 6) (a : BitVec 6) (o : BitVec 19) : fld (wC s maj a o) 19 6 = a := by
  apply BitVec.eq_of_getLsbD_eq
  intro k hk
  simp only [fld, wC, BitVec.getLsbD_extractLsb', BitVec.getLsbD_append]
  grind

@[simp] theorem wC_o (s : Bool) (maj : BitVec 6) (a : BitVec 6) (o : BitVec 19) : fld (wC s maj a o) 0 19 = o := by
  apply BitVec.eq_of_getLsbD_eq
  intro k hk
  simp only [fld, wC, BitVec.getLsbD_extractLsb', BitVec.getLsbD_append]
  grind

/-! ### wBM -/

@[simp] theorem wBM_s (s : Bool) (maj : BitVec 6) (cond : BitVec 3) (m : BitVec 3) (o : BitVec 19) : sBit (wBM s maj cond m o) = s := by
  simp only [sBit, wBM, BitVec.getLsbD_append]
  simp

@[simp] theorem wBM_maj (s : Bool) (maj : BitVec 6) (cond : BitVec 3) (m : BitVec 3) (o : BitVec 19) : fld (wBM s maj cond m o) 25 6 = maj := by
  apply BitVec.eq_of_getLsbD_eq
  intro k hk
  simp only [fld, wBM, BitVec.getLsbD_extractLsb', BitVec.getLsbD_append]
  grind

@[simp] theorem wBM_cond (s : Bool) (maj : BitVec 6) (cond : BitVec 3) (m : BitVec 3) (o : BitVec 19) : fld (wBM s maj cond m o) 22 3 = cond := by
  apply BitVec.eq_of_getLsbD_eq
  intro k hk
  simp only [fld, wBM, BitVec.getLsbD_extractLsb', BitVec.getLsbD_append]
  grind

@[simp] theorem wBM_m (s : Bool) (maj : BitVec 6) (cond : BitVec 3) (m : BitVec 3) (o : BitVec 19) : fld (wBM s maj cond m o) 19 3 = m := by
  apply BitVec.eq_of_getLsbD_eq
  intro k hk
  simp only [fld, wBM, BitVec.getLsbD_extractLsb', BitVec.getLsbD_append]
  grind

@[simp] theorem wBM_o (s : Bool) (maj : BitVec 6) (cond : BitVec 3) (m : BitVec 3) (o : BitVec 19) : fld (wBM s maj cond m o) 0 19 = o := by
  apply BitVec.eq_of_getLsbD_eq
  intro k hk
  simp only [fld, wBM, BitVec.getLsbD_extractLsb', BitVec.getLsbD_append]
  grind

/-! ### wK -/

@[simp] theorem wK_s (s : Bool) (maj : BitVec 6) (a : BitVec 6) (b : BitVec 6) (d : BitVec 6) (fn : BitVec 7) : sBit (wK s maj a b d fn) = s := by
  simp only [sBit, wK, BitVec.getLsbD_append]
  simp

@[simp] theorem wK_maj (s : Bool) (maj : BitVec 6) (a : BitVec 6) (b : BitVec 6) (d : BitVec 6) (fn : BitVec 7) : fld (wK s maj a b d fn) 25 6 = maj := by
  apply BitVec.eq_of_getLsbD_eq
  intro k hk
  simp only [fld, wK, BitVec.getLsbD_extractLsb', BitVec.getLsbD_append]
  grind

@[simp] theorem wK_a (s : Bool) (maj : BitVec 6) (a : BitVec 6) (b : BitVec 6) (d : BitVec 6) (fn : BitVec 7) : fld (wK s maj a b d fn) 19 6 = a := by
  apply BitVec.eq_of_getLsbD_eq
  intro k hk
  simp only [fld, wK, BitVec.getLsbD_extractLsb', BitVec.getLsbD_append]
  grind

@[simp] theorem wK_b (s : Bool) (maj : BitVec 6) (a : BitVec 6) (b : BitVec 6) (d : BitVec 6) (fn : BitVec 7) : fld (wK s maj a b d fn) 13 6 = b := by
  apply BitVec.eq_of_getLsbD_eq
  intro k hk
  simp only [fld, wK, BitVec.getLsbD_extractLsb', BitVec.getLsbD_append]
  grind

@[simp] theorem wK_d (s : Bool) (maj : BitVec 6) (a : BitVec 6) (b : BitVec 6) (d : BitVec 6) (fn : BitVec 7) : fld (wK s maj a b d fn) 7 6 = d := by
  apply BitVec.eq_of_getLsbD_eq
  intro k hk
  simp only [fld, wK, BitVec.getLsbD_extractLsb', BitVec.getLsbD_append]
  grind

@[simp] theorem wK_fn (s : Bool) (maj : BitVec 6) (a : BitVec 6) (b : BitVec 6) (d : BitVec 6) (fn : BitVec 7) : fld (wK s maj a b d fn) 0 7 = fn := by
  apply BitVec.eq_of_getLsbD_eq
  intro k hk
  simp only [fld, wK, BitVec.getLsbD_extractLsb', BitVec.getLsbD_append]
  grind

/-! ### wM -/

@[simp] theorem wM_s (s : Bool) (maj : BitVec 6) (d : BitVec 6) (a : BitVec 6) (o : BitVec 2) (z : BitVec 3) (p : BitVec 8) : sBit (wM s maj d a o z p) = s := by
  simp only [sBit, wM, BitVec.getLsbD_append]
  simp

@[simp] theorem wM_maj (s : Bool) (maj : BitVec 6) (d : BitVec 6) (a : BitVec 6) (o : BitVec 2) (z : BitVec 3) (p : BitVec 8) : fld (wM s maj d a o z p) 25 6 = maj := by
  apply BitVec.eq_of_getLsbD_eq
  intro k hk
  simp only [fld, wM, BitVec.getLsbD_extractLsb', BitVec.getLsbD_append]
  grind

@[simp] theorem wM_d (s : Bool) (maj : BitVec 6) (d : BitVec 6) (a : BitVec 6) (o : BitVec 2) (z : BitVec 3) (p : BitVec 8) : fld (wM s maj d a o z p) 19 6 = d := by
  apply BitVec.eq_of_getLsbD_eq
  intro k hk
  simp only [fld, wM, BitVec.getLsbD_extractLsb', BitVec.getLsbD_append]
  grind

@[simp] theorem wM_a (s : Bool) (maj : BitVec 6) (d : BitVec 6) (a : BitVec 6) (o : BitVec 2) (z : BitVec 3) (p : BitVec 8) : fld (wM s maj d a o z p) 13 6 = a := by
  apply BitVec.eq_of_getLsbD_eq
  intro k hk
  simp only [fld, wM, BitVec.getLsbD_extractLsb', BitVec.getLsbD_append]
  grind

@[simp] theorem wM_o (s : Bool) (maj : BitVec 6) (d : BitVec 6) (a : BitVec 6) (o : BitVec 2) (z : BitVec 3) (p : BitVec 8) : fld (wM s maj d a o z p) 11 2 = o := by
  apply BitVec.eq_of_getLsbD_eq
  intro k hk
  simp only [fld, wM, BitVec.getLsbD_extractLsb', BitVec.getLsbD_append]
  grind

@[simp] theorem wM_z (s : Bool) (maj : BitVec 6) (d : BitVec 6) (a : BitVec 6) (o : BitVec 2) (z : BitVec 3) (p : BitVec 8) : fld (wM s maj d a o z p) 8 3 = z := by
  apply BitVec.eq_of_getLsbD_eq
  intro k hk
  simp only [fld, wM, BitVec.getLsbD_extractLsb', BitVec.getLsbD_append]
  grind

@[simp] theorem wM_p (s : Bool) (maj : BitVec 6) (d : BitVec 6) (a : BitVec 6) (o : BitVec 2) (z : BitVec 3) (p : BitVec 8) : fld (wM s maj d a o z p) 0 8 = p := by
  apply BitVec.eq_of_getLsbD_eq
  intro k hk
  simp only [fld, wM, BitVec.getLsbD_extractLsb', BitVec.getLsbD_append]
  grind

/-! ### wV -/

@[simp] theorem wV_s (s : Bool) (maj : BitVec 6) (d : BitVec 5) (a : BitVec 5) (b : BitVec 5) (m : BitVec 3) (t : BitVec 4) (fn : BitVec 3) : sBit (wV s maj d a b m t fn) = s := by
  simp only [sBit, wV, BitVec.getLsbD_append]
  simp

@[simp] theorem wV_maj (s : Bool) (maj : BitVec 6) (d : BitVec 5) (a : BitVec 5) (b : BitVec 5) (m : BitVec 3) (t : BitVec 4) (fn : BitVec 3) : fld (wV s maj d a b m t fn) 25 6 = maj := by
  apply BitVec.eq_of_getLsbD_eq
  intro k hk
  simp only [fld, wV, BitVec.getLsbD_extractLsb', BitVec.getLsbD_append]
  grind

@[simp] theorem wV_d (s : Bool) (maj : BitVec 6) (d : BitVec 5) (a : BitVec 5) (b : BitVec 5) (m : BitVec 3) (t : BitVec 4) (fn : BitVec 3) : fld (wV s maj d a b m t fn) 20 5 = d := by
  apply BitVec.eq_of_getLsbD_eq
  intro k hk
  simp only [fld, wV, BitVec.getLsbD_extractLsb', BitVec.getLsbD_append]
  grind

@[simp] theorem wV_a (s : Bool) (maj : BitVec 6) (d : BitVec 5) (a : BitVec 5) (b : BitVec 5) (m : BitVec 3) (t : BitVec 4) (fn : BitVec 3) : fld (wV s maj d a b m t fn) 15 5 = a := by
  apply BitVec.eq_of_getLsbD_eq
  intro k hk
  simp only [fld, wV, BitVec.getLsbD_extractLsb', BitVec.getLsbD_append]
  grind

@[simp] theorem wV_b (s : Bool) (maj : BitVec 6) (d : BitVec 5) (a : BitVec 5) (b : BitVec 5) (m : BitVec 3) (t : BitVec 4) (fn : BitVec 3) : fld (wV s maj d a b m t fn) 10 5 = b := by
  apply BitVec.eq_of_getLsbD_eq
  intro k hk
  simp only [fld, wV, BitVec.getLsbD_extractLsb', BitVec.getLsbD_append]
  grind

@[simp] theorem wV_m (s : Bool) (maj : BitVec 6) (d : BitVec 5) (a : BitVec 5) (b : BitVec 5) (m : BitVec 3) (t : BitVec 4) (fn : BitVec 3) : fld (wV s maj d a b m t fn) 7 3 = m := by
  apply BitVec.eq_of_getLsbD_eq
  intro k hk
  simp only [fld, wV, BitVec.getLsbD_extractLsb', BitVec.getLsbD_append]
  grind

@[simp] theorem wV_t (s : Bool) (maj : BitVec 6) (d : BitVec 5) (a : BitVec 5) (b : BitVec 5) (m : BitVec 3) (t : BitVec 4) (fn : BitVec 3) : fld (wV s maj d a b m t fn) 3 4 = t := by
  apply BitVec.eq_of_getLsbD_eq
  intro k hk
  simp only [fld, wV, BitVec.getLsbD_extractLsb', BitVec.getLsbD_append]
  grind

@[simp] theorem wV_fn (s : Bool) (maj : BitVec 6) (d : BitVec 5) (a : BitVec 5) (b : BitVec 5) (m : BitVec 3) (t : BitVec 4) (fn : BitVec 3) : fld (wV s maj d a b m t fn) 0 3 = fn := by
  apply BitVec.eq_of_getLsbD_eq
  intro k hk
  simp only [fld, wV, BitVec.getLsbD_extractLsb', BitVec.getLsbD_append]
  grind

/-! ### wVG -/

@[simp] theorem wVG_s (s : Bool) (maj : BitVec 6) (d : BitVec 5) (g : BitVec 6) (l : BitVec 4) (m : BitVec 3) (t : BitVec 4) (fn : BitVec 3) : sBit (wVG s maj d g l m t fn) = s := by
  simp only [sBit, wVG, BitVec.getLsbD_append]
  simp

@[simp] theorem wVG_maj (s : Bool) (maj : BitVec 6) (d : BitVec 5) (g : BitVec 6) (l : BitVec 4) (m : BitVec 3) (t : BitVec 4) (fn : BitVec 3) : fld (wVG s maj d g l m t fn) 25 6 = maj := by
  apply BitVec.eq_of_getLsbD_eq
  intro k hk
  simp only [fld, wVG, BitVec.getLsbD_extractLsb', BitVec.getLsbD_append]
  grind

@[simp] theorem wVG_d (s : Bool) (maj : BitVec 6) (d : BitVec 5) (g : BitVec 6) (l : BitVec 4) (m : BitVec 3) (t : BitVec 4) (fn : BitVec 3) : fld (wVG s maj d g l m t fn) 20 5 = d := by
  apply BitVec.eq_of_getLsbD_eq
  intro k hk
  simp only [fld, wVG, BitVec.getLsbD_extractLsb', BitVec.getLsbD_append]
  grind

@[simp] theorem wVG_g (s : Bool) (maj : BitVec 6) (d : BitVec 5) (g : BitVec 6) (l : BitVec 4) (m : BitVec 3) (t : BitVec 4) (fn : BitVec 3) : fld (wVG s maj d g l m t fn) 14 6 = g := by
  apply BitVec.eq_of_getLsbD_eq
  intro k hk
  simp only [fld, wVG, BitVec.getLsbD_extractLsb', BitVec.getLsbD_append]
  grind

@[simp] theorem wVG_l (s : Bool) (maj : BitVec 6) (d : BitVec 5) (g : BitVec 6) (l : BitVec 4) (m : BitVec 3) (t : BitVec 4) (fn : BitVec 3) : fld (wVG s maj d g l m t fn) 10 4 = l := by
  apply BitVec.eq_of_getLsbD_eq
  intro k hk
  simp only [fld, wVG, BitVec.getLsbD_extractLsb', BitVec.getLsbD_append]
  grind

@[simp] theorem wVG_m (s : Bool) (maj : BitVec 6) (d : BitVec 5) (g : BitVec 6) (l : BitVec 4) (m : BitVec 3) (t : BitVec 4) (fn : BitVec 3) : fld (wVG s maj d g l m t fn) 7 3 = m := by
  apply BitVec.eq_of_getLsbD_eq
  intro k hk
  simp only [fld, wVG, BitVec.getLsbD_extractLsb', BitVec.getLsbD_append]
  grind

@[simp] theorem wVG_t (s : Bool) (maj : BitVec 6) (d : BitVec 5) (g : BitVec 6) (l : BitVec 4) (m : BitVec 3) (t : BitVec 4) (fn : BitVec 3) : fld (wVG s maj d g l m t fn) 3 4 = t := by
  apply BitVec.eq_of_getLsbD_eq
  intro k hk
  simp only [fld, wVG, BitVec.getLsbD_extractLsb', BitVec.getLsbD_append]
  grind

@[simp] theorem wVG_fn (s : Bool) (maj : BitVec 6) (d : BitVec 5) (g : BitVec 6) (l : BitVec 4) (m : BitVec 3) (t : BitVec 4) (fn : BitVec 3) : fld (wVG s maj d g l m t fn) 0 3 = fn := by
  apply BitVec.eq_of_getLsbD_eq
  intro k hk
  simp only [fld, wVG, BitVec.getLsbD_extractLsb', BitVec.getLsbD_append]
  grind

end Sys2Proof
end

