-- ==== Sys2Proof/Laws/Maps.lean ====
section
/-!
SUPPORT. Indexed data: what an index reads as after a write, and that every operation keeps the rising and the canonical form.
-/
namespace Sys2Proof.Machine

variable {α : Type}

/-! ## Reading after writing -/

theorem mget_mdel_other (d : α) (m : Map α) {j k : Nat} (h : j ≠ k) : mget d (mdel m k) j = mget d m j := by
  induction m with
  | nil => rfl
  | cons p r ih =>
    obtain ⟨i, y⟩ := p
    by_cases hi : i = k <;> by_cases hj : i = j <;> simp_all [mdel, mget]

theorem mget_mput_same (d : α) (m : Map α) (k : Nat) (x : α) : mget d (mput m k x) k = x := by
  induction m with
  | nil => simp [mput, mget]
  | cons p r ih =>
    obtain ⟨i, y⟩ := p
    by_cases hi : i = k
    · simp [mput, mget, hi]
    · by_cases hk : k < i <;> simp [mput, mget, hi, hk, ih]

theorem mget_mput_other (d : α) (m : Map α) {j k : Nat} (x : α) (h : j ≠ k) : mget d (mput m k x) j = mget d m j := by
  induction m with
  | nil => simp [mput, mget, Ne.symm h]
  | cons p r ih =>
    obtain ⟨i, y⟩ := p
    by_cases hi : i = k
    · simp [mput, mget, hi, Ne.symm h]
    · by_cases hk : k < i
      · simp [mput, mget, hi, hk, Ne.symm h]
      · simp only [mput, mget, hi, hk, if_false, ih]

/-- A write leaves every other index as it was. -/
theorem mget_mset_other [DecidableEq α] (d d' : α) (m : Map α) {j k : Nat} (x : α) (h : j ≠ k) :
    mget d (mset d' m k x) j = mget d m j := by
  unfold mset
  split
  · exact mget_mdel_other d m h
  · exact mget_mput_other d m x h

/-! ## The rising form -/

theorem risingFrom_weaken {m : Map α} {lo hi : Nat} (h : risingFrom hi m = true) (hle : lo ≤ hi) : risingFrom lo m = true := by
  cases m with
  | nil => rfl
  | cons p r =>
    obtain ⟨j, x⟩ := p
    simp only [risingFrom, Bool.and_eq_true, decide_eq_true_eq] at h ⊢
    exact ⟨by omega, h.2⟩

theorem mget_below (d : α) {m : Map α} {lo k : Nat} (h : risingFrom lo m = true) (hk : k < lo) : mget d m k = d := by
  induction m generalizing lo with
  | nil => rfl
  | cons p r ih =>
    obtain ⟨j, x⟩ := p
    simp only [risingFrom, Bool.and_eq_true, decide_eq_true_eq] at h
    simp only [mget, show j ≠ k by omega, if_false]
    exact ih h.2 (by omega)

theorem mget_mdel_same (d : α) {m : Map α} {lo : Nat} (h : risingFrom lo m = true) (k : Nat) : mget d (mdel m k) k = d := by
  induction m generalizing lo with
  | nil => rfl
  | cons p r ih =>
    obtain ⟨j, x⟩ := p
    simp only [risingFrom, Bool.and_eq_true, decide_eq_true_eq] at h
    by_cases hj : j = k
    · simp only [mdel, hj, if_true]
      exact mget_below d h.2 (by omega)
    · simp only [mdel, mget, hj, if_false]
      exact ih h.2

/-- What was written is read back. -/
theorem mget_mset_same [DecidableEq α] (d : α) {m : Map α} (h : rising m = true) (k : Nat) (x : α) : mget d (mset d m k x) k = x := by
  unfold mset
  split
  · rename_i hx
    rw [hx]
    exact mget_mdel_same d h k
  · exact mget_mput_same d m k x

theorem risingFrom_mdel {m : Map α} {lo : Nat} (h : risingFrom lo m = true) (k : Nat) : risingFrom lo (mdel m k) = true := by
  induction m generalizing lo with
  | nil => rfl
  | cons p r ih =>
    obtain ⟨j, x⟩ := p
    simp only [risingFrom, Bool.and_eq_true, decide_eq_true_eq] at h
    by_cases hj : j = k
    · simp only [mdel, hj, if_true]
      exact risingFrom_weaken h.2 (by omega)
    · simp only [mdel, hj, if_false, risingFrom, Bool.and_eq_true, decide_eq_true_eq]
      exact ⟨h.1, ih h.2⟩

theorem risingFrom_mput {m : Map α} {lo : Nat} (h : risingFrom lo m = true) {k : Nat} (hk : lo ≤ k) (x : α) :
    risingFrom lo (mput m k x) = true := by
  induction m generalizing lo with
  | nil => simp [mput, risingFrom, hk]
  | cons p r ih =>
    obtain ⟨j, y⟩ := p
    simp only [risingFrom, Bool.and_eq_true, decide_eq_true_eq] at h
    by_cases hj : j = k
    · simp only [mput, hj, if_true, risingFrom, Bool.and_eq_true, decide_eq_true_eq]
      exact ⟨hk, by rw [← hj]; exact h.2⟩
    · by_cases hlt : k < j
      · simp only [mput, hj, hlt, if_false, if_true, risingFrom, Bool.and_eq_true, decide_eq_true_eq]
        exact ⟨hk, by omega, h.2⟩
      · simp only [mput, hj, hlt, if_false, risingFrom, Bool.and_eq_true, decide_eq_true_eq]
        exact ⟨h.1, ih h.2 (by omega)⟩

/-- A write keeps the rising form. -/
theorem rising_mset [DecidableEq α] (d : α) {m : Map α} (h : rising m = true) (k : Nat) (x : α) : rising (mset d m k x) = true := by
  unfold mset
  split
  · exact risingFrom_mdel h k
  · exact risingFrom_mput h (Nat.zero_le k) x

theorem risingFrom_filter {m : Map α} {lo : Nat} (h : risingFrom lo m = true) (p : Nat × α → Bool) :
    risingFrom lo (m.filter p) = true := by
  induction m generalizing lo with
  | nil => rfl
  | cons q r ih =>
    obtain ⟨j, x⟩ := q
    simp only [risingFrom, Bool.and_eq_true, decide_eq_true_eq] at h
    simp only [List.filter]
    split
    · simp only [risingFrom, Bool.and_eq_true, decide_eq_true_eq]
      exact ⟨h.1, ih h.2⟩
    · exact risingFrom_weaken (ih h.2) (by omega)

/-- Dropping entries keeps the rising form. -/
theorem rising_filter {m : Map α} (h : rising m = true) (p : Nat × α → Bool) : rising (m.filter p) = true := risingFrom_filter h p

theorem risingFrom_map {m : Map α} {lo : Nat} (h : risingFrom lo m = true) (f : Nat × α → Nat × α) (hf : ∀ q, (f q).1 = q.1) :
    risingFrom lo (m.map f) = true := by
  induction m generalizing lo with
  | nil => rfl
  | cons q r ih =>
    obtain ⟨j, x⟩ := q
    simp only [risingFrom, Bool.and_eq_true, decide_eq_true_eq] at h
    simp only [List.map, risingFrom, Bool.and_eq_true, decide_eq_true_eq, hf]
    exact ⟨h.1, ih h.2⟩

/-- Changing the contents keeps the rising form. -/
theorem rising_map {m : Map α} (h : rising m = true) (f : Nat × α → Nat × α) (hf : ∀ q, (f q).1 = q.1) : rising (m.map f) = true :=
  risingFrom_map h f hf

/-! ## The canonical form -/

variable [DecidableEq α] {d : Nat → α}

theorem mwfFrom_weaken {m : Map α} {lo hi : Nat} (h : mwfFrom d hi m = true) (hle : lo ≤ hi) : mwfFrom d lo m = true := by
  cases m with
  | nil => rfl
  | cons p r =>
    obtain ⟨j, x⟩ := p
    simp only [mwfFrom, Bool.and_eq_true, decide_eq_true_eq] at h ⊢
    exact ⟨⟨by omega, h.1.2⟩, h.2⟩

theorem mwfFrom_mdel {m : Map α} {lo : Nat} (h : mwfFrom d lo m = true) (k : Nat) : mwfFrom d lo (mdel m k) = true := by
  induction m generalizing lo with
  | nil => rfl
  | cons p r ih =>
    obtain ⟨j, x⟩ := p
    simp only [mwfFrom, Bool.and_eq_true, decide_eq_true_eq] at h
    by_cases hj : j = k
    · simp only [mdel, hj, if_true]
      exact mwfFrom_weaken h.2 (by omega)
    · simp only [mdel, hj, if_false, mwfFrom, Bool.and_eq_true, decide_eq_true_eq]
      exact ⟨h.1, ih h.2⟩

theorem mwfFrom_mput {m : Map α} {lo : Nat} (h : mwfFrom d lo m = true) {k : Nat} (hk : lo ≤ k) {x : α} (hx : x ≠ d k) :
    mwfFrom d lo (mput m k x) = true := by
  induction m generalizing lo with
  | nil => simp [mput, mwfFrom, hk, hx]
  | cons p r ih =>
    obtain ⟨j, y⟩ := p
    simp only [mwfFrom, Bool.and_eq_true, decide_eq_true_eq] at h
    by_cases hj : j = k
    · simp only [mput, hj, if_true, mwfFrom, Bool.and_eq_true, decide_eq_true_eq]
      exact ⟨⟨hk, hx⟩, by rw [← hj]; exact h.2⟩
    · by_cases hlt : k < j
      · simp only [mput, hj, hlt, if_false, if_true, mwfFrom, Bool.and_eq_true, decide_eq_true_eq]
        exact ⟨⟨hk, hx⟩, ⟨by omega, h.1.2⟩, h.2⟩
      · simp only [mput, hj, hlt, if_false, mwfFrom, Bool.and_eq_true, decide_eq_true_eq]
        exact ⟨h.1, ih h.2 (by omega)⟩

/-- A write keeps the canonical form. -/
theorem mwf_mset {m : Map α} (h : mwf d m = true) (k : Nat) (x : α) : mwf d (mset (d k) m k x) = true := by
  unfold mset
  split
  · exact mwfFrom_mdel h k
  · exact mwfFrom_mput h (Nat.zero_le k) ‹_›

theorem mwfFrom_filter {m : Map α} {lo : Nat} (h : mwfFrom d lo m = true) (p : Nat × α → Bool) : mwfFrom d lo (m.filter p) = true := by
  induction m generalizing lo with
  | nil => rfl
  | cons q r ih =>
    obtain ⟨j, x⟩ := q
    simp only [mwfFrom, Bool.and_eq_true, decide_eq_true_eq] at h
    simp only [List.filter]
    split
    · simp only [mwfFrom, Bool.and_eq_true, decide_eq_true_eq]
      exact ⟨h.1, ih h.2⟩
    · exact mwfFrom_weaken (ih h.2) (by omega)

/-- Dropping entries keeps the canonical form. -/
theorem mwf_filter {m : Map α} (h : mwf d m = true) (p : Nat × α → Bool) : mwf d (m.filter p) = true := mwfFrom_filter h p

theorem risingFrom_of_mwfFrom {m : Map α} {lo : Nat} (h : mwfFrom d lo m = true) : risingFrom lo m = true := by
  induction m generalizing lo with
  | nil => rfl
  | cons q r ih =>
    obtain ⟨j, x⟩ := q
    simp only [mwfFrom, Bool.and_eq_true, decide_eq_true_eq] at h
    simp only [risingFrom, Bool.and_eq_true, decide_eq_true_eq]
    exact ⟨h.1.1, ih h.2⟩

/-- The canonical form rises. -/
theorem rising_of_mwf {m : Map α} (h : mwf d m = true) : rising m = true := risingFrom_of_mwfFrom h

/-- Equal contents in canonical form are equal lists. -/
theorem mwf_ext (c : α) {m n : Map α} (hm : mwf (fun _ => c) m = true) (hn : mwf (fun _ => c) n = true)
    (h : ∀ k, mget c m k = mget c n k) : m = n := by
  have key : ∀ (m n : Map α) (lo : Nat), mwfFrom (fun _ => c) lo m = true → mwfFrom (fun _ => c) lo n = true →
      (∀ k, mget c m k = mget c n k) → m = n := by
    intro m
    induction m with
    | nil =>
      intro n lo _ hn h
      cases n with
      | nil => rfl
      | cons p r =>
        obtain ⟨j, x⟩ := p
        simp only [mwfFrom, Bool.and_eq_true, decide_eq_true_eq] at hn
        have := h j
        simp only [mget, if_true] at this
        exact absurd this.symm hn.1.2
    | cons p r ih =>
      intro n lo hm hn h
      obtain ⟨i, x⟩ := p
      cases n with
      | nil =>
        simp only [mwfFrom, Bool.and_eq_true, decide_eq_true_eq] at hm
        have := h i
        simp only [mget, if_true] at this
        exact absurd this hm.1.2
      | cons q t =>
        obtain ⟨j, y⟩ := q
        simp only [mwfFrom, Bool.and_eq_true, decide_eq_true_eq] at hm hn
        have hr := risingFrom_of_mwfFrom hm.2
        have ht := risingFrom_of_mwfFrom hn.2
        have hij : i = j := by
          rcases Nat.lt_trichotomy i j with hlt | heq | hlt
          · have := h i
            simp only [mget, if_true, show j ≠ i by omega, if_false] at this
            rw [mget_below c ht (by omega)] at this
            exact absurd this hm.1.2
          · exact heq
          · have := h j
            simp only [mget, if_true, show i ≠ j by omega, if_false] at this
            rw [mget_below c hr (by omega)] at this
            exact absurd this.symm hn.1.2
        subst hij
        have hxy := h i
        simp only [mget, if_true] at hxy
        subst hxy
        congr 1
        refine ih t (i + 1) hm.2 hn.2 fun k => ?_
        by_cases hk : i = k
        · subst hk
          rw [mget_below c hr (by omega), mget_below c ht (by omega)]
        · have := h k
          simpa only [mget, hk, if_false] using this
  exact key m n 0 hm hn h

end Sys2Proof.Machine
end

