-- ==== Sys2Proof/Laws/State.lean ====
section
/-!
SUPPORT. One lemma for each field and each elementary update of the state and of a context: what the update leaves alone, and what it sets.
-/
namespace Sys2Proof.Machine

open Sys2Proof

/-! ### setCtx -/

@[simp] theorem State.setCtx_cycle (s : State) (c : CtxId) (x : Ctx) : (s.setCtx c x).cycle = s.cycle := rfl
@[simp] theorem State.setCtx_slots (s : State) (c : CtxId) (x : Ctx) : (s.setCtx c x).slots = s.slots := rfl
@[simp] theorem State.setCtx_agenda (s : State) (c : CtxId) (x : Ctx) : (s.setCtx c x).agenda = s.agenda := rfl
@[simp] theorem State.setCtx_cur (s : State) (c : CtxId) (x : Ctx) : (s.setCtx c x).cur = s.cur := rfl
@[simp] theorem State.setCtx_arg (s : State) (c : CtxId) (x : Ctx) : (s.setCtx c x).arg = s.arg := rfl
@[simp] theorem State.setCtx_delays (s : State) (c : CtxId) (x : Ctx) : (s.setCtx c x).delays = s.delays := rfl
@[simp] theorem State.setCtx_nextId (s : State) (c : CtxId) (x : Ctx) : (s.setCtx c x).nextId = s.nextId := rfl
@[simp] theorem State.setCtx_freeCount (s : State) (c : CtxId) (x : Ctx) : (s.setCtx c x).freeCount = s.freeCount := rfl
@[simp] theorem State.setCtx_mem (s : State) (c : CtxId) (x : Ctx) : (s.setCtx c x).mem = s.mem := rfl
@[simp] theorem State.setCtx_empty (s : State) (c : CtxId) (x : Ctx) : (s.setCtx c x).empty = s.empty := rfl
@[simp] theorem State.setCtx_vague (s : State) (c : CtxId) (x : Ctx) : (s.setCtx c x).vague = s.vague := rfl
@[simp] theorem State.setCtx_poison (s : State) (c : CtxId) (x : Ctx) : (s.setCtx c x).poison = s.poison := rfl
@[simp] theorem State.setCtx_cores (s : State) (c : CtxId) (x : Ctx) : (s.setCtx c x).cores = s.cores := rfl
@[simp] theorem State.setCtx_clusters (s : State) (c : CtxId) (x : Ctx) : (s.setCtx c x).clusters = s.clusters := rfl
@[simp] theorem State.setCtx_dies (s : State) (c : CtxId) (x : Ctx) : (s.setCtx c x).dies = s.dies := rfl
@[simp] theorem State.setCtx_jobs (s : State) (c : CtxId) (x : Ctx) : (s.setCtx c x).jobs = s.jobs := rfl
@[simp] theorem State.setCtx_capkey (s : State) (c : CtxId) (x : Ctx) : (s.setCtx c x).capkey = s.capkey := rfl
@[simp] theorem State.setCtx_devnum (s : State) (c : CtxId) (x : Ctx) : (s.setCtx c x).devnum = s.devnum := rfl
@[simp] theorem State.setCtx_nextThread (s : State) (c : CtxId) (x : Ctx) : (s.setCtx c x).nextThread = s.nextThread := rfl
@[simp] theorem State.setCtx_ops (s : State) (c : CtxId) (x : Ctx) : (s.setCtx c x).ops = s.ops := rfl
@[simp] theorem State.setCtx_marks (s : State) (c : CtxId) (x : Ctx) : (s.setCtx c x).marks = s.marks := rfl
@[simp] theorem State.setCtx_waiters (s : State) (c : CtxId) (x : Ctx) : (s.setCtx c x).waiters = s.waiters := rfl
@[simp] theorem State.setCtx_waiterSeq (s : State) (c : CtxId) (x : Ctx) : (s.setCtx c x).waiterSeq = s.waiterSeq := rfl
@[simp] theorem State.setCtx_gmaxers (s : State) (c : CtxId) (x : Ctx) : (s.setCtx c x).gmaxers = s.gmaxers := rfl
@[simp] theorem State.setCtx_subs (s : State) (c : CtxId) (x : Ctx) : (s.setCtx c x).subs = s.subs := rfl
@[simp] theorem State.setCtx_saves (s : State) (c : CtxId) (x : Ctx) : (s.setCtx c x).saves = s.saves := rfl
@[simp] theorem State.setCtx_island (s : State) (c : CtxId) (x : Ctx) : (s.setCtx c x).island = s.island := rfl
@[simp] theorem State.setCtx_out (s : State) (c : CtxId) (x : Ctx) : (s.setCtx c x).out = s.out := rfl
@[simp] theorem State.setCtx_life (s : State) (c : CtxId) (x : Ctx) : (s.setCtx c x).life = s.life := rfl
@[simp] theorem State.setCtx_flash (s : State) (c : CtxId) (x : Ctx) : (s.setCtx c x).flash = s.flash := rfl
@[simp] theorem State.setCtx_badGranules (s : State) (c : CtxId) (x : Ctx) : (s.setCtx c x).badGranules = s.badGranules := rfl
@[simp] theorem State.setCtx_hot (s : State) (c : CtxId) (x : Ctx) : (s.setCtx c x).hot = s.hot := rfl
@[simp] theorem State.setCtx_temps (s : State) (c : CtxId) (x : Ctx) : (s.setCtx c x).temps = s.temps := rfl
@[simp] theorem State.setCtx_derated (s : State) (c : CtxId) (x : Ctx) : (s.setCtx c x).derated = s.derated := rfl
@[simp] theorem State.setCtx_spare (s : State) (c : CtxId) (x : Ctx) : (s.setCtx c x).spare = s.spare := rfl
@[simp] theorem State.setCtx_deadLinks (s : State) (c : CtxId) (x : Ctx) : (s.setCtx c x).deadLinks = s.deadLinks := rfl

/-! ### setCore -/

@[simp] theorem State.setCore_cycle (s : State) (c : Nat) (x : Core) : (s.setCore c x).cycle = s.cycle := rfl
@[simp] theorem State.setCore_slots (s : State) (c : Nat) (x : Core) : (s.setCore c x).slots = s.slots := rfl
@[simp] theorem State.setCore_agenda (s : State) (c : Nat) (x : Core) : (s.setCore c x).agenda = s.agenda := rfl
@[simp] theorem State.setCore_cur (s : State) (c : Nat) (x : Core) : (s.setCore c x).cur = s.cur := rfl
@[simp] theorem State.setCore_arg (s : State) (c : Nat) (x : Core) : (s.setCore c x).arg = s.arg := rfl
@[simp] theorem State.setCore_delays (s : State) (c : Nat) (x : Core) : (s.setCore c x).delays = s.delays := rfl
@[simp] theorem State.setCore_nextId (s : State) (c : Nat) (x : Core) : (s.setCore c x).nextId = s.nextId := rfl
@[simp] theorem State.setCore_freeCount (s : State) (c : Nat) (x : Core) : (s.setCore c x).freeCount = s.freeCount := rfl
@[simp] theorem State.setCore_mem (s : State) (c : Nat) (x : Core) : (s.setCore c x).mem = s.mem := rfl
@[simp] theorem State.setCore_empty (s : State) (c : Nat) (x : Core) : (s.setCore c x).empty = s.empty := rfl
@[simp] theorem State.setCore_vague (s : State) (c : Nat) (x : Core) : (s.setCore c x).vague = s.vague := rfl
@[simp] theorem State.setCore_poison (s : State) (c : Nat) (x : Core) : (s.setCore c x).poison = s.poison := rfl
@[simp] theorem State.setCore_ctxs (s : State) (c : Nat) (x : Core) : (s.setCore c x).ctxs = s.ctxs := rfl
@[simp] theorem State.setCore_clusters (s : State) (c : Nat) (x : Core) : (s.setCore c x).clusters = s.clusters := rfl
@[simp] theorem State.setCore_dies (s : State) (c : Nat) (x : Core) : (s.setCore c x).dies = s.dies := rfl
@[simp] theorem State.setCore_jobs (s : State) (c : Nat) (x : Core) : (s.setCore c x).jobs = s.jobs := rfl
@[simp] theorem State.setCore_capkey (s : State) (c : Nat) (x : Core) : (s.setCore c x).capkey = s.capkey := rfl
@[simp] theorem State.setCore_devnum (s : State) (c : Nat) (x : Core) : (s.setCore c x).devnum = s.devnum := rfl
@[simp] theorem State.setCore_nextThread (s : State) (c : Nat) (x : Core) : (s.setCore c x).nextThread = s.nextThread := rfl
@[simp] theorem State.setCore_ops (s : State) (c : Nat) (x : Core) : (s.setCore c x).ops = s.ops := rfl
@[simp] theorem State.setCore_marks (s : State) (c : Nat) (x : Core) : (s.setCore c x).marks = s.marks := rfl
@[simp] theorem State.setCore_waiters (s : State) (c : Nat) (x : Core) : (s.setCore c x).waiters = s.waiters := rfl
@[simp] theorem State.setCore_waiterSeq (s : State) (c : Nat) (x : Core) : (s.setCore c x).waiterSeq = s.waiterSeq := rfl
@[simp] theorem State.setCore_gmaxers (s : State) (c : Nat) (x : Core) : (s.setCore c x).gmaxers = s.gmaxers := rfl
@[simp] theorem State.setCore_subs (s : State) (c : Nat) (x : Core) : (s.setCore c x).subs = s.subs := rfl
@[simp] theorem State.setCore_saves (s : State) (c : Nat) (x : Core) : (s.setCore c x).saves = s.saves := rfl
@[simp] theorem State.setCore_island (s : State) (c : Nat) (x : Core) : (s.setCore c x).island = s.island := rfl
@[simp] theorem State.setCore_out (s : State) (c : Nat) (x : Core) : (s.setCore c x).out = s.out := rfl
@[simp] theorem State.setCore_life (s : State) (c : Nat) (x : Core) : (s.setCore c x).life = s.life := rfl
@[simp] theorem State.setCore_flash (s : State) (c : Nat) (x : Core) : (s.setCore c x).flash = s.flash := rfl
@[simp] theorem State.setCore_badGranules (s : State) (c : Nat) (x : Core) : (s.setCore c x).badGranules = s.badGranules := rfl
@[simp] theorem State.setCore_hot (s : State) (c : Nat) (x : Core) : (s.setCore c x).hot = s.hot := rfl
@[simp] theorem State.setCore_temps (s : State) (c : Nat) (x : Core) : (s.setCore c x).temps = s.temps := rfl
@[simp] theorem State.setCore_derated (s : State) (c : Nat) (x : Core) : (s.setCore c x).derated = s.derated := rfl
@[simp] theorem State.setCore_spare (s : State) (c : Nat) (x : Core) : (s.setCore c x).spare = s.spare := rfl
@[simp] theorem State.setCore_deadLinks (s : State) (c : Nat) (x : Core) : (s.setCore c x).deadLinks = s.deadLinks := rfl

/-! ### setCluster -/

@[simp] theorem State.setCluster_cycle (s : State) (k : Nat) (x : Cluster) : (s.setCluster k x).cycle = s.cycle := rfl
@[simp] theorem State.setCluster_slots (s : State) (k : Nat) (x : Cluster) : (s.setCluster k x).slots = s.slots := rfl
@[simp] theorem State.setCluster_agenda (s : State) (k : Nat) (x : Cluster) : (s.setCluster k x).agenda = s.agenda := rfl
@[simp] theorem State.setCluster_cur (s : State) (k : Nat) (x : Cluster) : (s.setCluster k x).cur = s.cur := rfl
@[simp] theorem State.setCluster_arg (s : State) (k : Nat) (x : Cluster) : (s.setCluster k x).arg = s.arg := rfl
@[simp] theorem State.setCluster_delays (s : State) (k : Nat) (x : Cluster) : (s.setCluster k x).delays = s.delays := rfl
@[simp] theorem State.setCluster_nextId (s : State) (k : Nat) (x : Cluster) : (s.setCluster k x).nextId = s.nextId := rfl
@[simp] theorem State.setCluster_freeCount (s : State) (k : Nat) (x : Cluster) : (s.setCluster k x).freeCount = s.freeCount := rfl
@[simp] theorem State.setCluster_mem (s : State) (k : Nat) (x : Cluster) : (s.setCluster k x).mem = s.mem := rfl
@[simp] theorem State.setCluster_empty (s : State) (k : Nat) (x : Cluster) : (s.setCluster k x).empty = s.empty := rfl
@[simp] theorem State.setCluster_vague (s : State) (k : Nat) (x : Cluster) : (s.setCluster k x).vague = s.vague := rfl
@[simp] theorem State.setCluster_poison (s : State) (k : Nat) (x : Cluster) : (s.setCluster k x).poison = s.poison := rfl
@[simp] theorem State.setCluster_ctxs (s : State) (k : Nat) (x : Cluster) : (s.setCluster k x).ctxs = s.ctxs := rfl
@[simp] theorem State.setCluster_cores (s : State) (k : Nat) (x : Cluster) : (s.setCluster k x).cores = s.cores := rfl
@[simp] theorem State.setCluster_dies (s : State) (k : Nat) (x : Cluster) : (s.setCluster k x).dies = s.dies := rfl
@[simp] theorem State.setCluster_jobs (s : State) (k : Nat) (x : Cluster) : (s.setCluster k x).jobs = s.jobs := rfl
@[simp] theorem State.setCluster_capkey (s : State) (k : Nat) (x : Cluster) : (s.setCluster k x).capkey = s.capkey := rfl
@[simp] theorem State.setCluster_devnum (s : State) (k : Nat) (x : Cluster) : (s.setCluster k x).devnum = s.devnum := rfl
@[simp] theorem State.setCluster_nextThread (s : State) (k : Nat) (x : Cluster) : (s.setCluster k x).nextThread = s.nextThread := rfl
@[simp] theorem State.setCluster_ops (s : State) (k : Nat) (x : Cluster) : (s.setCluster k x).ops = s.ops := rfl
@[simp] theorem State.setCluster_marks (s : State) (k : Nat) (x : Cluster) : (s.setCluster k x).marks = s.marks := rfl
@[simp] theorem State.setCluster_waiters (s : State) (k : Nat) (x : Cluster) : (s.setCluster k x).waiters = s.waiters := rfl
@[simp] theorem State.setCluster_waiterSeq (s : State) (k : Nat) (x : Cluster) : (s.setCluster k x).waiterSeq = s.waiterSeq := rfl
@[simp] theorem State.setCluster_gmaxers (s : State) (k : Nat) (x : Cluster) : (s.setCluster k x).gmaxers = s.gmaxers := rfl
@[simp] theorem State.setCluster_subs (s : State) (k : Nat) (x : Cluster) : (s.setCluster k x).subs = s.subs := rfl
@[simp] theorem State.setCluster_saves (s : State) (k : Nat) (x : Cluster) : (s.setCluster k x).saves = s.saves := rfl
@[simp] theorem State.setCluster_island (s : State) (k : Nat) (x : Cluster) : (s.setCluster k x).island = s.island := rfl
@[simp] theorem State.setCluster_out (s : State) (k : Nat) (x : Cluster) : (s.setCluster k x).out = s.out := rfl
@[simp] theorem State.setCluster_life (s : State) (k : Nat) (x : Cluster) : (s.setCluster k x).life = s.life := rfl
@[simp] theorem State.setCluster_flash (s : State) (k : Nat) (x : Cluster) : (s.setCluster k x).flash = s.flash := rfl
@[simp] theorem State.setCluster_badGranules (s : State) (k : Nat) (x : Cluster) : (s.setCluster k x).badGranules = s.badGranules := rfl
@[simp] theorem State.setCluster_hot (s : State) (k : Nat) (x : Cluster) : (s.setCluster k x).hot = s.hot := rfl
@[simp] theorem State.setCluster_temps (s : State) (k : Nat) (x : Cluster) : (s.setCluster k x).temps = s.temps := rfl
@[simp] theorem State.setCluster_derated (s : State) (k : Nat) (x : Cluster) : (s.setCluster k x).derated = s.derated := rfl
@[simp] theorem State.setCluster_spare (s : State) (k : Nat) (x : Cluster) : (s.setCluster k x).spare = s.spare := rfl
@[simp] theorem State.setCluster_deadLinks (s : State) (k : Nat) (x : Cluster) : (s.setCluster k x).deadLinks = s.deadLinks := rfl

/-! ### setJob -/

@[simp] theorem State.setJob_cycle (s : State) (n : Nat) (x : Job) : (s.setJob n x).cycle = s.cycle := rfl
@[simp] theorem State.setJob_slots (s : State) (n : Nat) (x : Job) : (s.setJob n x).slots = s.slots := rfl
@[simp] theorem State.setJob_agenda (s : State) (n : Nat) (x : Job) : (s.setJob n x).agenda = s.agenda := rfl
@[simp] theorem State.setJob_cur (s : State) (n : Nat) (x : Job) : (s.setJob n x).cur = s.cur := rfl
@[simp] theorem State.setJob_arg (s : State) (n : Nat) (x : Job) : (s.setJob n x).arg = s.arg := rfl
@[simp] theorem State.setJob_delays (s : State) (n : Nat) (x : Job) : (s.setJob n x).delays = s.delays := rfl
@[simp] theorem State.setJob_nextId (s : State) (n : Nat) (x : Job) : (s.setJob n x).nextId = s.nextId := rfl
@[simp] theorem State.setJob_freeCount (s : State) (n : Nat) (x : Job) : (s.setJob n x).freeCount = s.freeCount := rfl
@[simp] theorem State.setJob_mem (s : State) (n : Nat) (x : Job) : (s.setJob n x).mem = s.mem := rfl
@[simp] theorem State.setJob_empty (s : State) (n : Nat) (x : Job) : (s.setJob n x).empty = s.empty := rfl
@[simp] theorem State.setJob_vague (s : State) (n : Nat) (x : Job) : (s.setJob n x).vague = s.vague := rfl
@[simp] theorem State.setJob_poison (s : State) (n : Nat) (x : Job) : (s.setJob n x).poison = s.poison := rfl
@[simp] theorem State.setJob_ctxs (s : State) (n : Nat) (x : Job) : (s.setJob n x).ctxs = s.ctxs := rfl
@[simp] theorem State.setJob_cores (s : State) (n : Nat) (x : Job) : (s.setJob n x).cores = s.cores := rfl
@[simp] theorem State.setJob_clusters (s : State) (n : Nat) (x : Job) : (s.setJob n x).clusters = s.clusters := rfl
@[simp] theorem State.setJob_dies (s : State) (n : Nat) (x : Job) : (s.setJob n x).dies = s.dies := rfl
@[simp] theorem State.setJob_capkey (s : State) (n : Nat) (x : Job) : (s.setJob n x).capkey = s.capkey := rfl
@[simp] theorem State.setJob_devnum (s : State) (n : Nat) (x : Job) : (s.setJob n x).devnum = s.devnum := rfl
@[simp] theorem State.setJob_nextThread (s : State) (n : Nat) (x : Job) : (s.setJob n x).nextThread = s.nextThread := rfl
@[simp] theorem State.setJob_ops (s : State) (n : Nat) (x : Job) : (s.setJob n x).ops = s.ops := rfl
@[simp] theorem State.setJob_marks (s : State) (n : Nat) (x : Job) : (s.setJob n x).marks = s.marks := rfl
@[simp] theorem State.setJob_waiters (s : State) (n : Nat) (x : Job) : (s.setJob n x).waiters = s.waiters := rfl
@[simp] theorem State.setJob_waiterSeq (s : State) (n : Nat) (x : Job) : (s.setJob n x).waiterSeq = s.waiterSeq := rfl
@[simp] theorem State.setJob_gmaxers (s : State) (n : Nat) (x : Job) : (s.setJob n x).gmaxers = s.gmaxers := rfl
@[simp] theorem State.setJob_subs (s : State) (n : Nat) (x : Job) : (s.setJob n x).subs = s.subs := rfl
@[simp] theorem State.setJob_saves (s : State) (n : Nat) (x : Job) : (s.setJob n x).saves = s.saves := rfl
@[simp] theorem State.setJob_island (s : State) (n : Nat) (x : Job) : (s.setJob n x).island = s.island := rfl
@[simp] theorem State.setJob_out (s : State) (n : Nat) (x : Job) : (s.setJob n x).out = s.out := rfl
@[simp] theorem State.setJob_life (s : State) (n : Nat) (x : Job) : (s.setJob n x).life = s.life := rfl
@[simp] theorem State.setJob_flash (s : State) (n : Nat) (x : Job) : (s.setJob n x).flash = s.flash := rfl
@[simp] theorem State.setJob_badGranules (s : State) (n : Nat) (x : Job) : (s.setJob n x).badGranules = s.badGranules := rfl
@[simp] theorem State.setJob_hot (s : State) (n : Nat) (x : Job) : (s.setJob n x).hot = s.hot := rfl
@[simp] theorem State.setJob_temps (s : State) (n : Nat) (x : Job) : (s.setJob n x).temps = s.temps := rfl
@[simp] theorem State.setJob_derated (s : State) (n : Nat) (x : Job) : (s.setJob n x).derated = s.derated := rfl
@[simp] theorem State.setJob_spare (s : State) (n : Nat) (x : Job) : (s.setJob n x).spare = s.spare := rfl
@[simp] theorem State.setJob_deadLinks (s : State) (n : Nat) (x : Job) : (s.setJob n x).deadLinks = s.deadLinks := rfl

/-! ### setDie -/

@[simp] theorem State.setDie_cycle (s : State) (d : Nat) (x : DieState) : (s.setDie d x).cycle = s.cycle := rfl
@[simp] theorem State.setDie_slots (s : State) (d : Nat) (x : DieState) : (s.setDie d x).slots = s.slots := rfl
@[simp] theorem State.setDie_agenda (s : State) (d : Nat) (x : DieState) : (s.setDie d x).agenda = s.agenda := rfl
@[simp] theorem State.setDie_cur (s : State) (d : Nat) (x : DieState) : (s.setDie d x).cur = s.cur := rfl
@[simp] theorem State.setDie_arg (s : State) (d : Nat) (x : DieState) : (s.setDie d x).arg = s.arg := rfl
@[simp] theorem State.setDie_delays (s : State) (d : Nat) (x : DieState) : (s.setDie d x).delays = s.delays := rfl
@[simp] theorem State.setDie_nextId (s : State) (d : Nat) (x : DieState) : (s.setDie d x).nextId = s.nextId := rfl
@[simp] theorem State.setDie_freeCount (s : State) (d : Nat) (x : DieState) : (s.setDie d x).freeCount = s.freeCount := rfl
@[simp] theorem State.setDie_mem (s : State) (d : Nat) (x : DieState) : (s.setDie d x).mem = s.mem := rfl
@[simp] theorem State.setDie_empty (s : State) (d : Nat) (x : DieState) : (s.setDie d x).empty = s.empty := rfl
@[simp] theorem State.setDie_vague (s : State) (d : Nat) (x : DieState) : (s.setDie d x).vague = s.vague := rfl
@[simp] theorem State.setDie_poison (s : State) (d : Nat) (x : DieState) : (s.setDie d x).poison = s.poison := rfl
@[simp] theorem State.setDie_ctxs (s : State) (d : Nat) (x : DieState) : (s.setDie d x).ctxs = s.ctxs := rfl
@[simp] theorem State.setDie_cores (s : State) (d : Nat) (x : DieState) : (s.setDie d x).cores = s.cores := rfl
@[simp] theorem State.setDie_clusters (s : State) (d : Nat) (x : DieState) : (s.setDie d x).clusters = s.clusters := rfl
@[simp] theorem State.setDie_jobs (s : State) (d : Nat) (x : DieState) : (s.setDie d x).jobs = s.jobs := rfl
@[simp] theorem State.setDie_capkey (s : State) (d : Nat) (x : DieState) : (s.setDie d x).capkey = s.capkey := rfl
@[simp] theorem State.setDie_devnum (s : State) (d : Nat) (x : DieState) : (s.setDie d x).devnum = s.devnum := rfl
@[simp] theorem State.setDie_nextThread (s : State) (d : Nat) (x : DieState) : (s.setDie d x).nextThread = s.nextThread := rfl
@[simp] theorem State.setDie_ops (s : State) (d : Nat) (x : DieState) : (s.setDie d x).ops = s.ops := rfl
@[simp] theorem State.setDie_marks (s : State) (d : Nat) (x : DieState) : (s.setDie d x).marks = s.marks := rfl
@[simp] theorem State.setDie_waiters (s : State) (d : Nat) (x : DieState) : (s.setDie d x).waiters = s.waiters := rfl
@[simp] theorem State.setDie_waiterSeq (s : State) (d : Nat) (x : DieState) : (s.setDie d x).waiterSeq = s.waiterSeq := rfl
@[simp] theorem State.setDie_gmaxers (s : State) (d : Nat) (x : DieState) : (s.setDie d x).gmaxers = s.gmaxers := rfl
@[simp] theorem State.setDie_subs (s : State) (d : Nat) (x : DieState) : (s.setDie d x).subs = s.subs := rfl
@[simp] theorem State.setDie_saves (s : State) (d : Nat) (x : DieState) : (s.setDie d x).saves = s.saves := rfl
@[simp] theorem State.setDie_island (s : State) (d : Nat) (x : DieState) : (s.setDie d x).island = s.island := rfl
@[simp] theorem State.setDie_out (s : State) (d : Nat) (x : DieState) : (s.setDie d x).out = s.out := rfl
@[simp] theorem State.setDie_life (s : State) (d : Nat) (x : DieState) : (s.setDie d x).life = s.life := rfl
@[simp] theorem State.setDie_flash (s : State) (d : Nat) (x : DieState) : (s.setDie d x).flash = s.flash := rfl
@[simp] theorem State.setDie_badGranules (s : State) (d : Nat) (x : DieState) : (s.setDie d x).badGranules = s.badGranules := rfl
@[simp] theorem State.setDie_hot (s : State) (d : Nat) (x : DieState) : (s.setDie d x).hot = s.hot := rfl
@[simp] theorem State.setDie_temps (s : State) (d : Nat) (x : DieState) : (s.setDie d x).temps = s.temps := rfl
@[simp] theorem State.setDie_derated (s : State) (d : Nat) (x : DieState) : (s.setDie d x).derated = s.derated := rfl
@[simp] theorem State.setDie_spare (s : State) (d : Nat) (x : DieState) : (s.setDie d x).spare = s.spare := rfl
@[simp] theorem State.setDie_deadLinks (s : State) (d : Nat) (x : DieState) : (s.setDie d x).deadLinks = s.deadLinks := rfl

/-! ### later -/

@[simp] theorem State.later_cycle (s : State) (dt : Nat) (p : Option Path) (i : Instr) (a : Arg) : (s.later dt p i a).cycle = s.cycle := rfl
@[simp] theorem State.later_slots (s : State) (dt : Nat) (p : Option Path) (i : Instr) (a : Arg) : (s.later dt p i a).slots = s.slots := rfl
@[simp] theorem State.later_cur (s : State) (dt : Nat) (p : Option Path) (i : Instr) (a : Arg) : (s.later dt p i a).cur = s.cur := rfl
@[simp] theorem State.later_arg (s : State) (dt : Nat) (p : Option Path) (i : Instr) (a : Arg) : (s.later dt p i a).arg = s.arg := rfl
@[simp] theorem State.later_delays (s : State) (dt : Nat) (p : Option Path) (i : Instr) (a : Arg) : (s.later dt p i a).delays = s.delays := rfl
@[simp] theorem State.later_nextId (s : State) (dt : Nat) (p : Option Path) (i : Instr) (a : Arg) : (s.later dt p i a).nextId = s.nextId := rfl
@[simp] theorem State.later_freeCount (s : State) (dt : Nat) (p : Option Path) (i : Instr) (a : Arg) : (s.later dt p i a).freeCount = s.freeCount := rfl
@[simp] theorem State.later_mem (s : State) (dt : Nat) (p : Option Path) (i : Instr) (a : Arg) : (s.later dt p i a).mem = s.mem := rfl
@[simp] theorem State.later_empty (s : State) (dt : Nat) (p : Option Path) (i : Instr) (a : Arg) : (s.later dt p i a).empty = s.empty := rfl
@[simp] theorem State.later_vague (s : State) (dt : Nat) (p : Option Path) (i : Instr) (a : Arg) : (s.later dt p i a).vague = s.vague := rfl
@[simp] theorem State.later_poison (s : State) (dt : Nat) (p : Option Path) (i : Instr) (a : Arg) : (s.later dt p i a).poison = s.poison := rfl
@[simp] theorem State.later_ctxs (s : State) (dt : Nat) (p : Option Path) (i : Instr) (a : Arg) : (s.later dt p i a).ctxs = s.ctxs := rfl
@[simp] theorem State.later_cores (s : State) (dt : Nat) (p : Option Path) (i : Instr) (a : Arg) : (s.later dt p i a).cores = s.cores := rfl
@[simp] theorem State.later_clusters (s : State) (dt : Nat) (p : Option Path) (i : Instr) (a : Arg) : (s.later dt p i a).clusters = s.clusters := rfl
@[simp] theorem State.later_dies (s : State) (dt : Nat) (p : Option Path) (i : Instr) (a : Arg) : (s.later dt p i a).dies = s.dies := rfl
@[simp] theorem State.later_jobs (s : State) (dt : Nat) (p : Option Path) (i : Instr) (a : Arg) : (s.later dt p i a).jobs = s.jobs := rfl
@[simp] theorem State.later_capkey (s : State) (dt : Nat) (p : Option Path) (i : Instr) (a : Arg) : (s.later dt p i a).capkey = s.capkey := rfl
@[simp] theorem State.later_devnum (s : State) (dt : Nat) (p : Option Path) (i : Instr) (a : Arg) : (s.later dt p i a).devnum = s.devnum := rfl
@[simp] theorem State.later_nextThread (s : State) (dt : Nat) (p : Option Path) (i : Instr) (a : Arg) : (s.later dt p i a).nextThread = s.nextThread := rfl
@[simp] theorem State.later_ops (s : State) (dt : Nat) (p : Option Path) (i : Instr) (a : Arg) : (s.later dt p i a).ops = s.ops := rfl
@[simp] theorem State.later_marks (s : State) (dt : Nat) (p : Option Path) (i : Instr) (a : Arg) : (s.later dt p i a).marks = s.marks := rfl
@[simp] theorem State.later_waiters (s : State) (dt : Nat) (p : Option Path) (i : Instr) (a : Arg) : (s.later dt p i a).waiters = s.waiters := rfl
@[simp] theorem State.later_waiterSeq (s : State) (dt : Nat) (p : Option Path) (i : Instr) (a : Arg) : (s.later dt p i a).waiterSeq = s.waiterSeq := rfl
@[simp] theorem State.later_gmaxers (s : State) (dt : Nat) (p : Option Path) (i : Instr) (a : Arg) : (s.later dt p i a).gmaxers = s.gmaxers := rfl
@[simp] theorem State.later_subs (s : State) (dt : Nat) (p : Option Path) (i : Instr) (a : Arg) : (s.later dt p i a).subs = s.subs := rfl
@[simp] theorem State.later_saves (s : State) (dt : Nat) (p : Option Path) (i : Instr) (a : Arg) : (s.later dt p i a).saves = s.saves := rfl
@[simp] theorem State.later_island (s : State) (dt : Nat) (p : Option Path) (i : Instr) (a : Arg) : (s.later dt p i a).island = s.island := rfl
@[simp] theorem State.later_out (s : State) (dt : Nat) (p : Option Path) (i : Instr) (a : Arg) : (s.later dt p i a).out = s.out := rfl
@[simp] theorem State.later_life (s : State) (dt : Nat) (p : Option Path) (i : Instr) (a : Arg) : (s.later dt p i a).life = s.life := rfl
@[simp] theorem State.later_flash (s : State) (dt : Nat) (p : Option Path) (i : Instr) (a : Arg) : (s.later dt p i a).flash = s.flash := rfl
@[simp] theorem State.later_badGranules (s : State) (dt : Nat) (p : Option Path) (i : Instr) (a : Arg) : (s.later dt p i a).badGranules = s.badGranules := rfl
@[simp] theorem State.later_hot (s : State) (dt : Nat) (p : Option Path) (i : Instr) (a : Arg) : (s.later dt p i a).hot = s.hot := rfl
@[simp] theorem State.later_temps (s : State) (dt : Nat) (p : Option Path) (i : Instr) (a : Arg) : (s.later dt p i a).temps = s.temps := rfl
@[simp] theorem State.later_derated (s : State) (dt : Nat) (p : Option Path) (i : Instr) (a : Arg) : (s.later dt p i a).derated = s.derated := rfl
@[simp] theorem State.later_spare (s : State) (dt : Nat) (p : Option Path) (i : Instr) (a : Arg) : (s.later dt p i a).spare = s.spare := rfl
@[simp] theorem State.later_deadLinks (s : State) (dt : Nat) (p : Option Path) (i : Instr) (a : Arg) : (s.later dt p i a).deadLinks = s.deadLinks := rfl

/-! ### again -/

@[simp] theorem State.again_cycle (s : State) (dt : Nat) (p : Option Path) (i : Instr) (a : Arg) : (s.again dt p i a).cycle = s.cycle := rfl
@[simp] theorem State.again_slots (s : State) (dt : Nat) (p : Option Path) (i : Instr) (a : Arg) : (s.again dt p i a).slots = s.slots := rfl
@[simp] theorem State.again_cur (s : State) (dt : Nat) (p : Option Path) (i : Instr) (a : Arg) : (s.again dt p i a).cur = s.cur := rfl
@[simp] theorem State.again_arg (s : State) (dt : Nat) (p : Option Path) (i : Instr) (a : Arg) : (s.again dt p i a).arg = s.arg := rfl
@[simp] theorem State.again_delays (s : State) (dt : Nat) (p : Option Path) (i : Instr) (a : Arg) : (s.again dt p i a).delays = s.delays := rfl
@[simp] theorem State.again_nextId (s : State) (dt : Nat) (p : Option Path) (i : Instr) (a : Arg) : (s.again dt p i a).nextId = s.nextId := rfl
@[simp] theorem State.again_freeCount (s : State) (dt : Nat) (p : Option Path) (i : Instr) (a : Arg) : (s.again dt p i a).freeCount = s.freeCount := rfl
@[simp] theorem State.again_mem (s : State) (dt : Nat) (p : Option Path) (i : Instr) (a : Arg) : (s.again dt p i a).mem = s.mem := rfl
@[simp] theorem State.again_empty (s : State) (dt : Nat) (p : Option Path) (i : Instr) (a : Arg) : (s.again dt p i a).empty = s.empty := rfl
@[simp] theorem State.again_vague (s : State) (dt : Nat) (p : Option Path) (i : Instr) (a : Arg) : (s.again dt p i a).vague = s.vague := rfl
@[simp] theorem State.again_poison (s : State) (dt : Nat) (p : Option Path) (i : Instr) (a : Arg) : (s.again dt p i a).poison = s.poison := rfl
@[simp] theorem State.again_ctxs (s : State) (dt : Nat) (p : Option Path) (i : Instr) (a : Arg) : (s.again dt p i a).ctxs = s.ctxs := rfl
@[simp] theorem State.again_cores (s : State) (dt : Nat) (p : Option Path) (i : Instr) (a : Arg) : (s.again dt p i a).cores = s.cores := rfl
@[simp] theorem State.again_clusters (s : State) (dt : Nat) (p : Option Path) (i : Instr) (a : Arg) : (s.again dt p i a).clusters = s.clusters := rfl
@[simp] theorem State.again_dies (s : State) (dt : Nat) (p : Option Path) (i : Instr) (a : Arg) : (s.again dt p i a).dies = s.dies := rfl
@[simp] theorem State.again_jobs (s : State) (dt : Nat) (p : Option Path) (i : Instr) (a : Arg) : (s.again dt p i a).jobs = s.jobs := rfl
@[simp] theorem State.again_capkey (s : State) (dt : Nat) (p : Option Path) (i : Instr) (a : Arg) : (s.again dt p i a).capkey = s.capkey := rfl
@[simp] theorem State.again_devnum (s : State) (dt : Nat) (p : Option Path) (i : Instr) (a : Arg) : (s.again dt p i a).devnum = s.devnum := rfl
@[simp] theorem State.again_nextThread (s : State) (dt : Nat) (p : Option Path) (i : Instr) (a : Arg) : (s.again dt p i a).nextThread = s.nextThread := rfl
@[simp] theorem State.again_ops (s : State) (dt : Nat) (p : Option Path) (i : Instr) (a : Arg) : (s.again dt p i a).ops = s.ops := rfl
@[simp] theorem State.again_marks (s : State) (dt : Nat) (p : Option Path) (i : Instr) (a : Arg) : (s.again dt p i a).marks = s.marks := rfl
@[simp] theorem State.again_waiters (s : State) (dt : Nat) (p : Option Path) (i : Instr) (a : Arg) : (s.again dt p i a).waiters = s.waiters := rfl
@[simp] theorem State.again_waiterSeq (s : State) (dt : Nat) (p : Option Path) (i : Instr) (a : Arg) : (s.again dt p i a).waiterSeq = s.waiterSeq := rfl
@[simp] theorem State.again_gmaxers (s : State) (dt : Nat) (p : Option Path) (i : Instr) (a : Arg) : (s.again dt p i a).gmaxers = s.gmaxers := rfl
@[simp] theorem State.again_subs (s : State) (dt : Nat) (p : Option Path) (i : Instr) (a : Arg) : (s.again dt p i a).subs = s.subs := rfl
@[simp] theorem State.again_saves (s : State) (dt : Nat) (p : Option Path) (i : Instr) (a : Arg) : (s.again dt p i a).saves = s.saves := rfl
@[simp] theorem State.again_island (s : State) (dt : Nat) (p : Option Path) (i : Instr) (a : Arg) : (s.again dt p i a).island = s.island := rfl
@[simp] theorem State.again_out (s : State) (dt : Nat) (p : Option Path) (i : Instr) (a : Arg) : (s.again dt p i a).out = s.out := rfl
@[simp] theorem State.again_life (s : State) (dt : Nat) (p : Option Path) (i : Instr) (a : Arg) : (s.again dt p i a).life = s.life := rfl
@[simp] theorem State.again_flash (s : State) (dt : Nat) (p : Option Path) (i : Instr) (a : Arg) : (s.again dt p i a).flash = s.flash := rfl
@[simp] theorem State.again_badGranules (s : State) (dt : Nat) (p : Option Path) (i : Instr) (a : Arg) : (s.again dt p i a).badGranules = s.badGranules := rfl
@[simp] theorem State.again_hot (s : State) (dt : Nat) (p : Option Path) (i : Instr) (a : Arg) : (s.again dt p i a).hot = s.hot := rfl
@[simp] theorem State.again_temps (s : State) (dt : Nat) (p : Option Path) (i : Instr) (a : Arg) : (s.again dt p i a).temps = s.temps := rfl
@[simp] theorem State.again_derated (s : State) (dt : Nat) (p : Option Path) (i : Instr) (a : Arg) : (s.again dt p i a).derated = s.derated := rfl
@[simp] theorem State.again_spare (s : State) (dt : Nat) (p : Option Path) (i : Instr) (a : Arg) : (s.again dt p i a).spare = s.spare := rfl
@[simp] theorem State.again_deadLinks (s : State) (dt : Nat) (p : Option Path) (i : Instr) (a : Arg) : (s.again dt p i a).deadLinks = s.deadLinks := rfl

/-! ### setByte -/

@[simp] theorem State.setByte_cycle (s : State) (l : Nat) (b : Byte) : (s.setByte l b).cycle = s.cycle := rfl
@[simp] theorem State.setByte_slots (s : State) (l : Nat) (b : Byte) : (s.setByte l b).slots = s.slots := rfl
@[simp] theorem State.setByte_agenda (s : State) (l : Nat) (b : Byte) : (s.setByte l b).agenda = s.agenda := rfl
@[simp] theorem State.setByte_cur (s : State) (l : Nat) (b : Byte) : (s.setByte l b).cur = s.cur := rfl
@[simp] theorem State.setByte_arg (s : State) (l : Nat) (b : Byte) : (s.setByte l b).arg = s.arg := rfl
@[simp] theorem State.setByte_delays (s : State) (l : Nat) (b : Byte) : (s.setByte l b).delays = s.delays := rfl
@[simp] theorem State.setByte_nextId (s : State) (l : Nat) (b : Byte) : (s.setByte l b).nextId = s.nextId := rfl
@[simp] theorem State.setByte_freeCount (s : State) (l : Nat) (b : Byte) : (s.setByte l b).freeCount = s.freeCount := rfl
@[simp] theorem State.setByte_empty (s : State) (l : Nat) (b : Byte) : (s.setByte l b).empty = s.empty := rfl
@[simp] theorem State.setByte_poison (s : State) (l : Nat) (b : Byte) : (s.setByte l b).poison = s.poison := rfl
@[simp] theorem State.setByte_ctxs (s : State) (l : Nat) (b : Byte) : (s.setByte l b).ctxs = s.ctxs := rfl
@[simp] theorem State.setByte_cores (s : State) (l : Nat) (b : Byte) : (s.setByte l b).cores = s.cores := rfl
@[simp] theorem State.setByte_clusters (s : State) (l : Nat) (b : Byte) : (s.setByte l b).clusters = s.clusters := rfl
@[simp] theorem State.setByte_dies (s : State) (l : Nat) (b : Byte) : (s.setByte l b).dies = s.dies := rfl
@[simp] theorem State.setByte_jobs (s : State) (l : Nat) (b : Byte) : (s.setByte l b).jobs = s.jobs := rfl
@[simp] theorem State.setByte_capkey (s : State) (l : Nat) (b : Byte) : (s.setByte l b).capkey = s.capkey := rfl
@[simp] theorem State.setByte_devnum (s : State) (l : Nat) (b : Byte) : (s.setByte l b).devnum = s.devnum := rfl
@[simp] theorem State.setByte_nextThread (s : State) (l : Nat) (b : Byte) : (s.setByte l b).nextThread = s.nextThread := rfl
@[simp] theorem State.setByte_ops (s : State) (l : Nat) (b : Byte) : (s.setByte l b).ops = s.ops := rfl
@[simp] theorem State.setByte_marks (s : State) (l : Nat) (b : Byte) : (s.setByte l b).marks = s.marks := rfl
@[simp] theorem State.setByte_waiters (s : State) (l : Nat) (b : Byte) : (s.setByte l b).waiters = s.waiters := rfl
@[simp] theorem State.setByte_waiterSeq (s : State) (l : Nat) (b : Byte) : (s.setByte l b).waiterSeq = s.waiterSeq := rfl
@[simp] theorem State.setByte_gmaxers (s : State) (l : Nat) (b : Byte) : (s.setByte l b).gmaxers = s.gmaxers := rfl
@[simp] theorem State.setByte_subs (s : State) (l : Nat) (b : Byte) : (s.setByte l b).subs = s.subs := rfl
@[simp] theorem State.setByte_saves (s : State) (l : Nat) (b : Byte) : (s.setByte l b).saves = s.saves := rfl
@[simp] theorem State.setByte_island (s : State) (l : Nat) (b : Byte) : (s.setByte l b).island = s.island := rfl
@[simp] theorem State.setByte_out (s : State) (l : Nat) (b : Byte) : (s.setByte l b).out = s.out := rfl
@[simp] theorem State.setByte_life (s : State) (l : Nat) (b : Byte) : (s.setByte l b).life = s.life := rfl
@[simp] theorem State.setByte_flash (s : State) (l : Nat) (b : Byte) : (s.setByte l b).flash = s.flash := rfl
@[simp] theorem State.setByte_badGranules (s : State) (l : Nat) (b : Byte) : (s.setByte l b).badGranules = s.badGranules := rfl
@[simp] theorem State.setByte_hot (s : State) (l : Nat) (b : Byte) : (s.setByte l b).hot = s.hot := rfl
@[simp] theorem State.setByte_temps (s : State) (l : Nat) (b : Byte) : (s.setByte l b).temps = s.temps := rfl
@[simp] theorem State.setByte_derated (s : State) (l : Nat) (b : Byte) : (s.setByte l b).derated = s.derated := rfl
@[simp] theorem State.setByte_spare (s : State) (l : Nat) (b : Byte) : (s.setByte l b).spare = s.spare := rfl
@[simp] theorem State.setByte_deadLinks (s : State) (l : Nat) (b : Byte) : (s.setByte l b).deadLinks = s.deadLinks := rfl

/-! ### setFull -/

@[simp] theorem State.setFull_cycle (s : State) (l : Nat) (b : Bool) : (s.setFull l b).cycle = s.cycle := rfl
@[simp] theorem State.setFull_slots (s : State) (l : Nat) (b : Bool) : (s.setFull l b).slots = s.slots := rfl
@[simp] theorem State.setFull_agenda (s : State) (l : Nat) (b : Bool) : (s.setFull l b).agenda = s.agenda := rfl
@[simp] theorem State.setFull_cur (s : State) (l : Nat) (b : Bool) : (s.setFull l b).cur = s.cur := rfl
@[simp] theorem State.setFull_arg (s : State) (l : Nat) (b : Bool) : (s.setFull l b).arg = s.arg := rfl
@[simp] theorem State.setFull_delays (s : State) (l : Nat) (b : Bool) : (s.setFull l b).delays = s.delays := rfl
@[simp] theorem State.setFull_nextId (s : State) (l : Nat) (b : Bool) : (s.setFull l b).nextId = s.nextId := rfl
@[simp] theorem State.setFull_freeCount (s : State) (l : Nat) (b : Bool) : (s.setFull l b).freeCount = s.freeCount := rfl
@[simp] theorem State.setFull_mem (s : State) (l : Nat) (b : Bool) : (s.setFull l b).mem = s.mem := rfl
@[simp] theorem State.setFull_vague (s : State) (l : Nat) (b : Bool) : (s.setFull l b).vague = s.vague := rfl
@[simp] theorem State.setFull_poison (s : State) (l : Nat) (b : Bool) : (s.setFull l b).poison = s.poison := rfl
@[simp] theorem State.setFull_ctxs (s : State) (l : Nat) (b : Bool) : (s.setFull l b).ctxs = s.ctxs := rfl
@[simp] theorem State.setFull_cores (s : State) (l : Nat) (b : Bool) : (s.setFull l b).cores = s.cores := rfl
@[simp] theorem State.setFull_clusters (s : State) (l : Nat) (b : Bool) : (s.setFull l b).clusters = s.clusters := rfl
@[simp] theorem State.setFull_dies (s : State) (l : Nat) (b : Bool) : (s.setFull l b).dies = s.dies := rfl
@[simp] theorem State.setFull_jobs (s : State) (l : Nat) (b : Bool) : (s.setFull l b).jobs = s.jobs := rfl
@[simp] theorem State.setFull_capkey (s : State) (l : Nat) (b : Bool) : (s.setFull l b).capkey = s.capkey := rfl
@[simp] theorem State.setFull_devnum (s : State) (l : Nat) (b : Bool) : (s.setFull l b).devnum = s.devnum := rfl
@[simp] theorem State.setFull_nextThread (s : State) (l : Nat) (b : Bool) : (s.setFull l b).nextThread = s.nextThread := rfl
@[simp] theorem State.setFull_ops (s : State) (l : Nat) (b : Bool) : (s.setFull l b).ops = s.ops := rfl
@[simp] theorem State.setFull_marks (s : State) (l : Nat) (b : Bool) : (s.setFull l b).marks = s.marks := rfl
@[simp] theorem State.setFull_waiters (s : State) (l : Nat) (b : Bool) : (s.setFull l b).waiters = s.waiters := rfl
@[simp] theorem State.setFull_waiterSeq (s : State) (l : Nat) (b : Bool) : (s.setFull l b).waiterSeq = s.waiterSeq := rfl
@[simp] theorem State.setFull_gmaxers (s : State) (l : Nat) (b : Bool) : (s.setFull l b).gmaxers = s.gmaxers := rfl
@[simp] theorem State.setFull_subs (s : State) (l : Nat) (b : Bool) : (s.setFull l b).subs = s.subs := rfl
@[simp] theorem State.setFull_saves (s : State) (l : Nat) (b : Bool) : (s.setFull l b).saves = s.saves := rfl
@[simp] theorem State.setFull_island (s : State) (l : Nat) (b : Bool) : (s.setFull l b).island = s.island := rfl
@[simp] theorem State.setFull_out (s : State) (l : Nat) (b : Bool) : (s.setFull l b).out = s.out := rfl
@[simp] theorem State.setFull_life (s : State) (l : Nat) (b : Bool) : (s.setFull l b).life = s.life := rfl
@[simp] theorem State.setFull_flash (s : State) (l : Nat) (b : Bool) : (s.setFull l b).flash = s.flash := rfl
@[simp] theorem State.setFull_badGranules (s : State) (l : Nat) (b : Bool) : (s.setFull l b).badGranules = s.badGranules := rfl
@[simp] theorem State.setFull_hot (s : State) (l : Nat) (b : Bool) : (s.setFull l b).hot = s.hot := rfl
@[simp] theorem State.setFull_temps (s : State) (l : Nat) (b : Bool) : (s.setFull l b).temps = s.temps := rfl
@[simp] theorem State.setFull_derated (s : State) (l : Nat) (b : Bool) : (s.setFull l b).derated = s.derated := rfl
@[simp] theorem State.setFull_spare (s : State) (l : Nat) (b : Bool) : (s.setFull l b).spare = s.spare := rfl
@[simp] theorem State.setFull_deadLinks (s : State) (l : Nat) (b : Bool) : (s.setFull l b).deadLinks = s.deadLinks := rfl

/-! ### addOp -/

@[simp] theorem State.addOp_cycle (s : State) (o : Op) : (s.addOp o).cycle = s.cycle := rfl
@[simp] theorem State.addOp_slots (s : State) (o : Op) : (s.addOp o).slots = s.slots := rfl
@[simp] theorem State.addOp_agenda (s : State) (o : Op) : (s.addOp o).agenda = s.agenda := rfl
@[simp] theorem State.addOp_cur (s : State) (o : Op) : (s.addOp o).cur = s.cur := rfl
@[simp] theorem State.addOp_arg (s : State) (o : Op) : (s.addOp o).arg = s.arg := rfl
@[simp] theorem State.addOp_delays (s : State) (o : Op) : (s.addOp o).delays = s.delays := rfl
@[simp] theorem State.addOp_freeCount (s : State) (o : Op) : (s.addOp o).freeCount = s.freeCount := rfl
@[simp] theorem State.addOp_mem (s : State) (o : Op) : (s.addOp o).mem = s.mem := rfl
@[simp] theorem State.addOp_empty (s : State) (o : Op) : (s.addOp o).empty = s.empty := rfl
@[simp] theorem State.addOp_vague (s : State) (o : Op) : (s.addOp o).vague = s.vague := rfl
@[simp] theorem State.addOp_poison (s : State) (o : Op) : (s.addOp o).poison = s.poison := rfl
@[simp] theorem State.addOp_ctxs (s : State) (o : Op) : (s.addOp o).ctxs = s.ctxs := rfl
@[simp] theorem State.addOp_cores (s : State) (o : Op) : (s.addOp o).cores = s.cores := rfl
@[simp] theorem State.addOp_clusters (s : State) (o : Op) : (s.addOp o).clusters = s.clusters := rfl
@[simp] theorem State.addOp_dies (s : State) (o : Op) : (s.addOp o).dies = s.dies := rfl
@[simp] theorem State.addOp_jobs (s : State) (o : Op) : (s.addOp o).jobs = s.jobs := rfl
@[simp] theorem State.addOp_capkey (s : State) (o : Op) : (s.addOp o).capkey = s.capkey := rfl
@[simp] theorem State.addOp_devnum (s : State) (o : Op) : (s.addOp o).devnum = s.devnum := rfl
@[simp] theorem State.addOp_nextThread (s : State) (o : Op) : (s.addOp o).nextThread = s.nextThread := rfl
@[simp] theorem State.addOp_marks (s : State) (o : Op) : (s.addOp o).marks = s.marks := rfl
@[simp] theorem State.addOp_waiters (s : State) (o : Op) : (s.addOp o).waiters = s.waiters := rfl
@[simp] theorem State.addOp_waiterSeq (s : State) (o : Op) : (s.addOp o).waiterSeq = s.waiterSeq := rfl
@[simp] theorem State.addOp_gmaxers (s : State) (o : Op) : (s.addOp o).gmaxers = s.gmaxers := rfl
@[simp] theorem State.addOp_subs (s : State) (o : Op) : (s.addOp o).subs = s.subs := rfl
@[simp] theorem State.addOp_saves (s : State) (o : Op) : (s.addOp o).saves = s.saves := rfl
@[simp] theorem State.addOp_island (s : State) (o : Op) : (s.addOp o).island = s.island := rfl
@[simp] theorem State.addOp_out (s : State) (o : Op) : (s.addOp o).out = s.out := rfl
@[simp] theorem State.addOp_life (s : State) (o : Op) : (s.addOp o).life = s.life := rfl
@[simp] theorem State.addOp_flash (s : State) (o : Op) : (s.addOp o).flash = s.flash := rfl
@[simp] theorem State.addOp_badGranules (s : State) (o : Op) : (s.addOp o).badGranules = s.badGranules := rfl
@[simp] theorem State.addOp_hot (s : State) (o : Op) : (s.addOp o).hot = s.hot := rfl
@[simp] theorem State.addOp_temps (s : State) (o : Op) : (s.addOp o).temps = s.temps := rfl
@[simp] theorem State.addOp_derated (s : State) (o : Op) : (s.addOp o).derated = s.derated := rfl
@[simp] theorem State.addOp_spare (s : State) (o : Op) : (s.addOp o).spare = s.spare := rfl
@[simp] theorem State.addOp_deadLinks (s : State) (o : Op) : (s.addOp o).deadLinks = s.deadLinks := rfl

/-! ### setOp -/

@[simp] theorem State.setOp_cycle (s : State) (o : Op) : (s.setOp o).cycle = s.cycle := rfl
@[simp] theorem State.setOp_slots (s : State) (o : Op) : (s.setOp o).slots = s.slots := rfl
@[simp] theorem State.setOp_agenda (s : State) (o : Op) : (s.setOp o).agenda = s.agenda := rfl
@[simp] theorem State.setOp_cur (s : State) (o : Op) : (s.setOp o).cur = s.cur := rfl
@[simp] theorem State.setOp_arg (s : State) (o : Op) : (s.setOp o).arg = s.arg := rfl
@[simp] theorem State.setOp_delays (s : State) (o : Op) : (s.setOp o).delays = s.delays := rfl
@[simp] theorem State.setOp_nextId (s : State) (o : Op) : (s.setOp o).nextId = s.nextId := rfl
@[simp] theorem State.setOp_freeCount (s : State) (o : Op) : (s.setOp o).freeCount = s.freeCount := rfl
@[simp] theorem State.setOp_mem (s : State) (o : Op) : (s.setOp o).mem = s.mem := rfl
@[simp] theorem State.setOp_empty (s : State) (o : Op) : (s.setOp o).empty = s.empty := rfl
@[simp] theorem State.setOp_vague (s : State) (o : Op) : (s.setOp o).vague = s.vague := rfl
@[simp] theorem State.setOp_poison (s : State) (o : Op) : (s.setOp o).poison = s.poison := rfl
@[simp] theorem State.setOp_ctxs (s : State) (o : Op) : (s.setOp o).ctxs = s.ctxs := rfl
@[simp] theorem State.setOp_cores (s : State) (o : Op) : (s.setOp o).cores = s.cores := rfl
@[simp] theorem State.setOp_clusters (s : State) (o : Op) : (s.setOp o).clusters = s.clusters := rfl
@[simp] theorem State.setOp_dies (s : State) (o : Op) : (s.setOp o).dies = s.dies := rfl
@[simp] theorem State.setOp_jobs (s : State) (o : Op) : (s.setOp o).jobs = s.jobs := rfl
@[simp] theorem State.setOp_capkey (s : State) (o : Op) : (s.setOp o).capkey = s.capkey := rfl
@[simp] theorem State.setOp_devnum (s : State) (o : Op) : (s.setOp o).devnum = s.devnum := rfl
@[simp] theorem State.setOp_nextThread (s : State) (o : Op) : (s.setOp o).nextThread = s.nextThread := rfl
@[simp] theorem State.setOp_marks (s : State) (o : Op) : (s.setOp o).marks = s.marks := rfl
@[simp] theorem State.setOp_waiters (s : State) (o : Op) : (s.setOp o).waiters = s.waiters := rfl
@[simp] theorem State.setOp_waiterSeq (s : State) (o : Op) : (s.setOp o).waiterSeq = s.waiterSeq := rfl
@[simp] theorem State.setOp_gmaxers (s : State) (o : Op) : (s.setOp o).gmaxers = s.gmaxers := rfl
@[simp] theorem State.setOp_subs (s : State) (o : Op) : (s.setOp o).subs = s.subs := rfl
@[simp] theorem State.setOp_saves (s : State) (o : Op) : (s.setOp o).saves = s.saves := rfl
@[simp] theorem State.setOp_island (s : State) (o : Op) : (s.setOp o).island = s.island := rfl
@[simp] theorem State.setOp_out (s : State) (o : Op) : (s.setOp o).out = s.out := rfl
@[simp] theorem State.setOp_life (s : State) (o : Op) : (s.setOp o).life = s.life := rfl
@[simp] theorem State.setOp_flash (s : State) (o : Op) : (s.setOp o).flash = s.flash := rfl
@[simp] theorem State.setOp_badGranules (s : State) (o : Op) : (s.setOp o).badGranules = s.badGranules := rfl
@[simp] theorem State.setOp_hot (s : State) (o : Op) : (s.setOp o).hot = s.hot := rfl
@[simp] theorem State.setOp_temps (s : State) (o : Op) : (s.setOp o).temps = s.temps := rfl
@[simp] theorem State.setOp_derated (s : State) (o : Op) : (s.setOp o).derated = s.derated := rfl
@[simp] theorem State.setOp_spare (s : State) (o : Op) : (s.setOp o).spare = s.spare := rfl
@[simp] theorem State.setOp_deadLinks (s : State) (o : Op) : (s.setOp o).deadLinks = s.deadLinks := rfl

/-! ### dropOp -/

@[simp] theorem State.dropOp_cycle (s : State) (id : Nat) : (s.dropOp id).cycle = s.cycle := rfl
@[simp] theorem State.dropOp_slots (s : State) (id : Nat) : (s.dropOp id).slots = s.slots := rfl
@[simp] theorem State.dropOp_agenda (s : State) (id : Nat) : (s.dropOp id).agenda = s.agenda := rfl
@[simp] theorem State.dropOp_cur (s : State) (id : Nat) : (s.dropOp id).cur = s.cur := rfl
@[simp] theorem State.dropOp_arg (s : State) (id : Nat) : (s.dropOp id).arg = s.arg := rfl
@[simp] theorem State.dropOp_delays (s : State) (id : Nat) : (s.dropOp id).delays = s.delays := rfl
@[simp] theorem State.dropOp_nextId (s : State) (id : Nat) : (s.dropOp id).nextId = s.nextId := rfl
@[simp] theorem State.dropOp_freeCount (s : State) (id : Nat) : (s.dropOp id).freeCount = s.freeCount := rfl
@[simp] theorem State.dropOp_mem (s : State) (id : Nat) : (s.dropOp id).mem = s.mem := rfl
@[simp] theorem State.dropOp_empty (s : State) (id : Nat) : (s.dropOp id).empty = s.empty := rfl
@[simp] theorem State.dropOp_vague (s : State) (id : Nat) : (s.dropOp id).vague = s.vague := rfl
@[simp] theorem State.dropOp_poison (s : State) (id : Nat) : (s.dropOp id).poison = s.poison := rfl
@[simp] theorem State.dropOp_ctxs (s : State) (id : Nat) : (s.dropOp id).ctxs = s.ctxs := rfl
@[simp] theorem State.dropOp_cores (s : State) (id : Nat) : (s.dropOp id).cores = s.cores := rfl
@[simp] theorem State.dropOp_clusters (s : State) (id : Nat) : (s.dropOp id).clusters = s.clusters := rfl
@[simp] theorem State.dropOp_dies (s : State) (id : Nat) : (s.dropOp id).dies = s.dies := rfl
@[simp] theorem State.dropOp_jobs (s : State) (id : Nat) : (s.dropOp id).jobs = s.jobs := rfl
@[simp] theorem State.dropOp_capkey (s : State) (id : Nat) : (s.dropOp id).capkey = s.capkey := rfl
@[simp] theorem State.dropOp_devnum (s : State) (id : Nat) : (s.dropOp id).devnum = s.devnum := rfl
@[simp] theorem State.dropOp_nextThread (s : State) (id : Nat) : (s.dropOp id).nextThread = s.nextThread := rfl
@[simp] theorem State.dropOp_marks (s : State) (id : Nat) : (s.dropOp id).marks = s.marks := rfl
@[simp] theorem State.dropOp_waiters (s : State) (id : Nat) : (s.dropOp id).waiters = s.waiters := rfl
@[simp] theorem State.dropOp_waiterSeq (s : State) (id : Nat) : (s.dropOp id).waiterSeq = s.waiterSeq := rfl
@[simp] theorem State.dropOp_gmaxers (s : State) (id : Nat) : (s.dropOp id).gmaxers = s.gmaxers := rfl
@[simp] theorem State.dropOp_subs (s : State) (id : Nat) : (s.dropOp id).subs = s.subs := rfl
@[simp] theorem State.dropOp_saves (s : State) (id : Nat) : (s.dropOp id).saves = s.saves := rfl
@[simp] theorem State.dropOp_island (s : State) (id : Nat) : (s.dropOp id).island = s.island := rfl
@[simp] theorem State.dropOp_out (s : State) (id : Nat) : (s.dropOp id).out = s.out := rfl
@[simp] theorem State.dropOp_life (s : State) (id : Nat) : (s.dropOp id).life = s.life := rfl
@[simp] theorem State.dropOp_flash (s : State) (id : Nat) : (s.dropOp id).flash = s.flash := rfl
@[simp] theorem State.dropOp_badGranules (s : State) (id : Nat) : (s.dropOp id).badGranules = s.badGranules := rfl
@[simp] theorem State.dropOp_hot (s : State) (id : Nat) : (s.dropOp id).hot = s.hot := rfl
@[simp] theorem State.dropOp_temps (s : State) (id : Nat) : (s.dropOp id).temps = s.temps := rfl
@[simp] theorem State.dropOp_derated (s : State) (id : Nat) : (s.dropOp id).derated = s.derated := rfl
@[simp] theorem State.dropOp_spare (s : State) (id : Nat) : (s.dropOp id).spare = s.spare := rfl
@[simp] theorem State.dropOp_deadLinks (s : State) (id : Nat) : (s.dropOp id).deadLinks = s.deadLinks := rfl

/-! ### retire -/

@[simp] theorem State.retire_cycle (s : State) (c : CtxId) (f : Ctx → Ctx) : (s.retire c f).cycle = s.cycle := rfl
@[simp] theorem State.retire_slots (s : State) (c : CtxId) (f : Ctx → Ctx) : (s.retire c f).slots = s.slots := rfl
@[simp] theorem State.retire_agenda (s : State) (c : CtxId) (f : Ctx → Ctx) : (s.retire c f).agenda = s.agenda := rfl
@[simp] theorem State.retire_cur (s : State) (c : CtxId) (f : Ctx → Ctx) : (s.retire c f).cur = s.cur := rfl
@[simp] theorem State.retire_arg (s : State) (c : CtxId) (f : Ctx → Ctx) : (s.retire c f).arg = s.arg := rfl
@[simp] theorem State.retire_delays (s : State) (c : CtxId) (f : Ctx → Ctx) : (s.retire c f).delays = s.delays := rfl
@[simp] theorem State.retire_nextId (s : State) (c : CtxId) (f : Ctx → Ctx) : (s.retire c f).nextId = s.nextId := rfl
@[simp] theorem State.retire_freeCount (s : State) (c : CtxId) (f : Ctx → Ctx) : (s.retire c f).freeCount = s.freeCount := rfl
@[simp] theorem State.retire_mem (s : State) (c : CtxId) (f : Ctx → Ctx) : (s.retire c f).mem = s.mem := rfl
@[simp] theorem State.retire_empty (s : State) (c : CtxId) (f : Ctx → Ctx) : (s.retire c f).empty = s.empty := rfl
@[simp] theorem State.retire_vague (s : State) (c : CtxId) (f : Ctx → Ctx) : (s.retire c f).vague = s.vague := rfl
@[simp] theorem State.retire_poison (s : State) (c : CtxId) (f : Ctx → Ctx) : (s.retire c f).poison = s.poison := rfl
@[simp] theorem State.retire_cores (s : State) (c : CtxId) (f : Ctx → Ctx) : (s.retire c f).cores = s.cores := rfl
@[simp] theorem State.retire_clusters (s : State) (c : CtxId) (f : Ctx → Ctx) : (s.retire c f).clusters = s.clusters := rfl
@[simp] theorem State.retire_dies (s : State) (c : CtxId) (f : Ctx → Ctx) : (s.retire c f).dies = s.dies := rfl
@[simp] theorem State.retire_jobs (s : State) (c : CtxId) (f : Ctx → Ctx) : (s.retire c f).jobs = s.jobs := rfl
@[simp] theorem State.retire_capkey (s : State) (c : CtxId) (f : Ctx → Ctx) : (s.retire c f).capkey = s.capkey := rfl
@[simp] theorem State.retire_devnum (s : State) (c : CtxId) (f : Ctx → Ctx) : (s.retire c f).devnum = s.devnum := rfl
@[simp] theorem State.retire_nextThread (s : State) (c : CtxId) (f : Ctx → Ctx) : (s.retire c f).nextThread = s.nextThread := rfl
@[simp] theorem State.retire_ops (s : State) (c : CtxId) (f : Ctx → Ctx) : (s.retire c f).ops = s.ops := rfl
@[simp] theorem State.retire_marks (s : State) (c : CtxId) (f : Ctx → Ctx) : (s.retire c f).marks = s.marks := rfl
@[simp] theorem State.retire_waiters (s : State) (c : CtxId) (f : Ctx → Ctx) : (s.retire c f).waiters = s.waiters := rfl
@[simp] theorem State.retire_waiterSeq (s : State) (c : CtxId) (f : Ctx → Ctx) : (s.retire c f).waiterSeq = s.waiterSeq := rfl
@[simp] theorem State.retire_gmaxers (s : State) (c : CtxId) (f : Ctx → Ctx) : (s.retire c f).gmaxers = s.gmaxers := rfl
@[simp] theorem State.retire_subs (s : State) (c : CtxId) (f : Ctx → Ctx) : (s.retire c f).subs = s.subs := rfl
@[simp] theorem State.retire_saves (s : State) (c : CtxId) (f : Ctx → Ctx) : (s.retire c f).saves = s.saves := rfl
@[simp] theorem State.retire_island (s : State) (c : CtxId) (f : Ctx → Ctx) : (s.retire c f).island = s.island := rfl
@[simp] theorem State.retire_out (s : State) (c : CtxId) (f : Ctx → Ctx) : (s.retire c f).out = s.out := rfl
@[simp] theorem State.retire_life (s : State) (c : CtxId) (f : Ctx → Ctx) : (s.retire c f).life = s.life := rfl
@[simp] theorem State.retire_flash (s : State) (c : CtxId) (f : Ctx → Ctx) : (s.retire c f).flash = s.flash := rfl
@[simp] theorem State.retire_badGranules (s : State) (c : CtxId) (f : Ctx → Ctx) : (s.retire c f).badGranules = s.badGranules := rfl
@[simp] theorem State.retire_hot (s : State) (c : CtxId) (f : Ctx → Ctx) : (s.retire c f).hot = s.hot := rfl
@[simp] theorem State.retire_temps (s : State) (c : CtxId) (f : Ctx → Ctx) : (s.retire c f).temps = s.temps := rfl
@[simp] theorem State.retire_derated (s : State) (c : CtxId) (f : Ctx → Ctx) : (s.retire c f).derated = s.derated := rfl
@[simp] theorem State.retire_spare (s : State) (c : CtxId) (f : Ctx → Ctx) : (s.retire c f).spare = s.spare := rfl
@[simp] theorem State.retire_peerLog (s : State) (c : CtxId) (f : Ctx → Ctx) : (s.retire c f).peerLog = s.peerLog := rfl
@[simp] theorem State.retire_peerArrivals (s : State) (c : CtxId) (f : Ctx → Ctx) : (s.retire c f).peerArrivals = s.peerArrivals := rfl
@[simp] theorem State.retire_retrained (s : State) (c : CtxId) (f : Ctx → Ctx) : (s.retire c f).retrained = s.retrained := rfl
@[simp] theorem State.retire_deadLinks (s : State) (c : CtxId) (f : Ctx → Ctx) : (s.retire c f).deadLinks = s.deadLinks := rfl

/-! ### What an update sets -/

@[simp] theorem State.setCtx_peerLog (s : State) (c : CtxId) (x : Ctx) : (s.setCtx c x).peerLog = s.peerLog := rfl
@[simp] theorem State.setCtx_peerArrivals (s : State) (c : CtxId) (x : Ctx) : (s.setCtx c x).peerArrivals = s.peerArrivals := rfl
@[simp] theorem State.setCtx_retrained (s : State) (c : CtxId) (x : Ctx) : (s.setCtx c x).retrained = s.retrained := rfl
@[simp] theorem State.setCtx_ctxs (s : State) (c : CtxId) (x : Ctx) :
    (s.setCtx c x).ctxs = mset (Ctx.init c.core c.k) s.ctxs (ctxKey c) x := rfl
@[simp] theorem State.setCore_peerLog (s : State) (c : Nat) (x : Core) : (s.setCore c x).peerLog = s.peerLog := rfl
@[simp] theorem State.setCore_peerArrivals (s : State) (c : Nat) (x : Core) : (s.setCore c x).peerArrivals = s.peerArrivals := rfl
@[simp] theorem State.setCore_retrained (s : State) (c : Nat) (x : Core) : (s.setCore c x).retrained = s.retrained := rfl
@[simp] theorem State.setCore_cores (s : State) (c : Nat) (x : Core) : (s.setCore c x).cores = mset (Core.init c) s.cores c x := rfl
@[simp] theorem State.setCluster_peerLog (s : State) (k : Nat) (x : Cluster) : (s.setCluster k x).peerLog = s.peerLog := rfl
@[simp] theorem State.setCluster_peerArrivals (s : State) (k : Nat) (x : Cluster) : (s.setCluster k x).peerArrivals = s.peerArrivals := rfl
@[simp] theorem State.setCluster_retrained (s : State) (k : Nat) (x : Cluster) : (s.setCluster k x).retrained = s.retrained := rfl
@[simp] theorem State.setCluster_clusters (s : State) (k : Nat) (x : Cluster) :
    (s.setCluster k x).clusters = mset Cluster.init s.clusters k x := rfl
@[simp] theorem State.setJob_peerLog (s : State) (n : Nat) (x : Job) : (s.setJob n x).peerLog = s.peerLog := rfl
@[simp] theorem State.setJob_peerArrivals (s : State) (n : Nat) (x : Job) : (s.setJob n x).peerArrivals = s.peerArrivals := rfl
@[simp] theorem State.setJob_retrained (s : State) (n : Nat) (x : Job) : (s.setJob n x).retrained = s.retrained := rfl
@[simp] theorem State.setJob_jobs (s : State) (n : Nat) (x : Job) : (s.setJob n x).jobs = mset (Job.init n) s.jobs n x := rfl
@[simp] theorem State.setDie_peerLog (s : State) (d : Nat) (x : DieState) : (s.setDie d x).peerLog = s.peerLog := rfl
@[simp] theorem State.setDie_peerArrivals (s : State) (d : Nat) (x : DieState) : (s.setDie d x).peerArrivals = s.peerArrivals := rfl
@[simp] theorem State.setDie_retrained (s : State) (d : Nat) (x : DieState) : (s.setDie d x).retrained = s.retrained := rfl
@[simp] theorem State.setDie_dies (s : State) (d : Nat) (x : DieState) : (s.setDie d x).dies = mset .run s.dies d x := rfl
@[simp] theorem State.later_peerLog (s : State) (dt : Nat) (p : Option Path) (i : Instr) (a : Arg) : (s.later dt p i a).peerLog = s.peerLog := rfl
@[simp] theorem State.later_peerArrivals (s : State) (dt : Nat) (p : Option Path) (i : Instr) (a : Arg) : (s.later dt p i a).peerArrivals = s.peerArrivals := rfl
@[simp] theorem State.later_retrained (s : State) (dt : Nat) (p : Option Path) (i : Instr) (a : Arg) : (s.later dt p i a).retrained = s.retrained := rfl
@[simp] theorem State.later_agenda (s : State) (dt : Nat) (p : Option Path) (i : Instr) (a : Arg) :
    (s.later dt p i a).agenda = s.agenda ++ [⟨s.cycle + dt, p, i, a⟩] := rfl
@[simp] theorem State.again_peerLog (s : State) (dt : Nat) (p : Option Path) (i : Instr) (a : Arg) : (s.again dt p i a).peerLog = s.peerLog := rfl
@[simp] theorem State.again_peerArrivals (s : State) (dt : Nat) (p : Option Path) (i : Instr) (a : Arg) : (s.again dt p i a).peerArrivals = s.peerArrivals := rfl
@[simp] theorem State.again_retrained (s : State) (dt : Nat) (p : Option Path) (i : Instr) (a : Arg) : (s.again dt p i a).retrained = s.retrained := rfl
@[simp] theorem State.again_agenda (s : State) (dt : Nat) (p : Option Path) (i : Instr) (a : Arg) :
    (s.again dt p i a).agenda = ⟨s.cycle + dt, p, i, a⟩ :: s.agenda := rfl
@[simp] theorem State.setByte_peerLog (s : State) (l : Nat) (b : Byte) : (s.setByte l b).peerLog = s.peerLog := rfl
@[simp] theorem State.setByte_peerArrivals (s : State) (l : Nat) (b : Byte) : (s.setByte l b).peerArrivals = s.peerArrivals := rfl
@[simp] theorem State.setByte_retrained (s : State) (l : Nat) (b : Byte) : (s.setByte l b).retrained = s.retrained := rfl
@[simp] theorem State.setByte_mem (s : State) (l : Nat) (b : Byte) : (s.setByte l b).mem = mset 0 s.mem l b := rfl
@[simp] theorem State.setFull_peerLog (s : State) (l : Nat) (b : Bool) : (s.setFull l b).peerLog = s.peerLog := rfl
@[simp] theorem State.setFull_peerArrivals (s : State) (l : Nat) (b : Bool) : (s.setFull l b).peerArrivals = s.peerArrivals := rfl
@[simp] theorem State.setFull_retrained (s : State) (l : Nat) (b : Bool) : (s.setFull l b).retrained = s.retrained := rfl
@[simp] theorem State.setFull_empty (s : State) (l : Nat) (b : Bool) : (s.setFull l b).empty = nset s.empty (l / 8) (!b) := rfl
@[simp] theorem State.addOp_ops (s : State) (o : Op) : (s.addOp o).ops = s.ops ++ [{ o with id := s.nextId }] := rfl
@[simp] theorem State.addOp_peerLog (s : State) (o : Op) : (s.addOp o).peerLog = s.peerLog := rfl
@[simp] theorem State.addOp_peerArrivals (s : State) (o : Op) : (s.addOp o).peerArrivals = s.peerArrivals := rfl
@[simp] theorem State.addOp_retrained (s : State) (o : Op) : (s.addOp o).retrained = s.retrained := rfl
@[simp] theorem State.addOp_nextId (s : State) (o : Op) : (s.addOp o).nextId = s.nextId + 1 := rfl
@[simp] theorem State.setOp_peerLog (s : State) (o : Op) : (s.setOp o).peerLog = s.peerLog := rfl
@[simp] theorem State.setOp_peerArrivals (s : State) (o : Op) : (s.setOp o).peerArrivals = s.peerArrivals := rfl
@[simp] theorem State.setOp_retrained (s : State) (o : Op) : (s.setOp o).retrained = s.retrained := rfl
@[simp] theorem State.setOp_ops (s : State) (o : Op) : (s.setOp o).ops = s.ops.map fun p => if p.id = o.id then o else p := rfl
@[simp] theorem State.dropOp_peerLog (s : State) (id : Nat) : (s.dropOp id).peerLog = s.peerLog := rfl
@[simp] theorem State.dropOp_peerArrivals (s : State) (id : Nat) : (s.dropOp id).peerArrivals = s.peerArrivals := rfl
@[simp] theorem State.dropOp_retrained (s : State) (id : Nat) : (s.dropOp id).retrained = s.retrained := rfl
@[simp] theorem State.dropOp_ops (s : State) (id : Nat) : (s.dropOp id).ops = s.ops.filter fun o => o.id != id := rfl

/-! ### Reading by index after an update -/

@[simp] theorem State.setCtx_core (s : State) (c : CtxId) (x : Ctx) (d : Nat) : (s.setCtx c x).core d = s.core d := rfl
@[simp] theorem State.setCtx_cluster (s : State) (c : CtxId) (x : Ctx) (d : Nat) : (s.setCtx c x).cluster d = s.cluster d := rfl
@[simp] theorem State.setCtx_job (s : State) (c : CtxId) (x : Ctx) (d : Nat) : (s.setCtx c x).job d = s.job d := rfl
@[simp] theorem State.setCtx_die (s : State) (c : CtxId) (x : Ctx) (d : Nat) : (s.setCtx c x).die d = s.die d := rfl
@[simp] theorem State.setCtx_byte (s : State) (c : CtxId) (x : Ctx) (d : Nat) : (s.setCtx c x).byte d = s.byte d := rfl
@[simp] theorem State.setCtx_jobOf (s : State) (c : CtxId) (x : Ctx) (d : Nat) : (s.setCtx c x).jobOf d = s.jobOf d := rfl
@[simp] theorem State.setCtx_full (s : State) (c : CtxId) (x : Ctx) (d : Nat) : (s.setCtx c x).full d = s.full d := rfl
@[simp] theorem State.setCore_ctx (s : State) (c : Nat) (x : Core) (d : CtxId) : (s.setCore c x).ctx d = s.ctx d := rfl
@[simp] theorem State.setCore_cluster (s : State) (c : Nat) (x : Core) (d : Nat) : (s.setCore c x).cluster d = s.cluster d := rfl
@[simp] theorem State.setCore_job (s : State) (c : Nat) (x : Core) (d : Nat) : (s.setCore c x).job d = s.job d := rfl
@[simp] theorem State.setCore_die (s : State) (c : Nat) (x : Core) (d : Nat) : (s.setCore c x).die d = s.die d := rfl
@[simp] theorem State.setCore_byte (s : State) (c : Nat) (x : Core) (d : Nat) : (s.setCore c x).byte d = s.byte d := rfl
@[simp] theorem State.setCore_full (s : State) (c : Nat) (x : Core) (d : Nat) : (s.setCore c x).full d = s.full d := rfl
@[simp] theorem State.setCluster_ctx (s : State) (k : Nat) (x : Cluster) (d : CtxId) : (s.setCluster k x).ctx d = s.ctx d := rfl
@[simp] theorem State.setCluster_core (s : State) (k : Nat) (x : Cluster) (d : Nat) : (s.setCluster k x).core d = s.core d := rfl
@[simp] theorem State.setCluster_job (s : State) (k : Nat) (x : Cluster) (d : Nat) : (s.setCluster k x).job d = s.job d := rfl
@[simp] theorem State.setCluster_die (s : State) (k : Nat) (x : Cluster) (d : Nat) : (s.setCluster k x).die d = s.die d := rfl
@[simp] theorem State.setCluster_byte (s : State) (k : Nat) (x : Cluster) (d : Nat) : (s.setCluster k x).byte d = s.byte d := rfl
@[simp] theorem State.setCluster_jobOf (s : State) (k : Nat) (x : Cluster) (d : Nat) : (s.setCluster k x).jobOf d = s.jobOf d := rfl
@[simp] theorem State.setCluster_full (s : State) (k : Nat) (x : Cluster) (d : Nat) : (s.setCluster k x).full d = s.full d := rfl
@[simp] theorem State.setJob_ctx (s : State) (n : Nat) (x : Job) (d : CtxId) : (s.setJob n x).ctx d = s.ctx d := rfl
@[simp] theorem State.setJob_core (s : State) (n : Nat) (x : Job) (d : Nat) : (s.setJob n x).core d = s.core d := rfl
@[simp] theorem State.setJob_cluster (s : State) (n : Nat) (x : Job) (d : Nat) : (s.setJob n x).cluster d = s.cluster d := rfl
@[simp] theorem State.setJob_die (s : State) (n : Nat) (x : Job) (d : Nat) : (s.setJob n x).die d = s.die d := rfl
@[simp] theorem State.setJob_byte (s : State) (n : Nat) (x : Job) (d : Nat) : (s.setJob n x).byte d = s.byte d := rfl
@[simp] theorem State.setJob_jobOf (s : State) (n : Nat) (x : Job) (d : Nat) : (s.setJob n x).jobOf d = s.jobOf d := rfl
@[simp] theorem State.setJob_full (s : State) (n : Nat) (x : Job) (d : Nat) : (s.setJob n x).full d = s.full d := rfl
@[simp] theorem State.setDie_ctx (s : State) (e : Nat) (x : DieState) (d : CtxId) : (s.setDie e x).ctx d = s.ctx d := rfl
@[simp] theorem State.setDie_core (s : State) (e : Nat) (x : DieState) (d : Nat) : (s.setDie e x).core d = s.core d := rfl
@[simp] theorem State.setDie_cluster (s : State) (e : Nat) (x : DieState) (d : Nat) : (s.setDie e x).cluster d = s.cluster d := rfl
@[simp] theorem State.setDie_job (s : State) (e : Nat) (x : DieState) (d : Nat) : (s.setDie e x).job d = s.job d := rfl
@[simp] theorem State.setDie_byte (s : State) (e : Nat) (x : DieState) (d : Nat) : (s.setDie e x).byte d = s.byte d := rfl
@[simp] theorem State.setDie_jobOf (s : State) (e : Nat) (x : DieState) (d : Nat) : (s.setDie e x).jobOf d = s.jobOf d := rfl
@[simp] theorem State.setDie_full (s : State) (e : Nat) (x : DieState) (d : Nat) : (s.setDie e x).full d = s.full d := rfl
@[simp] theorem State.later_ctx (s : State) (dt : Nat) (p : Option Path) (i : Instr) (a : Arg) (d : CtxId) : (s.later dt p i a).ctx d = s.ctx d := rfl
@[simp] theorem State.later_core (s : State) (dt : Nat) (p : Option Path) (i : Instr) (a : Arg) (d : Nat) : (s.later dt p i a).core d = s.core d := rfl
@[simp] theorem State.later_cluster (s : State) (dt : Nat) (p : Option Path) (i : Instr) (a : Arg) (d : Nat) : (s.later dt p i a).cluster d = s.cluster d := rfl
@[simp] theorem State.later_job (s : State) (dt : Nat) (p : Option Path) (i : Instr) (a : Arg) (d : Nat) : (s.later dt p i a).job d = s.job d := rfl
@[simp] theorem State.later_die (s : State) (dt : Nat) (p : Option Path) (i : Instr) (a : Arg) (d : Nat) : (s.later dt p i a).die d = s.die d := rfl
@[simp] theorem State.later_byte (s : State) (dt : Nat) (p : Option Path) (i : Instr) (a : Arg) (d : Nat) : (s.later dt p i a).byte d = s.byte d := rfl
@[simp] theorem State.later_jobOf (s : State) (dt : Nat) (p : Option Path) (i : Instr) (a : Arg) (d : Nat) : (s.later dt p i a).jobOf d = s.jobOf d := rfl
@[simp] theorem State.later_full (s : State) (dt : Nat) (p : Option Path) (i : Instr) (a : Arg) (d : Nat) : (s.later dt p i a).full d = s.full d := rfl
@[simp] theorem State.again_ctx (s : State) (dt : Nat) (p : Option Path) (i : Instr) (a : Arg) (d : CtxId) : (s.again dt p i a).ctx d = s.ctx d := rfl
@[simp] theorem State.again_core (s : State) (dt : Nat) (p : Option Path) (i : Instr) (a : Arg) (d : Nat) : (s.again dt p i a).core d = s.core d := rfl
@[simp] theorem State.again_cluster (s : State) (dt : Nat) (p : Option Path) (i : Instr) (a : Arg) (d : Nat) : (s.again dt p i a).cluster d = s.cluster d := rfl
@[simp] theorem State.again_job (s : State) (dt : Nat) (p : Option Path) (i : Instr) (a : Arg) (d : Nat) : (s.again dt p i a).job d = s.job d := rfl
@[simp] theorem State.again_die (s : State) (dt : Nat) (p : Option Path) (i : Instr) (a : Arg) (d : Nat) : (s.again dt p i a).die d = s.die d := rfl
@[simp] theorem State.again_byte (s : State) (dt : Nat) (p : Option Path) (i : Instr) (a : Arg) (d : Nat) : (s.again dt p i a).byte d = s.byte d := rfl
@[simp] theorem State.again_jobOf (s : State) (dt : Nat) (p : Option Path) (i : Instr) (a : Arg) (d : Nat) : (s.again dt p i a).jobOf d = s.jobOf d := rfl
@[simp] theorem State.again_full (s : State) (dt : Nat) (p : Option Path) (i : Instr) (a : Arg) (d : Nat) : (s.again dt p i a).full d = s.full d := rfl
@[simp] theorem State.setByte_ctx (s : State) (l : Nat) (b : Byte) (d : CtxId) : (s.setByte l b).ctx d = s.ctx d := rfl
@[simp] theorem State.setByte_core (s : State) (l : Nat) (b : Byte) (d : Nat) : (s.setByte l b).core d = s.core d := rfl
@[simp] theorem State.setByte_cluster (s : State) (l : Nat) (b : Byte) (d : Nat) : (s.setByte l b).cluster d = s.cluster d := rfl
@[simp] theorem State.setByte_job (s : State) (l : Nat) (b : Byte) (d : Nat) : (s.setByte l b).job d = s.job d := rfl
@[simp] theorem State.setByte_die (s : State) (l : Nat) (b : Byte) (d : Nat) : (s.setByte l b).die d = s.die d := rfl
@[simp] theorem State.setByte_jobOf (s : State) (l : Nat) (b : Byte) (d : Nat) : (s.setByte l b).jobOf d = s.jobOf d := rfl
@[simp] theorem State.setByte_full (s : State) (l : Nat) (b : Byte) (d : Nat) : (s.setByte l b).full d = s.full d := rfl
@[simp] theorem State.setFull_ctx (s : State) (l : Nat) (b : Bool) (d : CtxId) : (s.setFull l b).ctx d = s.ctx d := rfl
@[simp] theorem State.setFull_core (s : State) (l : Nat) (b : Bool) (d : Nat) : (s.setFull l b).core d = s.core d := rfl
@[simp] theorem State.setFull_cluster (s : State) (l : Nat) (b : Bool) (d : Nat) : (s.setFull l b).cluster d = s.cluster d := rfl
@[simp] theorem State.setFull_job (s : State) (l : Nat) (b : Bool) (d : Nat) : (s.setFull l b).job d = s.job d := rfl
@[simp] theorem State.setFull_die (s : State) (l : Nat) (b : Bool) (d : Nat) : (s.setFull l b).die d = s.die d := rfl
@[simp] theorem State.setFull_byte (s : State) (l : Nat) (b : Bool) (d : Nat) : (s.setFull l b).byte d = s.byte d := rfl
@[simp] theorem State.setFull_jobOf (s : State) (l : Nat) (b : Bool) (d : Nat) : (s.setFull l b).jobOf d = s.jobOf d := rfl
@[simp] theorem State.addOp_ctx (s : State) (o : Op) (d : CtxId) : (s.addOp o).ctx d = s.ctx d := rfl
@[simp] theorem State.addOp_core (s : State) (o : Op) (d : Nat) : (s.addOp o).core d = s.core d := rfl
@[simp] theorem State.addOp_cluster (s : State) (o : Op) (d : Nat) : (s.addOp o).cluster d = s.cluster d := rfl
@[simp] theorem State.addOp_job (s : State) (o : Op) (d : Nat) : (s.addOp o).job d = s.job d := rfl
@[simp] theorem State.addOp_die (s : State) (o : Op) (d : Nat) : (s.addOp o).die d = s.die d := rfl
@[simp] theorem State.addOp_byte (s : State) (o : Op) (d : Nat) : (s.addOp o).byte d = s.byte d := rfl
@[simp] theorem State.addOp_jobOf (s : State) (o : Op) (d : Nat) : (s.addOp o).jobOf d = s.jobOf d := rfl
@[simp] theorem State.addOp_full (s : State) (o : Op) (d : Nat) : (s.addOp o).full d = s.full d := rfl
@[simp] theorem State.setOp_ctx (s : State) (o : Op) (d : CtxId) : (s.setOp o).ctx d = s.ctx d := rfl
@[simp] theorem State.setOp_core (s : State) (o : Op) (d : Nat) : (s.setOp o).core d = s.core d := rfl
@[simp] theorem State.setOp_cluster (s : State) (o : Op) (d : Nat) : (s.setOp o).cluster d = s.cluster d := rfl
@[simp] theorem State.setOp_job (s : State) (o : Op) (d : Nat) : (s.setOp o).job d = s.job d := rfl
@[simp] theorem State.setOp_die (s : State) (o : Op) (d : Nat) : (s.setOp o).die d = s.die d := rfl
@[simp] theorem State.setOp_byte (s : State) (o : Op) (d : Nat) : (s.setOp o).byte d = s.byte d := rfl
@[simp] theorem State.setOp_jobOf (s : State) (o : Op) (d : Nat) : (s.setOp o).jobOf d = s.jobOf d := rfl
@[simp] theorem State.setOp_full (s : State) (o : Op) (d : Nat) : (s.setOp o).full d = s.full d := rfl
@[simp] theorem State.dropOp_ctx (s : State) (id : Nat) (d : CtxId) : (s.dropOp id).ctx d = s.ctx d := rfl
@[simp] theorem State.dropOp_core (s : State) (id : Nat) (d : Nat) : (s.dropOp id).core d = s.core d := rfl
@[simp] theorem State.dropOp_cluster (s : State) (id : Nat) (d : Nat) : (s.dropOp id).cluster d = s.cluster d := rfl
@[simp] theorem State.dropOp_job (s : State) (id : Nat) (d : Nat) : (s.dropOp id).job d = s.job d := rfl
@[simp] theorem State.dropOp_die (s : State) (id : Nat) (d : Nat) : (s.dropOp id).die d = s.die d := rfl
@[simp] theorem State.dropOp_byte (s : State) (id : Nat) (d : Nat) : (s.dropOp id).byte d = s.byte d := rfl
@[simp] theorem State.dropOp_jobOf (s : State) (id : Nat) (d : Nat) : (s.dropOp id).jobOf d = s.jobOf d := rfl
@[simp] theorem State.dropOp_full (s : State) (id : Nat) (d : Nat) : (s.dropOp id).full d = s.full d := rfl
@[simp] theorem State.retire_core (s : State) (c : CtxId) (f : Ctx → Ctx) (d : Nat) : (s.retire c f).core d = s.core d := rfl
@[simp] theorem State.retire_cluster (s : State) (c : CtxId) (f : Ctx → Ctx) (d : Nat) : (s.retire c f).cluster d = s.cluster d := rfl
@[simp] theorem State.retire_job (s : State) (c : CtxId) (f : Ctx → Ctx) (d : Nat) : (s.retire c f).job d = s.job d := rfl
@[simp] theorem State.retire_die (s : State) (c : CtxId) (f : Ctx → Ctx) (d : Nat) : (s.retire c f).die d = s.die d := rfl
@[simp] theorem State.retire_byte (s : State) (c : CtxId) (f : Ctx → Ctx) (d : Nat) : (s.retire c f).byte d = s.byte d := rfl
@[simp] theorem State.retire_jobOf (s : State) (c : CtxId) (f : Ctx → Ctx) (d : Nat) : (s.retire c f).jobOf d = s.jobOf d := rfl
@[simp] theorem State.retire_full (s : State) (c : CtxId) (f : Ctx → Ctx) (d : Nat) : (s.retire c f).full d = s.full d := rfl

/-- A context reads as it was set. -/
theorem State.ctx_setCtx_same {s : State} (h : rising s.ctxs = true) (c : CtxId) (x : Ctx) : (s.setCtx c x).ctx c = x :=
  mget_mset_same _ h _ _

/-- Setting a context leaves every other as it was. -/
theorem State.ctx_setCtx_other (s : State) (c d : CtxId) (x : Ctx) (h : ctxKey d ≠ ctxKey c) : (s.setCtx c x).ctx d = s.ctx d :=
  mget_mset_other _ _ _ _ h

theorem State.core_setCore_same {s : State} (h : rising s.cores = true) (c : Nat) (x : Core) : (s.setCore c x).core c = x :=
  mget_mset_same _ h _ _

theorem State.core_setCore_other (s : State) (c d : Nat) (x : Core) (h : d ≠ c) : (s.setCore c x).core d = s.core d :=
  mget_mset_other _ _ _ _ h

theorem State.cluster_setCluster_same {s : State} (h : rising s.clusters = true) (c : Nat) (x : Cluster) :
    (s.setCluster c x).cluster c = x :=
  mget_mset_same _ h _ _

theorem State.job_setJob_same {s : State} (h : rising s.jobs = true) (n : Nat) (x : Job) : (s.setJob n x).job n = x :=
  mget_mset_same _ h _ _

theorem State.job_setJob_other (s : State) (n m : Nat) (x : Job) (h : m ≠ n) : (s.setJob n x).job m = s.job m :=
  mget_mset_other _ _ _ _ h

theorem State.die_setDie_same {s : State} (h : rising s.dies = true) (n : Nat) (x : DieState) : (s.setDie n x).die n = x :=
  mget_mset_same _ h _ _

/-! ### Contexts -/

@[simp] theorem Ctx.setG_st (x : Ctx) (n : Nat) (w : Word) : (x.setG n w).st = x.st := by unfold Ctx.setG; split <;> rfl
@[simp] theorem Ctx.setG_pc (x : Ctx) (n : Nat) (w : Word) : (x.setG n w).pc = x.pc := by unfold Ctx.setG; split <;> rfl
@[simp] theorem Ctx.setG_v (x : Ctx) (n : Nat) (w : Word) : (x.setG n w).v = x.v := by unfold Ctx.setG; split <;> rfl
@[simp] theorem Ctx.setG_m (x : Ctx) (n : Nat) (w : Word) : (x.setG n w).m = x.m := by unfold Ctx.setG; split <;> rfl
@[simp] theorem Ctx.setG_sr (x : Ctx) (n : Nat) (w : Word) : (x.setG n w).sr = x.sr := by unfold Ctx.setG; split <;> rfl
@[simp] theorem Ctx.setG_pend (x : Ctx) (n : Nat) (w : Word) : (x.setG n w).pend = x.pend := by unfold Ctx.setG; split <;> rfl
@[simp] theorem Ctx.setG_chan (x : Ctx) (n : Nat) (w : Word) : (x.setG n w).chan = x.chan := by unfold Ctx.setG; split <;> rfl
@[simp] theorem Ctx.setG_prio (x : Ctx) (n : Nat) (w : Word) : (x.setG n w).prio = x.prio := by unfold Ctx.setG; split <;> rfl
@[simp] theorem Ctx.setG_port (x : Ctx) (n : Nat) (w : Word) : (x.setG n w).port = x.port := by unfold Ctx.setG; split <;> rfl
@[simp] theorem Ctx.setG_mxsat (x : Ctx) (n : Nat) (w : Word) : (x.setG n w).mxsat = x.mxsat := by unfold Ctx.setG; split <;> rfl
@[simp] theorem Ctx.setG_intrap (x : Ctx) (n : Nat) (w : Word) : (x.setG n w).intrap = x.intrap := by unfold Ctx.setG; split <;> rfl
@[simp] theorem Ctx.setG_trapvec (x : Ctx) (n : Nat) (w : Word) : (x.setG n w).trapvec = x.trapvec := by unfold Ctx.setG; split <;> rfl
@[simp] theorem Ctx.setG_trappc (x : Ctx) (n : Nat) (w : Word) : (x.setG n w).trappc = x.trappc := by unfold Ctx.setG; split <;> rfl
@[simp] theorem Ctx.setG_trapcause (x : Ctx) (n : Nat) (w : Word) : (x.setG n w).trapcause = x.trapcause := by unfold Ctx.setG; split <;> rfl
@[simp] theorem Ctx.setG_trapval (x : Ctx) (n : Nat) (w : Word) : (x.setG n w).trapval = x.trapval := by unfold Ctx.setG; split <;> rfl
@[simp] theorem Ctx.setG_trapinfo (x : Ctx) (n : Nat) (w : Word) : (x.setG n w).trapinfo = x.trapinfo := by unfold Ctx.setG; split <;> rfl
@[simp] theorem Ctx.setG_trapsave (x : Ctx) (n : Nat) (w : Word) : (x.setG n w).trapsave = x.trapsave := by unfold Ctx.setG; split <;> rfl
@[simp] theorem Ctx.setG_fcsr (x : Ctx) (n : Nat) (w : Word) : (x.setG n w).fcsr = x.fcsr := by unfold Ctx.setG; split <;> rfl
@[simp] theorem Ctx.setG_rndseed (x : Ctx) (n : Nat) (w : Word) : (x.setG n w).rndseed = x.rndseed := by unfold Ctx.setG; split <;> rfl
@[simp] theorem Ctx.setG_loopcnt (x : Ctx) (n : Nat) (w : Word) : (x.setG n w).loopcnt = x.loopcnt := by unfold Ctx.setG; split <;> rfl
@[simp] theorem Ctx.setG_loopstart (x : Ctx) (n : Nat) (w : Word) : (x.setG n w).loopstart = x.loopstart := by unfold Ctx.setG; split <;> rfl
@[simp] theorem Ctx.setG_loopend (x : Ctx) (n : Nat) (w : Word) : (x.setG n w).loopend = x.loopend := by unfold Ctx.setG; split <;> rfl
@[simp] theorem Ctx.setG_loopbuf (x : Ctx) (n : Nat) (w : Word) : (x.setG n w).loopbuf = x.loopbuf := by unfold Ctx.setG; split <;> rfl
@[simp] theorem Ctx.setG_feretry (x : Ctx) (n : Nat) (w : Word) : (x.setG n w).feretry = x.feretry := by unfold Ctx.setG; split <;> rfl
@[simp] theorem Ctx.setG_jobsel (x : Ctx) (n : Nat) (w : Word) : (x.setG n w).jobsel = x.jobsel := by unfold Ctx.setG; split <;> rfl
@[simp] theorem Ctx.setG_ctxsel (x : Ctx) (n : Nat) (w : Word) : (x.setG n w).ctxsel = x.ctxsel := by unfold Ctx.setG; split <;> rfl
@[simp] theorem Ctx.setG_trapDue (x : Ctx) (n : Nat) (w : Word) : (x.setG n w).trapDue = x.trapDue := by unfold Ctx.setG; split <;> rfl
@[simp] theorem Ctx.setG_faults (x : Ctx) (n : Nat) (w : Word) : (x.setG n w).faults = x.faults := by unfold Ctx.setG; split <;> rfl
@[simp] theorem Ctx.setG_rewrites (x : Ctx) (n : Nat) (w : Word) : (x.setG n w).rewrites = x.rewrites := by unfold Ctx.setG; split <;> rfl
@[simp] theorem Ctx.setG_refusals (x : Ctx) (n : Nat) (w : Word) : (x.setG n w).refusals = x.refusals := by unfold Ctx.setG; split <;> rfl
@[simp] theorem Ctx.setG_busy (x : Ctx) (n : Nat) (w : Word) : (x.setG n w).busy = x.busy := by unfold Ctx.setG; split <;> rfl
@[simp] theorem Ctx.setG_thread (x : Ctx) (n : Nat) (w : Word) : (x.setG n w).thread = x.thread := by unfold Ctx.setG; split <;> rfl
@[simp] theorem Ctx.setG_region (x : Ctx) (n : Nat) (w : Word) : (x.setG n w).region = x.region := by unfold Ctx.setG; split <;> rfl
@[simp] theorem Ctx.setG_handlerFirst (x : Ctx) (n : Nat) (w : Word) : (x.setG n w).handlerFirst = x.handlerFirst := by unfold Ctx.setG; split <;> rfl
@[simp] theorem Ctx.setG_resumed (x : Ctx) (n : Nat) (w : Word) : (x.setG n w).resumed = x.resumed := by unfold Ctx.setG; split <;> rfl
@[simp] theorem Ctx.setG_since (x : Ctx) (n : Nat) (w : Word) : (x.setG n w).since = x.since := by unfold Ctx.setG; split <;> rfl
@[simp] theorem Ctx.setG_watched (x : Ctx) (n : Nat) (w : Word) : (x.setG n w).watched = x.watched := by unfold Ctx.setG; split <;> rfl
@[simp] theorem Ctx.setG_notBefore (x : Ctx) (n : Nat) (w : Word) : (x.setG n w).notBefore = x.notBefore := by unfold Ctx.setG; split <;> rfl
@[simp] theorem Ctx.setG_blocked (x : Ctx) (n : Nat) (w : Word) : (x.setG n w).blocked = x.blocked := by unfold Ctx.setG; split <;> rfl
@[simp] theorem Ctx.setG_handling (x : Ctx) (n : Nat) (w : Word) : (x.setG n w).handling = x.handling := by unfold Ctx.setG; split <;> rfl
@[simp] theorem Ctx.setG_member (x : Ctx) (n : Nat) (w : Word) : (x.setG n w).member = x.member := by unfold Ctx.setG; split <;> rfl
@[simp] theorem Ctx.setG_released (x : Ctx) (n : Nat) (w : Word) : (x.setG n w).released = x.released := by unfold Ctx.setG; split <;> rfl
@[simp] theorem Ctx.setM_st (x : Ctx) (n : Nat) (w : BitVec 16) : (x.setM n w).st = x.st := by unfold Ctx.setM; split <;> rfl
@[simp] theorem Ctx.setM_pc (x : Ctx) (n : Nat) (w : BitVec 16) : (x.setM n w).pc = x.pc := by unfold Ctx.setM; split <;> rfl
@[simp] theorem Ctx.setM_g (x : Ctx) (n : Nat) (w : BitVec 16) : (x.setM n w).g = x.g := by unfold Ctx.setM; split <;> rfl
@[simp] theorem Ctx.setM_v (x : Ctx) (n : Nat) (w : BitVec 16) : (x.setM n w).v = x.v := by unfold Ctx.setM; split <;> rfl
@[simp] theorem Ctx.setM_sr (x : Ctx) (n : Nat) (w : BitVec 16) : (x.setM n w).sr = x.sr := by unfold Ctx.setM; split <;> rfl
@[simp] theorem Ctx.setM_pend (x : Ctx) (n : Nat) (w : BitVec 16) : (x.setM n w).pend = x.pend := by unfold Ctx.setM; split <;> rfl
@[simp] theorem Ctx.setM_chan (x : Ctx) (n : Nat) (w : BitVec 16) : (x.setM n w).chan = x.chan := by unfold Ctx.setM; split <;> rfl
@[simp] theorem Ctx.setM_prio (x : Ctx) (n : Nat) (w : BitVec 16) : (x.setM n w).prio = x.prio := by unfold Ctx.setM; split <;> rfl
@[simp] theorem Ctx.setM_port (x : Ctx) (n : Nat) (w : BitVec 16) : (x.setM n w).port = x.port := by unfold Ctx.setM; split <;> rfl
@[simp] theorem Ctx.setM_mxsat (x : Ctx) (n : Nat) (w : BitVec 16) : (x.setM n w).mxsat = x.mxsat := by unfold Ctx.setM; split <;> rfl
@[simp] theorem Ctx.setM_intrap (x : Ctx) (n : Nat) (w : BitVec 16) : (x.setM n w).intrap = x.intrap := by unfold Ctx.setM; split <;> rfl
@[simp] theorem Ctx.setM_trapvec (x : Ctx) (n : Nat) (w : BitVec 16) : (x.setM n w).trapvec = x.trapvec := by unfold Ctx.setM; split <;> rfl
@[simp] theorem Ctx.setM_trappc (x : Ctx) (n : Nat) (w : BitVec 16) : (x.setM n w).trappc = x.trappc := by unfold Ctx.setM; split <;> rfl
@[simp] theorem Ctx.setM_trapcause (x : Ctx) (n : Nat) (w : BitVec 16) : (x.setM n w).trapcause = x.trapcause := by unfold Ctx.setM; split <;> rfl
@[simp] theorem Ctx.setM_trapval (x : Ctx) (n : Nat) (w : BitVec 16) : (x.setM n w).trapval = x.trapval := by unfold Ctx.setM; split <;> rfl
@[simp] theorem Ctx.setM_trapinfo (x : Ctx) (n : Nat) (w : BitVec 16) : (x.setM n w).trapinfo = x.trapinfo := by unfold Ctx.setM; split <;> rfl
@[simp] theorem Ctx.setM_trapsave (x : Ctx) (n : Nat) (w : BitVec 16) : (x.setM n w).trapsave = x.trapsave := by unfold Ctx.setM; split <;> rfl
@[simp] theorem Ctx.setM_fcsr (x : Ctx) (n : Nat) (w : BitVec 16) : (x.setM n w).fcsr = x.fcsr := by unfold Ctx.setM; split <;> rfl
@[simp] theorem Ctx.setM_rndseed (x : Ctx) (n : Nat) (w : BitVec 16) : (x.setM n w).rndseed = x.rndseed := by unfold Ctx.setM; split <;> rfl
@[simp] theorem Ctx.setM_loopcnt (x : Ctx) (n : Nat) (w : BitVec 16) : (x.setM n w).loopcnt = x.loopcnt := by unfold Ctx.setM; split <;> rfl
@[simp] theorem Ctx.setM_loopstart (x : Ctx) (n : Nat) (w : BitVec 16) : (x.setM n w).loopstart = x.loopstart := by unfold Ctx.setM; split <;> rfl
@[simp] theorem Ctx.setM_loopend (x : Ctx) (n : Nat) (w : BitVec 16) : (x.setM n w).loopend = x.loopend := by unfold Ctx.setM; split <;> rfl
@[simp] theorem Ctx.setM_loopbuf (x : Ctx) (n : Nat) (w : BitVec 16) : (x.setM n w).loopbuf = x.loopbuf := by unfold Ctx.setM; split <;> rfl
@[simp] theorem Ctx.setM_feretry (x : Ctx) (n : Nat) (w : BitVec 16) : (x.setM n w).feretry = x.feretry := by unfold Ctx.setM; split <;> rfl
@[simp] theorem Ctx.setM_jobsel (x : Ctx) (n : Nat) (w : BitVec 16) : (x.setM n w).jobsel = x.jobsel := by unfold Ctx.setM; split <;> rfl
@[simp] theorem Ctx.setM_ctxsel (x : Ctx) (n : Nat) (w : BitVec 16) : (x.setM n w).ctxsel = x.ctxsel := by unfold Ctx.setM; split <;> rfl
@[simp] theorem Ctx.setM_trapDue (x : Ctx) (n : Nat) (w : BitVec 16) : (x.setM n w).trapDue = x.trapDue := by unfold Ctx.setM; split <;> rfl
@[simp] theorem Ctx.setM_faults (x : Ctx) (n : Nat) (w : BitVec 16) : (x.setM n w).faults = x.faults := by unfold Ctx.setM; split <;> rfl
@[simp] theorem Ctx.setM_rewrites (x : Ctx) (n : Nat) (w : BitVec 16) : (x.setM n w).rewrites = x.rewrites := by unfold Ctx.setM; split <;> rfl
@[simp] theorem Ctx.setM_refusals (x : Ctx) (n : Nat) (w : BitVec 16) : (x.setM n w).refusals = x.refusals := by unfold Ctx.setM; split <;> rfl
@[simp] theorem Ctx.setM_busy (x : Ctx) (n : Nat) (w : BitVec 16) : (x.setM n w).busy = x.busy := by unfold Ctx.setM; split <;> rfl
@[simp] theorem Ctx.setM_thread (x : Ctx) (n : Nat) (w : BitVec 16) : (x.setM n w).thread = x.thread := by unfold Ctx.setM; split <;> rfl
@[simp] theorem Ctx.setM_region (x : Ctx) (n : Nat) (w : BitVec 16) : (x.setM n w).region = x.region := by unfold Ctx.setM; split <;> rfl
@[simp] theorem Ctx.setM_handlerFirst (x : Ctx) (n : Nat) (w : BitVec 16) : (x.setM n w).handlerFirst = x.handlerFirst := by unfold Ctx.setM; split <;> rfl
@[simp] theorem Ctx.setM_resumed (x : Ctx) (n : Nat) (w : BitVec 16) : (x.setM n w).resumed = x.resumed := by unfold Ctx.setM; split <;> rfl
@[simp] theorem Ctx.setM_since (x : Ctx) (n : Nat) (w : BitVec 16) : (x.setM n w).since = x.since := by unfold Ctx.setM; split <;> rfl
@[simp] theorem Ctx.setM_watched (x : Ctx) (n : Nat) (w : BitVec 16) : (x.setM n w).watched = x.watched := by unfold Ctx.setM; split <;> rfl
@[simp] theorem Ctx.setM_notBefore (x : Ctx) (n : Nat) (w : BitVec 16) : (x.setM n w).notBefore = x.notBefore := by unfold Ctx.setM; split <;> rfl
@[simp] theorem Ctx.setM_blocked (x : Ctx) (n : Nat) (w : BitVec 16) : (x.setM n w).blocked = x.blocked := by unfold Ctx.setM; split <;> rfl
@[simp] theorem Ctx.setM_handling (x : Ctx) (n : Nat) (w : BitVec 16) : (x.setM n w).handling = x.handling := by unfold Ctx.setM; split <;> rfl
@[simp] theorem Ctx.setM_member (x : Ctx) (n : Nat) (w : BitVec 16) : (x.setM n w).member = x.member := by unfold Ctx.setM; split <;> rfl
@[simp] theorem Ctx.setM_released (x : Ctx) (n : Nat) (w : BitVec 16) : (x.setM n w).released = x.released := by unfold Ctx.setM; split <;> rfl
@[simp] theorem Ctx.setV_st (x : Ctx) (n : Nat) (w : Vec) : (x.setV n w).st = x.st := rfl
@[simp] theorem Ctx.setV_pc (x : Ctx) (n : Nat) (w : Vec) : (x.setV n w).pc = x.pc := rfl
@[simp] theorem Ctx.setV_g (x : Ctx) (n : Nat) (w : Vec) : (x.setV n w).g = x.g := rfl
@[simp] theorem Ctx.setV_m (x : Ctx) (n : Nat) (w : Vec) : (x.setV n w).m = x.m := rfl
@[simp] theorem Ctx.setV_sr (x : Ctx) (n : Nat) (w : Vec) : (x.setV n w).sr = x.sr := rfl
@[simp] theorem Ctx.setV_pend (x : Ctx) (n : Nat) (w : Vec) : (x.setV n w).pend = x.pend := rfl
@[simp] theorem Ctx.setV_chan (x : Ctx) (n : Nat) (w : Vec) : (x.setV n w).chan = x.chan := rfl
@[simp] theorem Ctx.setV_prio (x : Ctx) (n : Nat) (w : Vec) : (x.setV n w).prio = x.prio := rfl
@[simp] theorem Ctx.setV_port (x : Ctx) (n : Nat) (w : Vec) : (x.setV n w).port = x.port := rfl
@[simp] theorem Ctx.setV_mxsat (x : Ctx) (n : Nat) (w : Vec) : (x.setV n w).mxsat = x.mxsat := rfl
@[simp] theorem Ctx.setV_intrap (x : Ctx) (n : Nat) (w : Vec) : (x.setV n w).intrap = x.intrap := rfl
@[simp] theorem Ctx.setV_trapvec (x : Ctx) (n : Nat) (w : Vec) : (x.setV n w).trapvec = x.trapvec := rfl
@[simp] theorem Ctx.setV_trappc (x : Ctx) (n : Nat) (w : Vec) : (x.setV n w).trappc = x.trappc := rfl
@[simp] theorem Ctx.setV_trapcause (x : Ctx) (n : Nat) (w : Vec) : (x.setV n w).trapcause = x.trapcause := rfl
@[simp] theorem Ctx.setV_trapval (x : Ctx) (n : Nat) (w : Vec) : (x.setV n w).trapval = x.trapval := rfl
@[simp] theorem Ctx.setV_trapinfo (x : Ctx) (n : Nat) (w : Vec) : (x.setV n w).trapinfo = x.trapinfo := rfl
@[simp] theorem Ctx.setV_trapsave (x : Ctx) (n : Nat) (w : Vec) : (x.setV n w).trapsave = x.trapsave := rfl
@[simp] theorem Ctx.setV_fcsr (x : Ctx) (n : Nat) (w : Vec) : (x.setV n w).fcsr = x.fcsr := rfl
@[simp] theorem Ctx.setV_rndseed (x : Ctx) (n : Nat) (w : Vec) : (x.setV n w).rndseed = x.rndseed := rfl
@[simp] theorem Ctx.setV_loopcnt (x : Ctx) (n : Nat) (w : Vec) : (x.setV n w).loopcnt = x.loopcnt := rfl
@[simp] theorem Ctx.setV_loopstart (x : Ctx) (n : Nat) (w : Vec) : (x.setV n w).loopstart = x.loopstart := rfl
@[simp] theorem Ctx.setV_loopend (x : Ctx) (n : Nat) (w : Vec) : (x.setV n w).loopend = x.loopend := rfl
@[simp] theorem Ctx.setV_loopbuf (x : Ctx) (n : Nat) (w : Vec) : (x.setV n w).loopbuf = x.loopbuf := rfl
@[simp] theorem Ctx.setV_feretry (x : Ctx) (n : Nat) (w : Vec) : (x.setV n w).feretry = x.feretry := rfl
@[simp] theorem Ctx.setV_jobsel (x : Ctx) (n : Nat) (w : Vec) : (x.setV n w).jobsel = x.jobsel := rfl
@[simp] theorem Ctx.setV_ctxsel (x : Ctx) (n : Nat) (w : Vec) : (x.setV n w).ctxsel = x.ctxsel := rfl
@[simp] theorem Ctx.setV_trapDue (x : Ctx) (n : Nat) (w : Vec) : (x.setV n w).trapDue = x.trapDue := rfl
@[simp] theorem Ctx.setV_faults (x : Ctx) (n : Nat) (w : Vec) : (x.setV n w).faults = x.faults := rfl
@[simp] theorem Ctx.setV_rewrites (x : Ctx) (n : Nat) (w : Vec) : (x.setV n w).rewrites = x.rewrites := rfl
@[simp] theorem Ctx.setV_refusals (x : Ctx) (n : Nat) (w : Vec) : (x.setV n w).refusals = x.refusals := rfl
@[simp] theorem Ctx.setV_busy (x : Ctx) (n : Nat) (w : Vec) : (x.setV n w).busy = x.busy := rfl
@[simp] theorem Ctx.setV_thread (x : Ctx) (n : Nat) (w : Vec) : (x.setV n w).thread = x.thread := rfl
@[simp] theorem Ctx.setV_region (x : Ctx) (n : Nat) (w : Vec) : (x.setV n w).region = x.region := rfl
@[simp] theorem Ctx.setV_handlerFirst (x : Ctx) (n : Nat) (w : Vec) : (x.setV n w).handlerFirst = x.handlerFirst := rfl
@[simp] theorem Ctx.setV_resumed (x : Ctx) (n : Nat) (w : Vec) : (x.setV n w).resumed = x.resumed := rfl
@[simp] theorem Ctx.setV_since (x : Ctx) (n : Nat) (w : Vec) : (x.setV n w).since = x.since := rfl
@[simp] theorem Ctx.setV_watched (x : Ctx) (n : Nat) (w : Vec) : (x.setV n w).watched = x.watched := rfl
@[simp] theorem Ctx.setV_notBefore (x : Ctx) (n : Nat) (w : Vec) : (x.setV n w).notBefore = x.notBefore := rfl
@[simp] theorem Ctx.setV_blocked (x : Ctx) (n : Nat) (w : Vec) : (x.setV n w).blocked = x.blocked := rfl
@[simp] theorem Ctx.setV_handling (x : Ctx) (n : Nat) (w : Vec) : (x.setV n w).handling = x.handling := rfl
@[simp] theorem Ctx.setV_member (x : Ctx) (n : Nat) (w : Vec) : (x.setV n w).member = x.member := rfl
@[simp] theorem Ctx.setV_released (x : Ctx) (n : Nat) (w : Vec) : (x.setV n w).released = x.released := rfl
@[simp] theorem Ctx.setS_st (x : Ctx) (n : Nat) (w : Word) : (x.setS n w).st = x.st := rfl
@[simp] theorem Ctx.setS_pc (x : Ctx) (n : Nat) (w : Word) : (x.setS n w).pc = x.pc := rfl
@[simp] theorem Ctx.setS_g (x : Ctx) (n : Nat) (w : Word) : (x.setS n w).g = x.g := rfl
@[simp] theorem Ctx.setS_v (x : Ctx) (n : Nat) (w : Word) : (x.setS n w).v = x.v := rfl
@[simp] theorem Ctx.setS_m (x : Ctx) (n : Nat) (w : Word) : (x.setS n w).m = x.m := rfl
@[simp] theorem Ctx.setS_pend (x : Ctx) (n : Nat) (w : Word) : (x.setS n w).pend = x.pend := rfl
@[simp] theorem Ctx.setS_chan (x : Ctx) (n : Nat) (w : Word) : (x.setS n w).chan = x.chan := rfl
@[simp] theorem Ctx.setS_prio (x : Ctx) (n : Nat) (w : Word) : (x.setS n w).prio = x.prio := rfl
@[simp] theorem Ctx.setS_port (x : Ctx) (n : Nat) (w : Word) : (x.setS n w).port = x.port := rfl
@[simp] theorem Ctx.setS_mxsat (x : Ctx) (n : Nat) (w : Word) : (x.setS n w).mxsat = x.mxsat := rfl
@[simp] theorem Ctx.setS_intrap (x : Ctx) (n : Nat) (w : Word) : (x.setS n w).intrap = x.intrap := rfl
@[simp] theorem Ctx.setS_trapvec (x : Ctx) (n : Nat) (w : Word) : (x.setS n w).trapvec = x.trapvec := rfl
@[simp] theorem Ctx.setS_trappc (x : Ctx) (n : Nat) (w : Word) : (x.setS n w).trappc = x.trappc := rfl
@[simp] theorem Ctx.setS_trapcause (x : Ctx) (n : Nat) (w : Word) : (x.setS n w).trapcause = x.trapcause := rfl
@[simp] theorem Ctx.setS_trapval (x : Ctx) (n : Nat) (w : Word) : (x.setS n w).trapval = x.trapval := rfl
@[simp] theorem Ctx.setS_trapinfo (x : Ctx) (n : Nat) (w : Word) : (x.setS n w).trapinfo = x.trapinfo := rfl
@[simp] theorem Ctx.setS_trapsave (x : Ctx) (n : Nat) (w : Word) : (x.setS n w).trapsave = x.trapsave := rfl
@[simp] theorem Ctx.setS_fcsr (x : Ctx) (n : Nat) (w : Word) : (x.setS n w).fcsr = x.fcsr := rfl
@[simp] theorem Ctx.setS_rndseed (x : Ctx) (n : Nat) (w : Word) : (x.setS n w).rndseed = x.rndseed := rfl
@[simp] theorem Ctx.setS_loopcnt (x : Ctx) (n : Nat) (w : Word) : (x.setS n w).loopcnt = x.loopcnt := rfl
@[simp] theorem Ctx.setS_loopstart (x : Ctx) (n : Nat) (w : Word) : (x.setS n w).loopstart = x.loopstart := rfl
@[simp] theorem Ctx.setS_loopend (x : Ctx) (n : Nat) (w : Word) : (x.setS n w).loopend = x.loopend := rfl
@[simp] theorem Ctx.setS_loopbuf (x : Ctx) (n : Nat) (w : Word) : (x.setS n w).loopbuf = x.loopbuf := rfl
@[simp] theorem Ctx.setS_feretry (x : Ctx) (n : Nat) (w : Word) : (x.setS n w).feretry = x.feretry := rfl
@[simp] theorem Ctx.setS_jobsel (x : Ctx) (n : Nat) (w : Word) : (x.setS n w).jobsel = x.jobsel := rfl
@[simp] theorem Ctx.setS_ctxsel (x : Ctx) (n : Nat) (w : Word) : (x.setS n w).ctxsel = x.ctxsel := rfl
@[simp] theorem Ctx.setS_trapDue (x : Ctx) (n : Nat) (w : Word) : (x.setS n w).trapDue = x.trapDue := rfl
@[simp] theorem Ctx.setS_faults (x : Ctx) (n : Nat) (w : Word) : (x.setS n w).faults = x.faults := rfl
@[simp] theorem Ctx.setS_rewrites (x : Ctx) (n : Nat) (w : Word) : (x.setS n w).rewrites = x.rewrites := rfl
@[simp] theorem Ctx.setS_refusals (x : Ctx) (n : Nat) (w : Word) : (x.setS n w).refusals = x.refusals := rfl
@[simp] theorem Ctx.setS_busy (x : Ctx) (n : Nat) (w : Word) : (x.setS n w).busy = x.busy := rfl
@[simp] theorem Ctx.setS_thread (x : Ctx) (n : Nat) (w : Word) : (x.setS n w).thread = x.thread := rfl
@[simp] theorem Ctx.setS_region (x : Ctx) (n : Nat) (w : Word) : (x.setS n w).region = x.region := rfl
@[simp] theorem Ctx.setS_handlerFirst (x : Ctx) (n : Nat) (w : Word) : (x.setS n w).handlerFirst = x.handlerFirst := rfl
@[simp] theorem Ctx.setS_resumed (x : Ctx) (n : Nat) (w : Word) : (x.setS n w).resumed = x.resumed := rfl
@[simp] theorem Ctx.setS_since (x : Ctx) (n : Nat) (w : Word) : (x.setS n w).since = x.since := rfl
@[simp] theorem Ctx.setS_watched (x : Ctx) (n : Nat) (w : Word) : (x.setS n w).watched = x.watched := rfl
@[simp] theorem Ctx.setS_notBefore (x : Ctx) (n : Nat) (w : Word) : (x.setS n w).notBefore = x.notBefore := rfl
@[simp] theorem Ctx.setS_blocked (x : Ctx) (n : Nat) (w : Word) : (x.setS n w).blocked = x.blocked := rfl
@[simp] theorem Ctx.setS_handling (x : Ctx) (n : Nat) (w : Word) : (x.setS n w).handling = x.handling := rfl
@[simp] theorem Ctx.setS_member (x : Ctx) (n : Nat) (w : Word) : (x.setS n w).member = x.member := rfl
@[simp] theorem Ctx.setS_released (x : Ctx) (n : Nat) (w : Word) : (x.setS n w).released = x.released := rfl
@[simp] theorem Ctx.clearPend_st (x : Ctx) (r : Reg) : (x.clearPend r).st = x.st := rfl
@[simp] theorem Ctx.clearPend_pc (x : Ctx) (r : Reg) : (x.clearPend r).pc = x.pc := rfl
@[simp] theorem Ctx.clearPend_g (x : Ctx) (r : Reg) : (x.clearPend r).g = x.g := rfl
@[simp] theorem Ctx.clearPend_v (x : Ctx) (r : Reg) : (x.clearPend r).v = x.v := rfl
@[simp] theorem Ctx.clearPend_m (x : Ctx) (r : Reg) : (x.clearPend r).m = x.m := rfl
@[simp] theorem Ctx.clearPend_sr (x : Ctx) (r : Reg) : (x.clearPend r).sr = x.sr := rfl
@[simp] theorem Ctx.clearPend_chan (x : Ctx) (r : Reg) : (x.clearPend r).chan = x.chan := rfl
@[simp] theorem Ctx.clearPend_prio (x : Ctx) (r : Reg) : (x.clearPend r).prio = x.prio := rfl
@[simp] theorem Ctx.clearPend_port (x : Ctx) (r : Reg) : (x.clearPend r).port = x.port := rfl
@[simp] theorem Ctx.clearPend_mxsat (x : Ctx) (r : Reg) : (x.clearPend r).mxsat = x.mxsat := rfl
@[simp] theorem Ctx.clearPend_intrap (x : Ctx) (r : Reg) : (x.clearPend r).intrap = x.intrap := rfl
@[simp] theorem Ctx.clearPend_trapvec (x : Ctx) (r : Reg) : (x.clearPend r).trapvec = x.trapvec := rfl
@[simp] theorem Ctx.clearPend_trappc (x : Ctx) (r : Reg) : (x.clearPend r).trappc = x.trappc := rfl
@[simp] theorem Ctx.clearPend_trapcause (x : Ctx) (r : Reg) : (x.clearPend r).trapcause = x.trapcause := rfl
@[simp] theorem Ctx.clearPend_trapval (x : Ctx) (r : Reg) : (x.clearPend r).trapval = x.trapval := rfl
@[simp] theorem Ctx.clearPend_trapinfo (x : Ctx) (r : Reg) : (x.clearPend r).trapinfo = x.trapinfo := rfl
@[simp] theorem Ctx.clearPend_trapsave (x : Ctx) (r : Reg) : (x.clearPend r).trapsave = x.trapsave := rfl
@[simp] theorem Ctx.clearPend_fcsr (x : Ctx) (r : Reg) : (x.clearPend r).fcsr = x.fcsr := rfl
@[simp] theorem Ctx.clearPend_rndseed (x : Ctx) (r : Reg) : (x.clearPend r).rndseed = x.rndseed := rfl
@[simp] theorem Ctx.clearPend_loopcnt (x : Ctx) (r : Reg) : (x.clearPend r).loopcnt = x.loopcnt := rfl
@[simp] theorem Ctx.clearPend_loopstart (x : Ctx) (r : Reg) : (x.clearPend r).loopstart = x.loopstart := rfl
@[simp] theorem Ctx.clearPend_loopend (x : Ctx) (r : Reg) : (x.clearPend r).loopend = x.loopend := rfl
@[simp] theorem Ctx.clearPend_loopbuf (x : Ctx) (r : Reg) : (x.clearPend r).loopbuf = x.loopbuf := rfl
@[simp] theorem Ctx.clearPend_feretry (x : Ctx) (r : Reg) : (x.clearPend r).feretry = x.feretry := rfl
@[simp] theorem Ctx.clearPend_jobsel (x : Ctx) (r : Reg) : (x.clearPend r).jobsel = x.jobsel := rfl
@[simp] theorem Ctx.clearPend_ctxsel (x : Ctx) (r : Reg) : (x.clearPend r).ctxsel = x.ctxsel := rfl
@[simp] theorem Ctx.clearPend_trapDue (x : Ctx) (r : Reg) : (x.clearPend r).trapDue = x.trapDue := rfl
@[simp] theorem Ctx.clearPend_faults (x : Ctx) (r : Reg) : (x.clearPend r).faults = x.faults := rfl
@[simp] theorem Ctx.clearPend_rewrites (x : Ctx) (r : Reg) : (x.clearPend r).rewrites = x.rewrites := rfl
@[simp] theorem Ctx.clearPend_refusals (x : Ctx) (r : Reg) : (x.clearPend r).refusals = x.refusals := rfl
@[simp] theorem Ctx.clearPend_busy (x : Ctx) (r : Reg) : (x.clearPend r).busy = x.busy := rfl
@[simp] theorem Ctx.clearPend_thread (x : Ctx) (r : Reg) : (x.clearPend r).thread = x.thread := rfl
@[simp] theorem Ctx.clearPend_region (x : Ctx) (r : Reg) : (x.clearPend r).region = x.region := rfl
@[simp] theorem Ctx.clearPend_handlerFirst (x : Ctx) (r : Reg) : (x.clearPend r).handlerFirst = x.handlerFirst := rfl
@[simp] theorem Ctx.clearPend_resumed (x : Ctx) (r : Reg) : (x.clearPend r).resumed = x.resumed := rfl
@[simp] theorem Ctx.clearPend_since (x : Ctx) (r : Reg) : (x.clearPend r).since = x.since := rfl
@[simp] theorem Ctx.clearPend_watched (x : Ctx) (r : Reg) : (x.clearPend r).watched = x.watched := rfl
@[simp] theorem Ctx.clearPend_notBefore (x : Ctx) (r : Reg) : (x.clearPend r).notBefore = x.notBefore := rfl
@[simp] theorem Ctx.clearPend_blocked (x : Ctx) (r : Reg) : (x.clearPend r).blocked = x.blocked := rfl
@[simp] theorem Ctx.clearPend_handling (x : Ctx) (r : Reg) : (x.clearPend r).handling = x.handling := rfl
@[simp] theorem Ctx.clearPend_member (x : Ctx) (r : Reg) : (x.clearPend r).member = x.member := rfl
@[simp] theorem Ctx.clearPend_released (x : Ctx) (r : Reg) : (x.clearPend r).released = x.released := rfl
@[simp] theorem Ctx.setPend_st (x : Ctx) (r : Reg) : (x.setPend r).st = x.st := by unfold Ctx.setPend; split <;> rfl
@[simp] theorem Ctx.setPend_pc (x : Ctx) (r : Reg) : (x.setPend r).pc = x.pc := by unfold Ctx.setPend; split <;> rfl
@[simp] theorem Ctx.setPend_g (x : Ctx) (r : Reg) : (x.setPend r).g = x.g := by unfold Ctx.setPend; split <;> rfl
@[simp] theorem Ctx.setPend_v (x : Ctx) (r : Reg) : (x.setPend r).v = x.v := by unfold Ctx.setPend; split <;> rfl
@[simp] theorem Ctx.setPend_m (x : Ctx) (r : Reg) : (x.setPend r).m = x.m := by unfold Ctx.setPend; split <;> rfl
@[simp] theorem Ctx.setPend_sr (x : Ctx) (r : Reg) : (x.setPend r).sr = x.sr := by unfold Ctx.setPend; split <;> rfl
@[simp] theorem Ctx.setPend_chan (x : Ctx) (r : Reg) : (x.setPend r).chan = x.chan := by unfold Ctx.setPend; split <;> rfl
@[simp] theorem Ctx.setPend_prio (x : Ctx) (r : Reg) : (x.setPend r).prio = x.prio := by unfold Ctx.setPend; split <;> rfl
@[simp] theorem Ctx.setPend_port (x : Ctx) (r : Reg) : (x.setPend r).port = x.port := by unfold Ctx.setPend; split <;> rfl
@[simp] theorem Ctx.setPend_mxsat (x : Ctx) (r : Reg) : (x.setPend r).mxsat = x.mxsat := by unfold Ctx.setPend; split <;> rfl
@[simp] theorem Ctx.setPend_intrap (x : Ctx) (r : Reg) : (x.setPend r).intrap = x.intrap := by unfold Ctx.setPend; split <;> rfl
@[simp] theorem Ctx.setPend_trapvec (x : Ctx) (r : Reg) : (x.setPend r).trapvec = x.trapvec := by unfold Ctx.setPend; split <;> rfl
@[simp] theorem Ctx.setPend_trappc (x : Ctx) (r : Reg) : (x.setPend r).trappc = x.trappc := by unfold Ctx.setPend; split <;> rfl
@[simp] theorem Ctx.setPend_trapcause (x : Ctx) (r : Reg) : (x.setPend r).trapcause = x.trapcause := by unfold Ctx.setPend; split <;> rfl
@[simp] theorem Ctx.setPend_trapval (x : Ctx) (r : Reg) : (x.setPend r).trapval = x.trapval := by unfold Ctx.setPend; split <;> rfl
@[simp] theorem Ctx.setPend_trapinfo (x : Ctx) (r : Reg) : (x.setPend r).trapinfo = x.trapinfo := by unfold Ctx.setPend; split <;> rfl
@[simp] theorem Ctx.setPend_trapsave (x : Ctx) (r : Reg) : (x.setPend r).trapsave = x.trapsave := by unfold Ctx.setPend; split <;> rfl
@[simp] theorem Ctx.setPend_fcsr (x : Ctx) (r : Reg) : (x.setPend r).fcsr = x.fcsr := by unfold Ctx.setPend; split <;> rfl
@[simp] theorem Ctx.setPend_rndseed (x : Ctx) (r : Reg) : (x.setPend r).rndseed = x.rndseed := by unfold Ctx.setPend; split <;> rfl
@[simp] theorem Ctx.setPend_loopcnt (x : Ctx) (r : Reg) : (x.setPend r).loopcnt = x.loopcnt := by unfold Ctx.setPend; split <;> rfl
@[simp] theorem Ctx.setPend_loopstart (x : Ctx) (r : Reg) : (x.setPend r).loopstart = x.loopstart := by unfold Ctx.setPend; split <;> rfl
@[simp] theorem Ctx.setPend_loopend (x : Ctx) (r : Reg) : (x.setPend r).loopend = x.loopend := by unfold Ctx.setPend; split <;> rfl
@[simp] theorem Ctx.setPend_loopbuf (x : Ctx) (r : Reg) : (x.setPend r).loopbuf = x.loopbuf := by unfold Ctx.setPend; split <;> rfl
@[simp] theorem Ctx.setPend_feretry (x : Ctx) (r : Reg) : (x.setPend r).feretry = x.feretry := by unfold Ctx.setPend; split <;> rfl
@[simp] theorem Ctx.setPend_jobsel (x : Ctx) (r : Reg) : (x.setPend r).jobsel = x.jobsel := by unfold Ctx.setPend; split <;> rfl
@[simp] theorem Ctx.setPend_ctxsel (x : Ctx) (r : Reg) : (x.setPend r).ctxsel = x.ctxsel := by unfold Ctx.setPend; split <;> rfl
@[simp] theorem Ctx.setPend_trapDue (x : Ctx) (r : Reg) : (x.setPend r).trapDue = x.trapDue := by unfold Ctx.setPend; split <;> rfl
@[simp] theorem Ctx.setPend_faults (x : Ctx) (r : Reg) : (x.setPend r).faults = x.faults := by unfold Ctx.setPend; split <;> rfl
@[simp] theorem Ctx.setPend_rewrites (x : Ctx) (r : Reg) : (x.setPend r).rewrites = x.rewrites := by unfold Ctx.setPend; split <;> rfl
@[simp] theorem Ctx.setPend_refusals (x : Ctx) (r : Reg) : (x.setPend r).refusals = x.refusals := by unfold Ctx.setPend; split <;> rfl
@[simp] theorem Ctx.setPend_busy (x : Ctx) (r : Reg) : (x.setPend r).busy = x.busy := by unfold Ctx.setPend; split <;> rfl
@[simp] theorem Ctx.setPend_thread (x : Ctx) (r : Reg) : (x.setPend r).thread = x.thread := by unfold Ctx.setPend; split <;> rfl
@[simp] theorem Ctx.setPend_region (x : Ctx) (r : Reg) : (x.setPend r).region = x.region := by unfold Ctx.setPend; split <;> rfl
@[simp] theorem Ctx.setPend_handlerFirst (x : Ctx) (r : Reg) : (x.setPend r).handlerFirst = x.handlerFirst := by unfold Ctx.setPend; split <;> rfl
@[simp] theorem Ctx.setPend_resumed (x : Ctx) (r : Reg) : (x.setPend r).resumed = x.resumed := by unfold Ctx.setPend; split <;> rfl
@[simp] theorem Ctx.setPend_since (x : Ctx) (r : Reg) : (x.setPend r).since = x.since := by unfold Ctx.setPend; split <;> rfl
@[simp] theorem Ctx.setPend_watched (x : Ctx) (r : Reg) : (x.setPend r).watched = x.watched := by unfold Ctx.setPend; split <;> rfl
@[simp] theorem Ctx.setPend_notBefore (x : Ctx) (r : Reg) : (x.setPend r).notBefore = x.notBefore := by unfold Ctx.setPend; split <;> rfl
@[simp] theorem Ctx.setPend_blocked (x : Ctx) (r : Reg) : (x.setPend r).blocked = x.blocked := by unfold Ctx.setPend; split <;> rfl
@[simp] theorem Ctx.setPend_handling (x : Ctx) (r : Reg) : (x.setPend r).handling = x.handling := by unfold Ctx.setPend; split <;> rfl
@[simp] theorem Ctx.setPend_member (x : Ctx) (r : Reg) : (x.setPend r).member = x.member := by unfold Ctx.setPend; split <;> rfl
@[simp] theorem Ctx.setPend_released (x : Ctx) (r : Reg) : (x.setPend r).released = x.released := by unfold Ctx.setPend; split <;> rfl
/-- Going on changes the program counter, the loop count and buffer, and the marks of a handler's, a resumed, a waiting or a releasing
instruction. -/
theorem Ctx.goOn_eq (x : Ctx) (n : Nat) (p : Word) :
    x.goOn n p = { x with pc := (x.goOn n p).pc, loopcnt := (x.goOn n p).loopcnt, loopbuf := (x.goOn n p).loopbuf, handlerFirst := false,
                          resumed := false, blocked := false, released := if x.intrap then x.released else none } := by
  unfold Ctx.goOn
  dsimp only
  split
  · split <;> rfl
  · rfl

@[simp] theorem Ctx.goOn_st (x : Ctx) (n : Nat) (p : Word) : (x.goOn n p).st = x.st := by rw [Ctx.goOn_eq]
@[simp] theorem Ctx.advance_st (x : Ctx) (n : Nat) : (x.advance n).st = x.st := Ctx.goOn_st x n _
@[simp] theorem Ctx.goOn_g (x : Ctx) (n : Nat) (p : Word) : (x.goOn n p).g = x.g := by rw [Ctx.goOn_eq]
@[simp] theorem Ctx.advance_g (x : Ctx) (n : Nat) : (x.advance n).g = x.g := Ctx.goOn_g x n _
@[simp] theorem Ctx.goOn_v (x : Ctx) (n : Nat) (p : Word) : (x.goOn n p).v = x.v := by rw [Ctx.goOn_eq]
@[simp] theorem Ctx.advance_v (x : Ctx) (n : Nat) : (x.advance n).v = x.v := Ctx.goOn_v x n _
@[simp] theorem Ctx.goOn_m (x : Ctx) (n : Nat) (p : Word) : (x.goOn n p).m = x.m := by rw [Ctx.goOn_eq]
@[simp] theorem Ctx.advance_m (x : Ctx) (n : Nat) : (x.advance n).m = x.m := Ctx.goOn_m x n _
@[simp] theorem Ctx.goOn_sr (x : Ctx) (n : Nat) (p : Word) : (x.goOn n p).sr = x.sr := by rw [Ctx.goOn_eq]
@[simp] theorem Ctx.advance_sr (x : Ctx) (n : Nat) : (x.advance n).sr = x.sr := Ctx.goOn_sr x n _
@[simp] theorem Ctx.goOn_pend (x : Ctx) (n : Nat) (p : Word) : (x.goOn n p).pend = x.pend := by rw [Ctx.goOn_eq]
@[simp] theorem Ctx.advance_pend (x : Ctx) (n : Nat) : (x.advance n).pend = x.pend := Ctx.goOn_pend x n _
@[simp] theorem Ctx.goOn_chan (x : Ctx) (n : Nat) (p : Word) : (x.goOn n p).chan = x.chan := by rw [Ctx.goOn_eq]
@[simp] theorem Ctx.advance_chan (x : Ctx) (n : Nat) : (x.advance n).chan = x.chan := Ctx.goOn_chan x n _
@[simp] theorem Ctx.goOn_prio (x : Ctx) (n : Nat) (p : Word) : (x.goOn n p).prio = x.prio := by rw [Ctx.goOn_eq]
@[simp] theorem Ctx.advance_prio (x : Ctx) (n : Nat) : (x.advance n).prio = x.prio := Ctx.goOn_prio x n _
@[simp] theorem Ctx.goOn_port (x : Ctx) (n : Nat) (p : Word) : (x.goOn n p).port = x.port := by rw [Ctx.goOn_eq]
@[simp] theorem Ctx.advance_port (x : Ctx) (n : Nat) : (x.advance n).port = x.port := Ctx.goOn_port x n _
@[simp] theorem Ctx.goOn_mxsat (x : Ctx) (n : Nat) (p : Word) : (x.goOn n p).mxsat = x.mxsat := by rw [Ctx.goOn_eq]
@[simp] theorem Ctx.advance_mxsat (x : Ctx) (n : Nat) : (x.advance n).mxsat = x.mxsat := Ctx.goOn_mxsat x n _
@[simp] theorem Ctx.goOn_intrap (x : Ctx) (n : Nat) (p : Word) : (x.goOn n p).intrap = x.intrap := by rw [Ctx.goOn_eq]
@[simp] theorem Ctx.advance_intrap (x : Ctx) (n : Nat) : (x.advance n).intrap = x.intrap := Ctx.goOn_intrap x n _
@[simp] theorem Ctx.goOn_trapvec (x : Ctx) (n : Nat) (p : Word) : (x.goOn n p).trapvec = x.trapvec := by rw [Ctx.goOn_eq]
@[simp] theorem Ctx.advance_trapvec (x : Ctx) (n : Nat) : (x.advance n).trapvec = x.trapvec := Ctx.goOn_trapvec x n _
@[simp] theorem Ctx.goOn_trappc (x : Ctx) (n : Nat) (p : Word) : (x.goOn n p).trappc = x.trappc := by rw [Ctx.goOn_eq]
@[simp] theorem Ctx.advance_trappc (x : Ctx) (n : Nat) : (x.advance n).trappc = x.trappc := Ctx.goOn_trappc x n _
@[simp] theorem Ctx.goOn_trapcause (x : Ctx) (n : Nat) (p : Word) : (x.goOn n p).trapcause = x.trapcause := by rw [Ctx.goOn_eq]
@[simp] theorem Ctx.advance_trapcause (x : Ctx) (n : Nat) : (x.advance n).trapcause = x.trapcause := Ctx.goOn_trapcause x n _
@[simp] theorem Ctx.goOn_trapval (x : Ctx) (n : Nat) (p : Word) : (x.goOn n p).trapval = x.trapval := by rw [Ctx.goOn_eq]
@[simp] theorem Ctx.advance_trapval (x : Ctx) (n : Nat) : (x.advance n).trapval = x.trapval := Ctx.goOn_trapval x n _
@[simp] theorem Ctx.goOn_trapinfo (x : Ctx) (n : Nat) (p : Word) : (x.goOn n p).trapinfo = x.trapinfo := by rw [Ctx.goOn_eq]
@[simp] theorem Ctx.advance_trapinfo (x : Ctx) (n : Nat) : (x.advance n).trapinfo = x.trapinfo := Ctx.goOn_trapinfo x n _
@[simp] theorem Ctx.goOn_trapsave (x : Ctx) (n : Nat) (p : Word) : (x.goOn n p).trapsave = x.trapsave := by rw [Ctx.goOn_eq]
@[simp] theorem Ctx.advance_trapsave (x : Ctx) (n : Nat) : (x.advance n).trapsave = x.trapsave := Ctx.goOn_trapsave x n _
@[simp] theorem Ctx.goOn_fcsr (x : Ctx) (n : Nat) (p : Word) : (x.goOn n p).fcsr = x.fcsr := by rw [Ctx.goOn_eq]
@[simp] theorem Ctx.advance_fcsr (x : Ctx) (n : Nat) : (x.advance n).fcsr = x.fcsr := Ctx.goOn_fcsr x n _
@[simp] theorem Ctx.goOn_rndseed (x : Ctx) (n : Nat) (p : Word) : (x.goOn n p).rndseed = x.rndseed := by rw [Ctx.goOn_eq]
@[simp] theorem Ctx.advance_rndseed (x : Ctx) (n : Nat) : (x.advance n).rndseed = x.rndseed := Ctx.goOn_rndseed x n _
@[simp] theorem Ctx.goOn_loopstart (x : Ctx) (n : Nat) (p : Word) : (x.goOn n p).loopstart = x.loopstart := by rw [Ctx.goOn_eq]
@[simp] theorem Ctx.advance_loopstart (x : Ctx) (n : Nat) : (x.advance n).loopstart = x.loopstart := Ctx.goOn_loopstart x n _
@[simp] theorem Ctx.goOn_loopend (x : Ctx) (n : Nat) (p : Word) : (x.goOn n p).loopend = x.loopend := by rw [Ctx.goOn_eq]
@[simp] theorem Ctx.advance_loopend (x : Ctx) (n : Nat) : (x.advance n).loopend = x.loopend := Ctx.goOn_loopend x n _
@[simp] theorem Ctx.goOn_feretry (x : Ctx) (n : Nat) (p : Word) : (x.goOn n p).feretry = x.feretry := by rw [Ctx.goOn_eq]
@[simp] theorem Ctx.advance_feretry (x : Ctx) (n : Nat) : (x.advance n).feretry = x.feretry := Ctx.goOn_feretry x n _
@[simp] theorem Ctx.goOn_jobsel (x : Ctx) (n : Nat) (p : Word) : (x.goOn n p).jobsel = x.jobsel := by rw [Ctx.goOn_eq]
@[simp] theorem Ctx.advance_jobsel (x : Ctx) (n : Nat) : (x.advance n).jobsel = x.jobsel := Ctx.goOn_jobsel x n _
@[simp] theorem Ctx.goOn_ctxsel (x : Ctx) (n : Nat) (p : Word) : (x.goOn n p).ctxsel = x.ctxsel := by rw [Ctx.goOn_eq]
@[simp] theorem Ctx.advance_ctxsel (x : Ctx) (n : Nat) : (x.advance n).ctxsel = x.ctxsel := Ctx.goOn_ctxsel x n _
@[simp] theorem Ctx.goOn_trapDue (x : Ctx) (n : Nat) (p : Word) : (x.goOn n p).trapDue = x.trapDue := by rw [Ctx.goOn_eq]
@[simp] theorem Ctx.advance_trapDue (x : Ctx) (n : Nat) : (x.advance n).trapDue = x.trapDue := Ctx.goOn_trapDue x n _
@[simp] theorem Ctx.goOn_faults (x : Ctx) (n : Nat) (p : Word) : (x.goOn n p).faults = x.faults := by rw [Ctx.goOn_eq]
@[simp] theorem Ctx.advance_faults (x : Ctx) (n : Nat) : (x.advance n).faults = x.faults := Ctx.goOn_faults x n _
@[simp] theorem Ctx.goOn_rewrites (x : Ctx) (n : Nat) (p : Word) : (x.goOn n p).rewrites = x.rewrites := by rw [Ctx.goOn_eq]
@[simp] theorem Ctx.advance_rewrites (x : Ctx) (n : Nat) : (x.advance n).rewrites = x.rewrites := Ctx.goOn_rewrites x n _
@[simp] theorem Ctx.goOn_refusals (x : Ctx) (n : Nat) (p : Word) : (x.goOn n p).refusals = x.refusals := by rw [Ctx.goOn_eq]
@[simp] theorem Ctx.advance_refusals (x : Ctx) (n : Nat) : (x.advance n).refusals = x.refusals := Ctx.goOn_refusals x n _
@[simp] theorem Ctx.goOn_busy (x : Ctx) (n : Nat) (p : Word) : (x.goOn n p).busy = x.busy := by rw [Ctx.goOn_eq]
@[simp] theorem Ctx.advance_busy (x : Ctx) (n : Nat) : (x.advance n).busy = x.busy := Ctx.goOn_busy x n _
@[simp] theorem Ctx.goOn_thread (x : Ctx) (n : Nat) (p : Word) : (x.goOn n p).thread = x.thread := by rw [Ctx.goOn_eq]
@[simp] theorem Ctx.advance_thread (x : Ctx) (n : Nat) : (x.advance n).thread = x.thread := Ctx.goOn_thread x n _
@[simp] theorem Ctx.goOn_region (x : Ctx) (n : Nat) (p : Word) : (x.goOn n p).region = x.region := by rw [Ctx.goOn_eq]
@[simp] theorem Ctx.advance_region (x : Ctx) (n : Nat) : (x.advance n).region = x.region := Ctx.goOn_region x n _
@[simp] theorem Ctx.goOn_since (x : Ctx) (n : Nat) (p : Word) : (x.goOn n p).since = x.since := by rw [Ctx.goOn_eq]
@[simp] theorem Ctx.advance_since (x : Ctx) (n : Nat) : (x.advance n).since = x.since := Ctx.goOn_since x n _
@[simp] theorem Ctx.goOn_watched (x : Ctx) (n : Nat) (p : Word) : (x.goOn n p).watched = x.watched := by rw [Ctx.goOn_eq]
@[simp] theorem Ctx.advance_watched (x : Ctx) (n : Nat) : (x.advance n).watched = x.watched := Ctx.goOn_watched x n _
@[simp] theorem Ctx.goOn_notBefore (x : Ctx) (n : Nat) (p : Word) : (x.goOn n p).notBefore = x.notBefore := by rw [Ctx.goOn_eq]
@[simp] theorem Ctx.advance_notBefore (x : Ctx) (n : Nat) : (x.advance n).notBefore = x.notBefore := Ctx.goOn_notBefore x n _
@[simp] theorem Ctx.goOn_blocked (x : Ctx) (n : Nat) (p : Word) : (x.goOn n p).blocked = false := by rw [Ctx.goOn_eq]
@[simp] theorem Ctx.advance_blocked (x : Ctx) (n : Nat) : (x.advance n).blocked = false := Ctx.goOn_blocked x n _
@[simp] theorem Ctx.goOn_handling (x : Ctx) (n : Nat) (p : Word) : (x.goOn n p).handling = x.handling := by rw [Ctx.goOn_eq]
@[simp] theorem Ctx.goOn_member (x : Ctx) (n : Nat) (p : Word) : (x.goOn n p).member = x.member := by rw [Ctx.goOn_eq]
@[simp] theorem Ctx.goOn_released (x : Ctx) (n : Nat) (p : Word) : (x.goOn n p).released = (if x.intrap then x.released else none) := by rw [Ctx.goOn_eq]
@[simp] theorem Ctx.advance_handling (x : Ctx) (n : Nat) : (x.advance n).handling = x.handling := Ctx.goOn_handling x n _
@[simp] theorem Ctx.advance_member (x : Ctx) (n : Nat) : (x.advance n).member = x.member := Ctx.goOn_member x n _
@[simp] theorem Ctx.advance_released (x : Ctx) (n : Nat) : (x.advance n).released = (if x.intrap then x.released else none) := Ctx.goOn_released x n _

/-- g0 reads as zero (R13). -/
@[simp] theorem Ctx.getG_zero (x : Ctx) : x.getG 0 = 0 := rfl

/-- A write to g0 is discarded (R13). -/
@[simp] theorem Ctx.setG_zero (x : Ctx) (w : Word) : x.setG 0 w = x := rfl

/-- m0 reads as 0xFFFF (R14). -/
@[simp] theorem Ctx.getM_zero (x : Ctx) : x.getM 0 = 0xFFFF := rfl

/-- A write to m0 is discarded (R14). -/
@[simp] theorem Ctx.setM_zero (x : Ctx) (w : BitVec 16) : x.setM 0 w = x := rfl

/-- A scalar register reads as it was written. -/
theorem Ctx.getG_setG_same {x : Ctx} (h : rising x.g = true) {n : Nat} (hn : n ≠ 0) (w : Word) : (x.setG n w).getG n = w := by
  unfold Ctx.setG Ctx.getG
  simp only [hn, if_false]
  exact mget_mset_same 0 h n w

/-- A write of a scalar register leaves every other as it was. -/
theorem Ctx.getG_setG_other (x : Ctx) {m n : Nat} (h : m ≠ n) (w : Word) : (x.setG n w).getG m = x.getG m := by
  unfold Ctx.setG Ctx.getG
  by_cases hm : m = 0
  · simp [hm]
  · by_cases hn : n = 0
    · simp [hn]
    · simp only [hm, hn, if_false]
      exact mget_mset_other 0 0 x.g w h

theorem Ctx.getV_setV_same {x : Ctx} (h : rising x.v = true) (n : Nat) (w : Vec) : (x.setV n w).getV n = w := mget_mset_same 0 h n w

theorem Ctx.getV_setV_other (x : Ctx) {m n : Nat} (h : m ≠ n) (w : Vec) : (x.setV n w).getV m = x.getV m :=
  mget_mset_other 0 0 x.v w h

theorem Ctx.getM_setM_other (x : Ctx) {m n : Nat} (h : m ≠ n) (w : BitVec 16) : (x.setM n w).getM m = x.getM m := by
  unfold Ctx.setM Ctx.getM
  by_cases hm : m = 0
  · simp [hm]
  · by_cases hn : n = 0
    · simp [hn]
    · simp only [hm, hn, if_false]
      exact mget_mset_other 0 0 x.m w h

end Sys2Proof.Machine
end

