-- ==== Sys2Proof/Laws/Issue.lean ====
section
/-!
SUPPORT. The shared operation of every instruction, `State.issue` (R46, R54): when the effect is what happens, when a trap is raised, and that
one of these is all it does.
-/
namespace Sys2Proof.Machine

open Sys2Proof

theorem State.faultFirst_none {s : State} {c : CtxId} (h : (s.ctx c).faultTrap = none) (t : State) : s.faultFirst c t = t := by
  unfold State.faultFirst
  rw [h]

/-- With nothing to stop it, the effect happens. -/
theorem State.issue_ok {s t : State} {h : Head} {eff : Effect} (r : s.Ready h.waits h.regs) (he : h.early = none)
    (hf : eff s s.cur = .ok t) : s.issue h eff = .next t := by
  unfold State.issue
  cases hw : h.waits with
  | false => simp only [Bool.false_and, Bool.false_eq_true, if_false, he, r.regs, hf]
  | true => simp only [r.settled hw, Bool.and_false, Bool.false_eq_true, if_false, if_true, he, r.regs, hf, State.faultFirst_none (r.noFault hw)]

/-- The effect found a trap: it is raised. -/
theorem State.issue_trap {s : State} {h : Head} {eff : Effect} {t : Trap} (r : s.Ready h.waits h.regs) (he : h.early = none)
    (hf : eff s s.cur = .error t) : s.issue h eff = .next (s.raise s.cur t) := by
  unfold State.issue
  cases hw : h.waits with
  | false => simp only [Bool.false_and, Bool.false_eq_true, if_false, he, r.regs, hf]
  | true => simp only [r.settled hw, Bool.and_false, Bool.false_eq_true, if_false, if_true, he, r.regs, hf, State.faultFirst_none (r.noFault hw)]

/-- A register that the class does not have, or that is pending, is trapped before the effect (R13, R45). -/
theorem State.issue_reg {s : State} {h : Head} {t : Trap} (eff : Effect) (hw : h.waits = false) (he : h.early = none)
    (hr : regTrap (s.core s.cur.core).partword (s.ctx s.cur) h.regs = some t) : s.issue h eff = .next (s.raise s.cur t) := by
  unfold State.issue
  simp only [hw, Bool.false_and, Bool.false_eq_true, if_false, he, hr]

/-- An early trap (R54 items 4 and 5) is raised before the register checks. -/
theorem State.issue_early {s : State} {h : Head} {t : Trap} (eff : Effect) (hw : h.waits = false) (he : h.early = some t) :
    s.issue h eff = .next (s.raise s.cur t) := by
  unfold State.issue
  simp only [hw, Bool.false_and, Bool.false_eq_true, if_false, he]

/-- An instruction that waits while a long operation is outstanding enters MARKER (R46). -/
theorem State.issue_marker {s : State} {h : Head} (eff : Effect) (hw : h.waits = true) (ho : s.outstanding s.cur = true) :
    s.issue h eff = .next (s.marker s.cur) := by
  unfold State.issue
  simp only [hw, ho, Bool.and_true, if_true]

/-- All that issuing can do: wait, report an earlier fault, raise a trap, or take the effect; it always answers a next state. -/
theorem State.issue_cases (s : State) (h : Head) (eff : Effect) :
    ∃ t, s.issue h eff = .next t ∧
      (t = s.marker s.cur ∨ (∃ u, t = s.faultFirst s.cur u) ∨ (∃ x, t = s.raise s.cur x) ∨ eff s s.cur = .ok t) := by
  unfold State.issue
  dsimp only
  split
  · exact ⟨_, rfl, .inl rfl⟩
  · refine ⟨_, rfl, ?_⟩
    split
    · exact .inr (.inl ⟨_, rfl⟩)
    · split
      · exact .inr (.inr (.inl ⟨_, rfl⟩))
      · split
        · exact .inr (.inr (.inl ⟨_, rfl⟩))
        · split
          · rename_i h4
            exact .inr (.inr (.inr h4))
          · exact .inr (.inr (.inl ⟨_, rfl⟩))

/-- The state in which the current context goes on is the one that `retire` gives. -/
theorem State.retire_eq (s : State) (f : Ctx → Ctx) : s.retire s.cur f = s.after f := rfl

/-- An instruction that changes its own context only. -/
theorem State.issueCtx_ok {s : State} {w : Bool} {rs : List Reg} (r : s.Ready w rs) (f : Ctx → Ctx) :
    s.issueCtx w rs f = .next (s.after f) := by
  unfold State.issueCtx
  exact State.issue_ok r rfl rfl

/-- What `after` leaves alone. -/
theorem State.after_onlyCtxs (s : State) (f : Ctx → Ctx) : s.onlyCtxs (s.after f) := rfl

theorem State.after_otherCtxs (s : State) (f : Ctx → Ctx) : s.otherCtxs (s.after f) s.cur :=
  fun d hd => State.ctx_setCtx_other s s.cur d _ hd

/-- The current context after `after`. -/
theorem State.now_after {s : State} (h : rising s.ctxs = true) (f : Ctx → Ctx) : (s.after f).now = (f s.now).advance 1 :=
  State.ctx_setCtx_same h _ _

end Sys2Proof.Machine
end

