-- ==== Sys2Proof/Laws/Lanes.lean ====
section
/-!
SUPPORT. Lanes: a vector made of lanes has them, and a mask that governs keeps the inactive ones (R14, R95).
-/
namespace Sys2Proof.Machine

open Sys2Proof

/-- The lanes of a list fill `w` bits each. -/
theorem ofLanes_lt (w : Nat) (l : List Nat) : ofLanes w l < 2 ^ (w * l.length) := by
  induction l with
  | nil => simp [ofLanes]
  | cons x xs ih =>
    have hx : x % 2 ^ w < 2 ^ w := Nat.mod_lt _ (Nat.two_pow_pos w)
    simp only [ofLanes, List.length_cons, Nat.mul_succ, Nat.pow_add]
    calc x % 2 ^ w + 2 ^ w * ofLanes w xs < 2 ^ w + 2 ^ w * ofLanes w xs := by omega
      _ = 2 ^ w * (ofLanes w xs + 1) := by rw [Nat.mul_add, Nat.mul_one, Nat.add_comm]
      _ ≤ 2 ^ w * 2 ^ (w * xs.length) := Nat.mul_le_mul_left _ ih
      _ = 2 ^ (w * xs.length) * 2 ^ w := Nat.mul_comm _ _

/-- A lane of a list of lanes. -/
theorem ofLanes_get (w : Nat) (l : List Nat) (i : Nat) (h : i < l.length) :
    ofLanes w l / 2 ^ (w * i) % 2 ^ w = l[i] % 2 ^ w := by
  induction l generalizing i with
  | nil => simp at h
  | cons x xs ih =>
    cases i with
    | zero =>
      simp only [ofLanes, Nat.mul_zero, Nat.pow_zero, Nat.div_one, List.getElem_cons_zero, Nat.add_mul_mod_self_left, Nat.mod_mod]
    | succ i =>
      have hx : x % 2 ^ w < 2 ^ w := Nat.mod_lt _ (Nat.two_pow_pos w)
      have hdiv : (x % 2 ^ w + 2 ^ w * ofLanes w xs) / 2 ^ w = ofLanes w xs := by
        rw [Nat.add_mul_div_left _ _ (Nat.two_pow_pos w), Nat.div_eq_of_lt hx, Nat.zero_add]
      simp only [ofLanes, Nat.mul_succ, Nat.pow_add, List.getElem_cons_succ]
      rw [Nat.mul_comm (2 ^ (w * i)) (2 ^ w), ← Nat.div_div_eq_div_mul, hdiv]
      exact ih i (by simpa using h)

/-- Lane `i` of a vector of `n` lanes of `w` bits that fit in 128. -/
theorem lane_vecOf (w n : Nat) (f : Nat → Nat) (i : Nat) (h : i < n) (hn : w * n ≤ 128) : lane w (vecOf w n f) i = f i % 2 ^ w := by
  have hlt : ofLanes w ((List.range n).map f) < 2 ^ 128 :=
    Nat.lt_of_lt_of_le (ofLanes_lt w _) (Nat.pow_le_pow_right (by decide) (by simpa using hn))
  unfold lane vecOf
  rw [BitVec.toNat_ofNat, Nat.mod_eq_of_lt hlt, ofLanes_get w _ i (by simpa using h)]
  simp

/-- The lanes of a type fill a vector. -/
theorem ETy.bits_mul_lanes (t : ETy) : t.bits * t.lanes = 128 := by cases t <;> rfl

/-- A lane is a number of `w` bits. -/
theorem lane_lt (w : Nat) (v : Vec) (i : Nat) : lane w v i < 2 ^ w := Nat.mod_lt _ (Nat.two_pow_pos w)

/-- Under a mask that governs, an active lane takes its value and an inactive one keeps the old (R95). -/
theorem lane_vmap (t : ETy) (m : BitVec 16) (old : Vec) (f : Nat → Nat) (i : Nat) (h : i < t.lanes) :
    lane t.bits (vmap t m old f) i = if mbit m i then f i % 2 ^ t.bits else lane t.bits old i := by
  unfold vmap
  rw [lane_vecOf _ _ _ _ h (Nat.le_of_eq (ETy.bits_mul_lanes t))]
  split
  · rfl
  · exact Nat.mod_eq_of_lt (lane_lt _ _ _)

end Sys2Proof.Machine
end

