-- ==== Sys2Proof/Laws/Memory.lean ====
section
/-!
SUPPORT. Memory: what a byte reads as after a write, the fields that a write leaves alone, and that every operation keeps the canonical form.
-/
namespace Sys2Proof.Machine

open Sys2Proof

/-! ## Ranges of open contents -/

theorem carve_misses (l : Nat) (vs : List Vague) : (carve l vs).find? (fun r => r.covers l) = none := by
  induction vs with
  | nil => rfl
  | cons v r ih =>
    unfold carve
    split
    · rename_i h
      simp only [List.find?_append, Option.or_eq_none_iff]
      refine ⟨⟨?_, ?_⟩, ih⟩
      · split <;> simp [Vague.covers] <;> omega
      · split <;> simp [Vague.covers] <;> omega
    · rename_i h
      have hv : v.covers l = false := by
        unfold Vague.covers
        have : (decide (v.base ≤ l) && decide (l < v.base + v.len)) = false := by
          simp only [Bool.and_eq_false_iff, decide_eq_false_iff_not]
          omega
        rw [this, Bool.false_and]
      simp only [List.find?_cons, hv]
      exact ih

theorem Vague.covers_iff (v : Vague) (d : Nat) :
    v.covers d = true ↔ v.base ≤ d ∧ d < v.base + v.len ∧ (v.onStacks.isEmpty || v.onStacks.contains (stackOf d)) = true := by
  simp only [Vague.covers, Bool.and_eq_true, decide_eq_true_eq, and_assoc]

/-- A smaller range of the same contents covers a location just when the range does and the location lies in it. -/
theorem Vague.covers_part (v : Vague) (d b n : Nat) (h1 : v.base ≤ b) (h2 : b + n ≤ v.base + v.len) :
    ({ v with base := b, len := n } : Vague).covers d = (v.covers d && (decide (b ≤ d) && decide (d < b + n))) := by
  rw [Bool.eq_iff_iff]
  simp only [Bool.and_eq_true, Vague.covers_iff, decide_eq_true_eq]
  constructor
  · rintro ⟨x, y, z⟩
    exact ⟨⟨by omega, by omega, z⟩, x, y⟩
  · rintro ⟨⟨_, _, z⟩, x, y⟩
    exact ⟨x, y, z⟩

theorem carve_other {d l : Nat} (h : d ≠ l) (vs : List Vague) :
    ((carve l vs).find? fun r => r.covers d).map (·.num) = (vs.find? fun r => r.covers d).map (·.num) := by
  induction vs with
  | nil => rfl
  | cons v r ih =>
    unfold carve
    split
    · rename_i hin
      obtain ⟨h1, h2⟩ := hin
      have hlow : ({ v with len := l - v.base } : Vague).covers d = (v.covers d && (decide (v.base ≤ d) && decide (d < v.base + (l - v.base)))) :=
        Vague.covers_part v d v.base _ (Nat.le_refl _) (by omega)
      have hhigh : ({ v with base := l + 1, len := v.base + v.len - (l + 1) } : Vague).covers d
          = (v.covers d && (decide (l + 1 ≤ d) && decide (d < l + 1 + (v.base + v.len - (l + 1))))) :=
        Vague.covers_part v d _ _ (by omega) (by omega)
      rw [List.find?_append, List.find?_append, List.find?_cons]
      cases hc : v.covers d with
      | false =>
        rw [hc, Bool.false_and] at hlow hhigh
        have e1 : (if v.base < l then [{ v with len := l - v.base }] else []).find? (fun r => r.covers d) = none := by
          split <;> simp [hlow]
        have e2 : (if l + 1 < v.base + v.len then [{ v with base := l + 1, len := v.base + v.len - (l + 1) }] else []).find?
            (fun r => r.covers d) = none := by split <;> simp [hhigh]
        rw [e1, e2]
        exact ih
      | true =>
        obtain ⟨c1, c2, c3⟩ := (Vague.covers_iff v d).mp hc
        rw [hc, Bool.true_and] at hlow hhigh
        rcases Nat.lt_or_gt_of_ne h with hd | hd
        · have e1 : (if v.base < l then [{ v with len := l - v.base }] else []).find? (fun r => r.covers d)
              = some { v with len := l - v.base } := by
            rw [if_pos (by omega), List.find?_cons, hlow, decide_eq_true c1, decide_eq_true (by omega : d < v.base + (l - v.base))]
            rfl
          rw [e1]
          rfl
        · have e1 : (if v.base < l then [{ v with len := l - v.base }] else []).find? (fun r => r.covers d) = none := by
            split
            · rw [List.find?_cons, hlow, decide_eq_false (by omega : ¬ d < v.base + (l - v.base)), Bool.and_false]
              rfl
            · rfl
          have e2 : (if l + 1 < v.base + v.len then [{ v with base := l + 1, len := v.base + v.len - (l + 1) }] else []).find?
              (fun r => r.covers d) = some { v with base := l + 1, len := v.base + v.len - (l + 1) } := by
            rw [if_pos (by omega), List.find?_cons, hhigh, decide_eq_true (by omega : l + 1 ≤ d),
              decide_eq_true (by omega : d < l + 1 + (v.base + v.len - (l + 1)))]
            rfl
          rw [e1, e2]
          rfl
    · simp only [List.find?_cons]
      split
      · rfl
      · exact ih

/-! ## One byte -/

/-- A byte in terms of the number of the open range that covers it. -/
theorem State.byte_eq (s : State) (loc : Nat) :
    s.byte loc = match (s.vague.find? fun r => r.covers loc).map (·.num) with
      | some n => Config.freeByte (n * 2 ^ 48 + loc)
      | none => mget 0 s.mem loc := by
  unfold State.byte
  cases s.vague.find? fun r => r.covers loc <;> rfl

theorem State.setByte_vague (s : State) (l : Nat) (b : Byte) : (s.setByte l b).vague = carve l s.vague := by
  unfold State.setByte
  cases h : s.vague with
  | nil => simp [carve]
  | cons v r => simp

/-- A byte reads as it was written. -/
theorem State.byte_setByte_same {s : State} (h : rising s.mem = true) (l : Nat) (b : Byte) : (s.setByte l b).byte l = b := by
  unfold State.byte
  rw [State.setByte_vague, carve_misses]
  exact mget_mset_same 0 h l b

/-- A write of a byte leaves every other byte as it was. -/
theorem State.byte_setByte_other (s : State) {d l : Nat} (h : d ≠ l) (b : Byte) : (s.setByte l b).byte d = s.byte d := by
  rw [State.byte_eq, State.byte_eq, State.setByte_vague, carve_other h, State.setByte_mem, mget_mset_other 0 0 s.mem b h]

/-- Writing a byte keeps memory canonical. -/
theorem State.setByte_wf {s : State} (h : Memory.wf s.mem = true) (l : Nat) (b : Byte) : Memory.wf (s.setByte l b).mem = true :=
  mwf_mset h l b

/-! ## Several bytes -/

/-- A write changes nothing but memory and its ranges of open contents. -/
theorem State.write_eq (s : State) (l n v : Nat) : s.write l n v = { s with mem := (s.write l n v).mem, vague := (s.write l n v).vague } := by
  induction n generalizing s l v with
  | zero => rfl
  | succ n ih => unfold State.write; rw [ih]; rfl

theorem State.writeBytes_eq (s : State) (l : Nat) (bs : List Byte) :
    s.writeBytes l bs = { s with mem := (s.writeBytes l bs).mem, vague := (s.writeBytes l bs).vague } := by
  induction bs generalizing s l with
  | nil => rfl
  | cons b r ih => unfold State.writeBytes; rw [ih]; rfl

theorem State.wrWords_eq (s : State) (l : Nat) (ws : List Word) :
    s.wrWords l ws = { s with mem := (s.wrWords l ws).mem, vague := (s.wrWords l ws).vague } := by
  induction ws generalizing s l with
  | nil => rfl
  | cons w r ih => unfold State.wrWords State.wr64; rw [ih, State.write_eq]

/-- A write leaves the bytes outside its range as they were. -/
theorem State.byte_write_other (s : State) {d l n : Nat} (h : d < l ∨ l + n ≤ d) (v : Nat) : (s.write l n v).byte d = s.byte d := by
  induction n generalizing s l v with
  | zero => rfl
  | succ n ih =>
    unfold State.write
    rw [ih _ (by omega), State.byte_setByte_other _ (by omega)]

theorem State.byte_writeBytes_other (s : State) {d l : Nat} (bs : List Byte) (h : d < l ∨ l + bs.length ≤ d) :
    (s.writeBytes l bs).byte d = s.byte d := by
  induction bs generalizing s l with
  | nil => rfl
  | cons b r ih =>
    simp only [List.length_cons] at h
    unfold State.writeBytes
    rw [ih _ (by omega), State.byte_setByte_other _ (by omega)]

/-- Writing keeps memory canonical. -/
theorem State.write_wf {s : State} (h : Memory.wf s.mem = true) (l n v : Nat) : Memory.wf (s.write l n v).mem = true := by
  induction n generalizing s l v with
  | zero => exact h
  | succ n ih => exact ih (State.setByte_wf h l _) _ _

theorem State.writeBytes_wf {s : State} (h : Memory.wf s.mem = true) (l : Nat) (bs : List Byte) :
    Memory.wf (s.writeBytes l bs).mem = true := by
  induction bs generalizing s l with
  | nil => exact h
  | cons b r ih => exact ih (State.setByte_wf h l _) _

theorem State.wr64_wf {s : State} (h : Memory.wf s.mem = true) (l : Nat) (w : Word) : Memory.wf (s.wr64 l w).mem = true := by
  unfold State.wr64
  exact State.write_wf h l 8 w.toNat

theorem State.wrWords_wf {s : State} (h : Memory.wf s.mem = true) (l : Nat) (ws : List Word) : Memory.wf (s.wrWords l ws).mem = true := by
  induction ws generalizing s l with
  | nil => exact h
  | cons w r ih =>
    unfold State.wrWords
    exact ih (State.wr64_wf h l w) _

/-- The first byte of a number that was written reads as the number's lowest byte. -/
theorem State.byte_write_first {s : State} (h : rising s.mem = true) (l n v : Nat) : (s.write l (n + 1) v).byte l = BitVec.ofNat 8 v := by
  unfold State.write
  rw [State.byte_write_other _ (by omega), State.byte_setByte_same h]

theorem rising_setByte {s : State} (h : rising s.mem = true) (l : Nat) (b : Byte) : rising (s.setByte l b).mem = true := rising_mset 0 h l b

/-- Bytes agree, so numbers read agree. -/
theorem State.read_congr {s t : State} {l n : Nat} (h : ∀ d, l ≤ d → d < l + n → t.byte d = s.byte d) : t.read l n = s.read l n := by
  induction n generalizing l with
  | zero => rfl
  | succ n ih =>
    unfold State.read
    rw [h l (by omega) (by omega), ih fun d h1 h2 => h d (by omega) (by omega)]

/-- A number reads as it was written, cut to its bytes (R3). -/
theorem State.read_write {s : State} (h : rising s.mem = true) (l n v : Nat) : (s.write l n v).read l n = v % 256 ^ n := by
  induction n generalizing s l v with
  | zero => simp [State.read, Nat.mod_one]
  | succ n ih =>
    have hb := State.byte_write_first h l n v
    unfold State.read
    rw [hb]
    have hw : (s.write l (n + 1) v) = ((s.setByte l (BitVec.ofNat 8 v)).write (l + 1) n (v / 256)) := rfl
    rw [hw, ih (rising_setByte h l _)]
    have hp : 256 ^ (n + 1) = 256 * 256 ^ n := by rw [Nat.pow_succ, Nat.mul_comm]
    rw [hp, Nat.mod_mul]
    rfl

/-- A word reads as it was written. -/
theorem State.rd64_wr64 {s : State} (h : rising s.mem = true) (l : Nat) (w : Word) : (s.wr64 l w).rd64 l = w := by
  unfold State.rd64 State.wr64
  rw [State.read_write h]
  apply BitVec.eq_of_toNat_eq
  simp only [word, BitVec.toNat_ofNat]
  have := w.isLt
  omega

end Sys2Proof.Machine
end

