-- ==== Sys2Proof/Tests/Slice0.lean ====
section
/-!
SUPPORT. Tests of single definitions and single steps, and witnesses: states and operands that meet the hypotheses of the statements. Expected
values are the manual's own examples or follow from its tables by hand.
-/
namespace Sys2Proof.Tests

open Sys2Proof Sys2Proof.Machine

/-! ## Well-formedness refuses -/

/-- A term for each check of `wellFormed`, each refused: orderings, element types, plane and lane numbers, VCVT's types, LNEST's fields. -/
theorem test_wellFormed_refuses :
    wellFormed (.ld ⟨false, 1, 2, .release, .b8, 0⟩) = false ∧ wellFormed (.st ⟨false, 1, 2, .acquire, .b8, 0⟩) = false ∧
    wellFormed (.ldv ⟨false, 1, 2, .seqcst, 0⟩) = false ∧ wellFormed (.stv ⟨false, 1, 2, .seqcst, 0⟩) = false ∧
    wellFormed (.ldf ⟨false, 1, 2, .plain, 0⟩) = false ∧ wellFormed (.ldt ⟨false, 1, 2, .release, 0⟩) = false ∧
    wellFormed (.stf ⟨false, 1, 2, .plain, 0⟩) = false ∧ wellFormed (.stw ⟨false, 1, 2, .acquire, 0⟩) = false ∧
    wellFormed (.feq ⟨false, 1, 2, .release⟩) = false ∧ wellFormed (.fence ⟨false, .dev, .plain⟩) = false ∧
    wellFormed (.stc ⟨false, 1, 2, 3, .acquire⟩) = false ∧ wellFormed (.ldx ⟨false, 1, 2, 3, .release⟩) = false ∧
    wellFormed (.vadd ⟨false, 1, 2, 3, 0, .f32⟩) = false ∧ wellFormed (.vfadd ⟨false, 1, 2, 3, 0, .s32⟩) = false ∧
    wellFormed (.vsra ⟨false, 1, 2, 3, 0, .n16⟩) = false ∧ wellFormed (.vdot ⟨false, 1, 2, 3, 0, .s32⟩) = false ∧
    wellFormed (.vqnt ⟨false, 1, 2, 3, 0, .s8⟩) = false ∧ wellFormed (.vplane ⟨false, 1, 2, 8, 0, .s8⟩) = false ∧
    wellFormed (.vext ⟨false, 1, 2, 8, .s16⟩) = false ∧ wellFormed (.vredadd ⟨false, 1, 2, 0, .f16⟩) = false ∧
    wellFormed (.vfredadd ⟨false, 1, 2, 0, .n8⟩) = false := by decide

/-- VCVT to its own type, to a type four times as wide, and with a half where the widths agree. -/
theorem test_wellFormed_refuses_vcvt :
    wellFormed (.vcvt ⟨false, 1, 2, 10, 0, .f32⟩) = false ∧ wellFormed (.vcvt ⟨false, 1, 2, 2, 0, .s8⟩) = false ∧
    wellFormed (.vcvt ⟨false, 1, 2, 18, 0, .f32⟩) = false ∧ wellFormed (.vcvt ⟨false, 1, 2, 11, 0, .f32⟩) = false := by decide

/-- LNEST without a level, with six, with an unassigned rounding field, with one for an integer type, and with a B that MOV does not use. -/
theorem test_wellFormed_refuses_lnest :
    wellFormed (.lnest ⟨false, .mov, .s8, 0, 0, 0, 0, 0, 1, 2, 0, []⟩) = false ∧
    wellFormed (.lnest ⟨false, .mov, .s8, 0, 0, 0, 0, 0, 1, 2, 0, List.replicate 6 ⟨0, 0, 0, 0⟩⟩) = false ∧
    wellFormed (.lnest ⟨false, .mov, .f32, 0, 5, 0, 0, 0, 1, 2, 0, [⟨0, 0, 0, 0⟩]⟩) = false ∧
    wellFormed (.lnest ⟨false, .mov, .s8, 0, 1, 0, 0, 0, 1, 2, 0, [⟨0, 0, 0, 0⟩]⟩) = false ∧
    wellFormed (.lnest ⟨false, .mov, .s8, 0, 0, 0, 0, 0, 1, 2, 3, [⟨0, 0, 0, 0⟩]⟩) = false := by decide

/-! ## Words written out in the manual's listings -/

/-- The words of "Scalar instructions and control flow". -/
theorem test_decode_scalar :
    decode [0x8038C182#32] = .ok (.sub ⟨true, 7, 6, 3⟩) ∧ decode [0x1040FFFB#32] = .ok (.cmpiLt ⟨false, 8, 7, 0x1FFB⟩) ∧
    decode [0x2647FFFE#32] = .ok (.bnz ⟨false, 8, 0x7FFFE⟩) ∧ decode [0x00492205#32] = .ok (.xorR ⟨false, 9, 9, 4⟩) ∧
    decode [0x0050C38E#32] = .ok (.divS ⟨false, 10, 6, 7⟩) ∧ decode [0x003041A3#32] = .ok (.bfx ⟨false, 6, 2, 3⟩) ∧
    decode [0x0040C39F#32] = .ok (.cmpLtn ⟨false, 8, 6, 7⟩) ∧ decode [0x0A304003#32] = .ok (.shli ⟨false, 6, 2, 3⟩) ∧
    decode [0x7C300001#32, 0xFFFFFFFE#32] = .ok (.li ⟨false, 6, 0xFFFFFFFE⟩) ∧
    decode [0x7C30C002#32, 0x1234#32] = .ok (.lih ⟨false, 6, 6, 0x1234⟩) ∧
    decode [0x7C30E004#32, 0x42A1#32] = .ok (.xy ⟨false, 6, 7, 0x42A1⟩) ∧ decode [0x0048A3A5#32] = .ok (.xyadd ⟨false, 9, 5, 7⟩) := by decide

/-- The branches, the mask operations and LOOP. -/
theorem test_decode_control :
    decode [0x20000006#32] = .ok (.branch ⟨false, 6⟩) ∧ decode [0x22000028#32] = .ok (.call ⟨false, 40⟩) ∧
    decode [0x2437FFFE#32] = .ok (.bz ⟨false, 6, 0x7FFFE⟩) ∧ decode [0x7C000005#32, 0x100000#32] = .ok (.bl ⟨false, 0x100000⟩) ∧
    decode [0x2A480002#32] = .ok (.callr ⟨false, 9⟩) ∧ decode [0x2A000003#32] = .ok (.ret ⟨false⟩) ∧
    decode [0x28180004#32] = .ok (.bmAny ⟨false, 3, 4⟩) ∧ decode [0x2C084181#32] = .ok (.mand ⟨false, 1, 2, 3⟩) ∧
    decode [0x2A482004#32] = .ok (.loop ⟨false, 9, 1⟩) := by decide

/-- The vector instructions, and the loop nest of eight words. -/
theorem test_decode_vector :
    decode [0x4442990A#32] = .ok (.vadds ⟨false, 4, 5, 6, 2, .s16⟩) ∧ decode [0x46219037#32] = .ok (.vshr ⟨false, 2, 3, 4, 0, .n32⟩) ∧
    decode [0x48808807#32] = .ok (.vdot ⟨false, 8, 1, 2, 0, .s8⟩) ∧ decode [0x48110C14#32] = .ok (.vcmpLt ⟨false, 1, 2, 3, 0, .s32⟩) ∧
    decode [0x4A110C53#32] = .ok (.vfma ⟨false, 1, 2, 3, 0, .f32⟩) ∧ decode [0x4C32144C#32] = .ok (.vfcmpUn ⟨false, 3, 4, 5, 0, .bf16⟩) ∧
    decode [0x4C638056#32] = .ok (.vrsq ⟨false, 6, 7, 0, .f32⟩) ∧ decode [0x4E21E84A#32] = .ok (.vcvt ⟨false, 2, 3, 26, 0, .bf16⟩) ∧
    decode [0x4E520C04#32] = .ok (.vplane ⟨false, 5, 4, 3, 0, .s8⟩) ∧ decode [0x50320088#32] = .ok (.vcompress ⟨false, 3, 4, 1, .s16⟩) ∧
    decode [0x50940015#32] = .ok (.vredadd ⟨false, 9, 8, 0, .s32⟩) ∧ decode [0x52320053#32] = .ok (.vfredadd ⟨false, 3, 8, 0, .f32⟩) ∧
    decode [0x5221D409#32] = .ok (.vext ⟨false, 2, 7, 5, .s16⟩) ∧
    decode [0x7E4D21C0#32, 0xC0100400#32, 0x20F#32, 0x188#32, 0#32, 0#32, 0#32, 0x2061C000#32] =
      .ok (.lnest ⟨false, .rdot, .f32, 0, 7, 0, 0, 0, 8, 6, 7, [⟨63, 1, 1, 0⟩, ⟨3, 64, 0, 1⟩]⟩) := by decide

/-- The accesses of memory. -/
theorem test_decode_memory :
    decode [0x30304A01#32] = .ok (.ld ⟨false, 6, 2, .acquire, .b4, 1⟩) ∧ decode [0x32387300#32] = .ok (.st ⟨false, 7, 3, .release, .b8, 0⟩) ∧
    decode [0x34204402#32] = .ok (.ldv ⟨false, 4, 2, .plain, 2⟩) ∧ decode [0x3621C4FF#32] = .ok (.stv ⟨false, 4, 14, .plain, 0xFF⟩) ∧
    decode [0x3A304B00#32] = .ok (.ldt ⟨false, 6, 2, .acquire, 0⟩) ∧ decode [0x3E385300#32] = .ok (.stw ⟨false, 7, 2, .release, 0⟩) ∧
    decode [0x40100301#32] = .ok (.fee ⟨false, 2, 6, .plain⟩) ∧ decode [0x40106363#32] = .ok (.amoAdd ⟨false, 2, 3, 6, .seqcst⟩) ∧
    decode [0x4010632D#32] = .ok (.cas ⟨false, 2, 3, 6, .acquire⟩) ∧ decode [0x400000CE#32] = .ok (.fence ⟨false, .core, .release⟩) ∧
    decode [0x4010000F#32] = .ok (.pref ⟨false, 2⟩) ∧ decode [0x40106390#32] = .ok (.stc ⟨false, 2, 3, 7, .plain⟩) ∧
    decode [0x4018C491#32] = .ok (.ldx ⟨false, 3, 6, 9, .plain⟩) := by decide

/-- Messages, groups, nets and lists. -/
theorem test_decode_messages :
    decode [0x5C30E406#32] = .ok (.taskset ⟨false, 6, 7, 8⟩) ∧ decode [0x5C302001#32] = .ok (.send ⟨false, 6, 1⟩) ∧
    decode [0x5C000005#32] = .ok (.tend ⟨false⟩) ∧ decode [0x5C314403#32] = .ok (.park ⟨false, 6, 10, 8⟩) ∧
    decode [0x5C300388#32] = .ok (.join ⟨false, 6, 7⟩) ∧ decode [0x5C31038B#32] = .ok (.gmax ⟨false, 6, 8, 7⟩) ∧
    decode [0x60300481#32] = .ok (.nalloc ⟨false, 6, 9⟩) ∧ decode [0x60390004#32] = .ok (.relink ⟨false, 7, 8⟩) ∧
    decode [0x60080387#32] = .ok (.tref ⟨false, 1, 7⟩) ∧ decode [0x62680001#32] = .ok (.wlinit ⟨false, 13⟩) ∧
    decode [0x62696082#32] = .ok (.wlpush ⟨false, 13, 11, 1⟩) ∧ decode [0x6268E604#32] = .ok (.wlpopb ⟨false, 13, 7, 12⟩) := by decide

/-- Engine commands, the matrix engine and the curve instructions. -/
theorem test_decode_engines :
    decode [0x6430E401#32] = .ok (.copy ⟨false, 6, 7, 8⟩) ∧ decode [0x64300383#32] = .ok (.waitany ⟨false, 6, 7⟩) ∧
    decode [0x64300489#32] = .ok (.ringpop ⟨false, 6, 9⟩) ∧ decode [0x6430E40C#32] = .ok (.scatter ⟨false, 6, 7, 8⟩) ∧
    decode [0x6630E001#32] = .ok (.mxmap ⟨false, 6, 7⟩) ∧ decode [0x6630E084#32] = .ok (.mxskip ⟨false, 6, 7, 1⟩) ∧
    decode [0x66300085#32] = .ok (.mxrun ⟨false, 6, 1⟩) ∧ decode [0x6630E007#32] = .ok (.mxsend ⟨false, 6, 7⟩) ∧
    decode [0x68490601#32] = .ok (.dxenc ⟨false, 9, 8, 12⟩) ∧ decode [0x6861068A#32] = .ok (.dxcmp ⟨false, 12, 8, 13⟩) := by decide

/-- Traps, CSRs and the privileged instructions. -/
theorem test_decode_system :
    decode [0x78000002#32] = .ok (.tret ⟨false⟩) ∧ decode [0x78300281#32] = .ok (.trap ⟨false, 6, 5⟩) ∧
    decode [0x78000188#32] = .ok (.brk ⟨false, 3⟩) ∧ decode [0x78040384#32] = .ok (.csrw ⟨false, 0x20, 7⟩) ∧
    decode [0x7802A405#32] = .ok (.csrx ⟨false, 0x15, 8⟩) ∧ decode [0x78080487#32] = .ok (.csrc ⟨false, 0x40, 9⟩) ∧
    decode [0x78380309#32] = .ok (.jrnl ⟨false, 7, 6⟩) ∧ decode [0x7830E00B#32] = .ok (.tlbinv ⟨false, 6, 7⟩) ∧
    decode [0x7830000D#32] = .ok (.killj ⟨false, 6⟩) := by decide

/-! ## States for tests and witnesses -/

/-- Context 0 of core (20, 10). -/
def home : CtxId := ⟨500, 0⟩

/-- A live job on the whole mesh. -/
def job1 : Job := { Job.init 1 with st := .live, cw := 12, ch := 32 }

/-- A core of job 1, of the large class with four contexts. -/
def core1 : Core := { Core.init 500 with owner := some 1, partword := monitorPartword }

/-- A thread with given scalar registers. -/
def thread1 (g : Map Word) : Ctx := { Ctx.init 500 0 with st := .running, pc := 0x10000, g := g, thread := 5, trapvec := 0x2000 }

/-- A state in which a thread of job 1 executes on core (20, 10), with its context and its core as given. -/
def stateOf (x : Ctx) (co : Core) : State :=
  { State.reset with cycle := 100, cur := home, ctxs := [(8000, x)], cores := [(500, co)], jobs := [(1, job1)], nextThread := 6 }

/-- The same with given scalar registers. -/
def small (g : Map Word) : State := stateOf (thread1 g) core1

/-- An operation of that thread. -/
def op1 (body : OpBody) : Op :=
  { id := 9, ctx := home, thread := 5, record := none, job := 1, gen := 0, pc := 0x10000, word := 0, addr := 0, body := body, dst := some (.g 3),
    ord := .plain, scope := .dev, plain := false, region := 0, fallible := true, jidx := none, mx := false, reason := 0, reported := false,
    left := true, loc := none, performed := false, deadline := 0, parked := false, widx := none, wrec := none, replay := false, blocking := false }

/-- The checks of `State.Ready` as one decision. -/
def readyB (s : State) (w : Bool) (rs : List Reg) : Bool :=
  (!w || (!s.outstanding s.cur && (s.ctx s.cur).faultTrap.isNone)) && decide (regTrap (s.core s.cur.core).partword (s.ctx s.cur) rs = none)

theorem ready_of {s : State} {w : Bool} {rs : List Reg} (h : readyB s w rs = true) : s.Ready w rs := by
  simp only [readyB, Bool.and_eq_true, Bool.or_eq_true, decide_eq_true_eq, Option.isNone_iff_eq_none] at h
  obtain ⟨h1, h2⟩ := h
  refine ⟨fun hw => ?_, fun hw => ?_, h2⟩ <;> simp_all

/-! ## Witnesses: decoding and steps -/

/-- Decode_gives_back_what_encode_made, Decode_accepts_only_encodings. -/
theorem witness_decoding : wellFormed (.add ⟨false, 3, 1, 2⟩) = true ∧ encode (.add ⟨false, 3, 1, 2⟩) ≠ [] ∧
    decode [0x00182101#32] = .ok (.add ⟨false, 3, 1, 2⟩) := by decide

/-- Step_runs_decoded_instruction: the state after reset with SUB g7, g6, g3 placed. -/
theorem witness_step :
    let s := State.reset.withFetchWord 32 0x0038C182
    let c := s.slotCtx 0
    let t : State := { s with slots := [], cur := c }
    firstDue s.cycle [] s.agenda = none ∧ s.slots = [0] ∧ t.die (dieOf 0) = .run ∧ (t.ctx c).st = .running ∧ (t.ctx c).busy = .idle ∧
    (t.ctx c).notBefore ≤ t.cycle ∧ t.icinvOut c = false ∧ t.asyncDue c = none ∧ t.fetch c = .words [0x0038C182#32] ∧
    decode [0x0038C182#32] = .ok (.sub ⟨false, 7, 6, 3⟩) ∧ (t.ctx c).loopTrap (.sub ⟨false, 7, 6, 3⟩) 0x0038C182#32 1 = none := by decide

/-- Step_order_of_work: the all-zero word, which does not decode; an event that is due; and no slot left. -/
theorem witness_step_order :
    (let s := State.reset.withFetchWord 32 0
     let c := s.slotCtx 0
     let t : State := { s with slots := [], cur := c }
     s.slots = [0] ∧ (t.ctx c).st = .running ∧ t.fetch c = .words [0#32] ∧ decode [0#32] = .unassigned 0 ∧ t.outstanding c = false ∧
       (t.ctx c).faultTrap = none ∧ t.icinvOut c = false ∧ t.asyncDue c = none ∧ (t.ctx c).notBefore ≤ t.cycle ∧ (t.ctx c).busy = .idle ∧
       t.die (dieOf 0) = .run ∧ firstDue s.cycle [] s.agenda = none) ∧
    firstDue 0 [] [⟨0, none, .lifeFlush, .nothing⟩] = some (⟨0, none, .lifeFlush, .nothing⟩, []) ∧
    firstDue State.reset.cycle [] State.reset.agenda = none ∧ State.reset.slots = [] := by decide

set_option maxRecDepth 20000 in
/-- Step_keeps_canonical_data: the state after reset is canonical and steps. -/
theorem witness_canonical : State.reset.Ok ∧ ∃ t, step State.reset = .next t :=
  ⟨⟨by decide, by decide, by decide, by decide, by decide, by decide⟩, _, rfl⟩

/-! ## Witnesses: scalar instructions -/

/-- Checks_before_the_effect: g20 in the small class with nothing outstanding, three registers and two; a register that is pending with its long
operation outstanding; and a marked instruction while one is outstanding. -/
theorem witness_checks :
    (let s := stateOf (thread1 []) { core1 with partword := 0x04000010 }
     s.outstanding s.cur = false ∧ s.now.faultTrap = none ∧ [gr 20, gr 1, gr 2].find? (Reg.beyond (s.core s.cur.core).partword) = some (gr 20) ∧
       [gr 1, gr 20].find? (Reg.beyond (s.core s.cur.core).partword) = some (gr 20)) ∧
    (let s := { stateOf { thread1 [] with pend := [.g 3] } core1 with ops := [op1 (.result 0 0)] }
     [gr 1, gr 3, gr 2].find? (Reg.beyond (s.core s.cur.core).partword) = none ∧
       [gr 1, gr 3, gr 2].find? (fun r => s.now.pend.contains r) = some (gr 3) ∧ s.outstanding s.cur = true ∧ rising s.ctxs = true) ∧
    (firstWord (.vmul ⟨true, 1, 2, 3, 0, .s16⟩)).getLsbD 31 = true := by decide

/-- Field_and_mask_results: registers of every file are read back. -/
theorem witness_register_files :
    (let x := thread1 [(1, 5)]
     rising x.g = true ∧ rising x.v = true ∧ rising x.m = true) := by decide

/-- The statements about short scalar instructions, immediates, masks, branches and vectors. -/
theorem witness_ready : (small [(1, 5), (2, 7)]).Ready false [gr 3, gr 1, gr 2] ∧ (small []).Ready true [vr 1, vr 2, vr 3] ∧
    (small []).Ready false [vr 1, gr 2] ∧ (small []).Ready false [.g 15] ∧ (small []).Ready false [gr 1, .g 15] ∧ (small []).Ready false [] ∧
    rising (small []).ctxs = true :=
  ⟨ready_of (by decide), ready_of (by decide), ready_of (by decide), ready_of (by decide), ready_of (by decide), ready_of (by decide), by
   decide⟩

/-- Whether an instruction answers a next state, from the state in which nothing hinders it. -/
def runsB (i : Instr) (w : Bool) (rs : List Reg) : Bool :=
  readyB (small []) w rs && match exec i (small []) with
    | .next _ => true
    | _ => false

set_option maxRecDepth 8000 in
/-- Register_only_frames: an instruction of each form, short and long, that may execute and answers a next state; XY and XYADD without a trap. -/
theorem witness_frames :
    (runsB (.add ⟨false, 3, 1, 2⟩) false [gr 3, gr 1, gr 2] && runsB (.clz ⟨false, 3, 1⟩) false [gr 3, gr 1] &&
      runsB (.addi ⟨false, 3, 1, 5⟩) false [gr 3, gr 1] && runsB (.shli ⟨true, 3, 1, 5⟩) true [gr 3, gr 1] && runsB (.li ⟨false, 3, 5⟩) false [gr 3] &&
      runsB (.lih ⟨false, 3, 1, 5⟩) false [gr 3, gr 1] && runsB (.mget ⟨false, 1, 3⟩) false [gr 3] && runsB (.vext ⟨false, 1, 2, 0, .s16⟩) false [vr 1, gr 2] &&
      runsB (.vadd ⟨false, 1, 2, 3, 0, .s16⟩) false [vr 1, vr 2, vr 3] && runsB (.vabs ⟨false, 1, 2, 0, .s16⟩) false [vr 1, vr 2] &&
      runsB (.vbcast ⟨false, 1, 2, 0, .s16⟩) false [vr 1, gr 2] && runsB (.vcmpEq ⟨false, 1, 2, 3, 0, .s16⟩) false [vr 2, vr 3] &&
      runsB (.mand ⟨false, 1, 2, 3⟩) false [] && runsB (.mnot ⟨false, 1, 2⟩) false [] && runsB (.mset ⟨false, 2, 1⟩) false [gr 2]) = true ∧
    (runsB (.mul ⟨false, 3, 1, 2⟩) false [gr 3, gr 1, gr 2] && runsB (.muli ⟨false, 3, 1, 5⟩) false [gr 3, gr 1] &&
      runsB (.vmul ⟨false, 1, 2, 3, 0, .s16⟩) false [vr 1, vr 2, vr 3] && runsB (.vcvt ⟨false, 1, 2, 1, 0, .s16⟩) false [vr 1, vr 2] &&
      runsB (.vrcp ⟨false, 1, 2, 0, .f32⟩) false [vr 1, vr 2] && runsB (.vplane ⟨false, 1, 2, 3, 0, .s16⟩) false [vr 1, vr 2] &&
      runsB (.vfredadd ⟨false, 1, 2, 0, .f32⟩) false [vr 1, gr 2]) = true ∧
    (let s := small [(1, 2 ^ 14 + 20 * 128 + 10), (2, 0)]
     exec (.xyadd ⟨false, 3, 1, 2⟩) s = .next (s.setCtx home ((s.now.setG 3 (2 ^ 14 + 20 * 128 + 10)).advance 1)) ∧
     ((s.now.setG 3 (2 ^ 14 + 20 * 128 + 10)).advance 1).intrap = false ∧ s.outstanding s.cur = false) :=
  ⟨by decide, by decide, rfl, by decide, by decide⟩

/-- Coordinate_results: XY at the corners of the mesh and one column outside it; XYADD inside, outside, and of neither form. -/
theorem witness_coordinates :
    (let f : BitVec 15 := 0x57BF
     f.getLsbD 14 = true ∧ (f.extractLsb' 7 7).toNat = 47 ∧ (f.extractLsb' 0 7).toNat = 63) ∧
    (let f : BitVec 15 := 0x5800
     f.getLsbD 14 = true ∧ (f.extractLsb' 7 7).toNat = 48) ∧
    (let s := small [(1, 2 ^ 14 + 47 * 128 + 63), (2, 127)]
     (s.now.getG 2).toNat % 2 ^ 14 = (0#7).toNat * 128 + (127#7).toNat ∧ s.inRect (s.jobOf s.cur.core) (48 * 62 + 47) = true) ∧
    (let s := small [(1, 2 ^ 61 + 47 * 2 ^ 53 + 63 * 2 ^ 46), (2, 128)]
     (s.now.getG 2).toNat % 2 ^ 14 = (1#7).toNat * 128 + (0#7).toNat ∧ ¬ (47 + (1#7).toInt ≤ 47)) := by decide

/-- The operand of XYADD that is of neither form: the number 0. -/
theorem witness_coordinates_neither (x y off : Nat) (hx : x < 128) (hy : y < 128) (ho : off < 2 ^ 20) :
    (0 : Word) ≠ 2 ^ 14 + word (x * 128 + y) ∧ (0 : Word) ≠ word (2 ^ 61 + x * 2 ^ 53 + y * 2 ^ 46 + off) := by
  have e : (2 ^ 14 : Word) = 0x4000#64 := by decide
  rw [e]
  constructor <;> intro h <;> have := congrArg BitVec.toNat h <;> simp [word] at this <;> omega

/-- Branch_targets: an aligned target and one that is not. -/
theorem witness_branches : ((small [(1, 0x2000)]).now.getG 1).toNat % 4 = 0 ∧ ((small [(1, 0x2002)]).now.getG 1).toNat % 4 ≠ 0 := by decide

/-- Loop_begins_and_steps: inside a loop; a count that is too large, at the bound, zero, and the largest that is not; and the three cases of
the step. -/
theorem witness_loops :
    (stateOf { thread1 [] with loopcnt := 2 } core1).now.loopcnt ≠ 0 ∧ (small []).now.loopcnt = 0 ∧
    2 ^ 32 ≤ ((small [(1, 0x100000000)]).now.getG 1).toNat ∧ (small []).now.getG 1 = 0 ∧ ((small [(1, 0xFFFFFFFF)]).now.getG 1).toNat < 2 ^ 32 ∧
    (let x := { thread1 [] with loopcnt := 2, loopend := 0x10000 }
     x.loopcnt ≠ 0 ∧ x.pc + BitVec.ofNat 64 (4 * (1 - 1)) = x.loopend ∧ 1 < x.loopcnt.toNat) ∧
    (let x := { thread1 [] with loopcnt := 1, loopend := 0x10004 }
     x.loopcnt = 1 ∧ x.pc + BitVec.ofNat 64 (4 * (2 - 1)) = x.loopend) := by decide

/-! ## Witnesses: vector instructions and loop nests -/

/-- Float_special_values: a signalling NaN of each format, and a value of the format that is neither infinite nor zero. -/
theorem witness_floats : isNaN .f16 0x7C01 = true ∧ isSNaN .f16 0x7C01 = true ∧ isNaN .bf16 0x7F81 = true ∧ isNaN .f32 0x7F800001 = true ∧
    (0x7F800001 : Nat) < 2 ^ ETy.f32.bits ∧ isNaN .f32 1 = false ∧ fExp .f32 1 ≠ ETy.f32.emax ∧ fFrac .f32 1 ≠ 0 := by decide

/-- Float_special_values: finite operands whose sum is not zero; and the example of R87, 0x3F80_8000 into BF16, half way between 0x3F80 and 0x3F81,
under RNE, RUP and RSTO; in F16 a value above the largest finite one, and one below the least normal, with their flags. -/
theorem witness_rounding :
    (fval .f16 0x3C00 = .fin false 1024 (-10) ∧ fval .f16 0xBC01 = .fin true 1025 (-10)) ∧
    (roundTo .bf16 0 0 false 0x808000 (-23) false = (0x3F80, 0x08) ∧ roundTo .bf16 3 0 false 0x808000 (-23) false = (0x3F81, 0x08) ∧
      roundTo .bf16 4 0x42021 false 0x808000 (-23) false = (0x3F80, 0x08)) ∧
    (roundTo .f16 0 0 false 1 16 false = (0x7C00, 0x28) ∧ roundTo .f16 1 0 true 1 16 false = (0xFBFF, 0x28)) ∧
    roundTo .f16 0 0 false 3 (-25) false = (2, 0x18) := by decide

/-- Vector_conversions_planes_and_float_reductions: VCVT from BF16 into F32; four planes of a byte; no lane, one lane, and four lanes active. -/
theorem witness_conversions :
    ETy.ofCode ((26#5).extractLsb' 0 4) = some .f32 ∧ cvtPair ETy.bf16.lanes ETy.f32.lanes ((26#5).toNat / 16) 3 = some 7 ∧
    cvtPair ETy.f32.lanes ETy.bf16.lanes 1 3 = none ∧ (3#4).toNat < ETy.s8.bits ∧ (small []).now.rm ≠ 4 ∧
    (∀ k, k < ETy.f32.lanes → ((small []).now.getM 1).getLsbD k = false) ∧
    (let s := stateOf { thread1 [] with m := [(1, 8)] } core1
     (s.now.getM 1).getLsbD 3 = true ∧ ∀ j, j < ETy.f32.lanes → j ≠ 3 → (s.now.getM 1).getLsbD j = false) ∧
    (∀ k, k < 4 → ((small []).now.getM 0).getLsbD k = true) := by decide

/-- Vector_lane_moves: the last lane of a type. -/
theorem witness_lane_moves : (7#4).toNat < ETy.s16.lanes := by decide

/-- A nest of two iterations of VADD on bytes of the own pool. -/
def nest1 : Nest := ⟨false, .add, .s8, 0, 0, 0, 0, 0, 3, 1, 2, [⟨1, 1, 1, 1⟩]⟩

/-- A state in which that nest runs. -/
def nestState (m : Nat) : State :=
  let n : Nest := { nest1 with m := BitVec.ofNat 3 m }
  { stateOf { thread1 [(1, 0x40000), (2, 0x41000), (3, 0x42000)] with m := [(1, 0xFFFE)], busy := .nest ⟨n, 0, 0, 0x40000, 0x41000, 0x42000, []⟩ }
      core1 with arg := .ctx home }

set_option maxRecDepth 4000 in
/-- Loop_nests: a nest that begins, one that TRET resumes at its end, a step that completes, one whose address is misaligned for its type,
and an iteration of an inactive lane. -/
theorem witness_nests :
    (small [(1, 0x40000)]).Ready true [gr nest1.bd, gr nest1.ba, gr nest1.bb] ∧
    ((nest1.levels.map fun l => l.ext.toNat + 1).foldl (· * ·) 1 = 2 ∧
     (let x := { thread1 [] with resumed := true, trapinfo := 2 ^ 63 + 2 }
      (if x.resumed && x.trapinfo.getLsbD 63 then x.trapinfo.toNat % 2 ^ 55 else 0) = 2) ∧
     (let s := nestState 0
      let r : NestRun := ⟨nest1, 0, 0, 0x40000, 0x41000, 0x42000, []⟩
      (s.ctx home).busy = .nest r ∧ (s.iterations home r (min r.group (nestTotal r.nest - r.t))).2.2 = none) ∧
     (let n : Nest := { nest1 with t := .s16 }
      let r : NestRun := ⟨n, 0, 0, 0x40001, 0x41000, 0x42000, []⟩
      let s := { stateOf { thread1 [] with busy := .nest r } core1 with arg := .ctx home }
      ((s.iterations home r (min r.group (nestTotal r.nest - r.t))).2.2).isSome = true) ∧
     (let s := nestState 1
      (indexes 0 (nestExts nest1)).headD 0 = 0 ∧ ((s.ctx home).getM 1).getLsbD (0 % ETy.s8.lanes) = false)) :=
  ⟨ready_of (by decide), by decide⟩


/-! ## Witnesses: memory accesses -/

/-- Whether a check answers a place. -/
def okB {α : Type} (r : Except Trap α) : Bool :=
  match r with
  | .ok _ => true
  | .error _ => false

theorem ok_of {α : Type} {r : Except Trap α} (h : okB r = true) : ∃ q, r = .ok q := by
  cases r with
  | ok q => exact ⟨q, rfl⟩
  | error t => simp [okB] at h

/-- Whether a plain access can make its marks. -/
def marksB (r : MarkAns × Nat) : Bool :=
  match r with
  | (.ok _, _) => true
  | _ => false

theorem marks_of {s : State} {w : Bool} {loc n : Nat} (h : marksB (s.markLines ⟨none, s.cur⟩ s.now.region w (s.markable loc n)) = true) :
    s.marksAllow w loc n := by
  simp only [marksB] at h
  split at h
  · exact ⟨_, _, ‹_›⟩
  · simp at h

/-- A state whose registers name a word of the own pool (g1), a number (g2, g3) and a CORE address (g4), with bytes at the first. -/
def poolState : State :=
  (small [(1, 0x40000), (2, 7), (3, 0x1122334455667788), (4, 2 ^ 61 + 3 * 2 ^ 53 + 5 * 2 ^ 46 + 0x40000)]).wr64 (2 ^ 40 + 500 * 2 ^ 20 + 0x40000)
    0xF000000000000005

/-- The same with that word EMPTY. -/
def emptyState : State := poolState.setFull (2 ^ 40 + 500 * 2 ^ 20 + 0x40000) false

/-- A location of core (3, 5), and the operation `op1` on its way to it. -/
def farLoc : Nat := 2 ^ 40 + 243 * 2 ^ 20 + 0x40000
def opAt (body : OpBody) : Op := { op1 body with addr := coreAddr 243 0x40000, loc := some farLoc }

/-- A state in which an operation has arrived at its home; its word there holds 5, full or not. -/
def homeState (full : Bool) (o : Op) : State :=
  ({ small [] with ops := [o], arg := .num 9, nextId := 10 }.wr64 farLoc 5).setFull farLoc full

/-- STC: a source (g1), a reservation (g2), a control word of 24 bytes (g3), and a source of LDX outside the own pool (g4). -/
def packState (count : Word) : State :=
  (small [(1, 0x40000), (2, 0x50000), (3, count), (4, 2 ^ 61 + 3 * 2 ^ 53 + 5 * 2 ^ 46 + 0x40000)]).wr64 (2 ^ 40 + 500 * 2 ^ 20 + 0x40000) 0xFF00

/-- The scan of 24 bytes in progress. -/
def scanState : State :=
  let s := packState 24
  { s.setCtx home { s.now with busy := .stcScan ⟨false, 1, 2, 3, .plain⟩ 0x40000 0x50000 24 [] } with arg := .ctx home }

/-- The state after the marks of its first 16 bytes. -/
def scanMarked : State :=
  match scanState.markLines ⟨none, home⟩ 0 false (scanState.markable (2 ^ 40 + 500 * 2 ^ 20 + 0x40000) 16) with
  | (.ok t, _) => t
  | _ => scanState

set_option maxRecDepth 8000 in
/-- The numbers of a range are read back. -/
theorem witness_bytes : rising poolState.mem = true ∧ (7 : Nat) < 8 := by decide

set_option maxRecDepth 8000 in
/-- Accesses_are_checked_first: an address of no form, one outside the mesh, a misaligned one, and one of the protected area. -/
theorem witness_access_checks :
    (small [(1, 0x100000)]).place 500 0x100000 = .error (exact cBounds 0x100000 0) ∧
    (let a : Word := 2 ^ 61 + 48 * 2 ^ 53
     (small [(1, a)]).place 500 a = .error (exact cMesh a 0)) ∧
    ((okB ((small [(1, 0x40001)]).place 500 0x40001) = true ∧ (0x40001#64).toNat % 8 ≠ 0) ∧
     (let s := small [(1, 0x1008)]
      okB (s.place 500 0x1008) = true ∧ (0x1008#64).toNat % 8 = 0 ∧ isSelf 0x1008 = true ∧
        s.poolRangeProtected (s.jobOf 500) 500 (bits 0x1008 19 0) 8 = true) ∧
     readyB (small [(1, 0x40001)]) false [gr 3, gr 1] = true) :=
  ⟨rfl, rfl, by decide⟩

set_option maxRecDepth 8000 in
/-- Accesses_are_checked_first: an address of each form of R23, within the mesh and the rectangle and outside them, at the ends of the ranges. -/
theorem witness_places :
    ((0xFFFFF#64).toNat = 0xFFFFF ∧ (2 ^ 61 + 47 * 2 ^ 53 + 63 * 2 ^ 46 + 8 : Word).toNat = 1 * 2 ^ 61 + 47 * 2 ^ 53 + 63 * 2 ^ 46 + 8 ∧
      (small []).inRect ((small []).jobOf 500) (48 * 63 + 47) = true ∧
      (let s := (small []).setJob 1 { job1 with cw := 1, ch := 1 }
       s.inRect (s.jobOf 500) (48 * 63 + 47) = false ∧ s.clusterInRect (s.jobOf 500) (12 * 31 + 11) = false)) ∧
    ((2 ^ 62 + 11 * 2 ^ 56 + 31 * 2 ^ 51 + 8 : Word).toNat = 2 * 2 ^ 61 + 11 * 2 ^ 56 + 31 * 2 ^ 51 + 8 ∧
      (small []).clusterInRect ((small []).jobOf 500) (12 * 31 + 11) = true ∧ (3 * 2 ^ 61 + 8 : Word).toNat = 3 * 2 ^ 61 + 8 ∧
      (2 ^ 63 + 767 * 2 ^ 48 + 8 : Word).toNat = 4 * 2 ^ 61 + 767 * 2 ^ 48 + 8 ∧ 767 ≠ (small []).devnum) := by decide

/-- Accesses_are_checked_first: the address 2^20, with a must-be-zero bit of SELF set, is of none of the forms. -/
theorem witness_no_place (x y z : Nat) (hx : x < 128) (hy : y < 128) :
    let a := (0x100000#64).toNat
    ¬ (x < 2 ^ 20 ∧ a = x) ∧ ¬ (z < 2 ^ 20 ∧ a = 1 * 2 ^ 61 + x * 2 ^ 53 + y * 2 ^ 46 + z) ∧ ¬ a = 2 * 2 ^ 61 + x * 2 ^ 56 + y * 2 ^ 51 + z ∧
    ¬ a = 3 * 2 ^ 61 + x ∧ ¬ a = 4 * 2 ^ 61 + x * 2 ^ 48 + y := by
  simp only [BitVec.toNat_ofNat]
  omega

set_option maxRecDepth 8000 in
/-- Own_pool_loads_and_stores, Own_pool_atomics: a full and an empty word of the own pool, with g1 as its address. -/
theorem witness_own_pool :
    poolState.noneOut ∧ emptyState.noneOut ∧ poolState.jobOf poolState.cur.core ≠ 0 ∧ poolState.Ready false [gr 3, gr 1] ∧
    poolState.Ready false [vr 5, gr 1] ∧ poolState.Ready false [gr 1, gr 2, gr 3] ∧ isSelf 0x40000 = true ∧
    poolState.now.getG 1 = 0x40000 ∧ (∃ q, poolState.checkAccess 500 0x40000 8 = .ok q) ∧ (∃ q, poolState.checkAccess 500 0x40000 16 = .ok q) ∧
    (∃ q, poolState.checkAccess 500 0x40000 4 = .ok q) ∧ poolState.poisoned (2 ^ 40 + 500 * 2 ^ 20 + 0x40000) 16 = none ∧
    poolState.marksAllow false (2 ^ 40 + 500 * 2 ^ 20 + 0x40000) 16 ∧ poolState.marksAllow true (2 ^ 40 + 500 * 2 ^ 20 + 0x40000) 16 ∧
    ((∀ w ∈ poolState.waiters, w.loc ≠ 2 ^ 40 + 500 * 2 ^ 20 + 0x40000) ∧
     poolState.full (2 ^ 40 + 500 * 2 ^ 20 + 0x40000) = true ∧
     emptyState.full (2 ^ 40 + 500 * 2 ^ 20 + 0x40000) = false ∧
     rising poolState.ctxs = true) :=
  ⟨by unfold State.noneOut; decide, by unfold State.noneOut; decide, by decide, ready_of (by decide), ready_of (by decide), ready_of (by
   decide), by decide, by decide, ok_of (by decide), ok_of (by decide), ok_of (by decide), by decide, marks_of (by decide), marks_of (by
   decide), by decide⟩

set_option maxRecDepth 8000 in
/-- Accesses_to_other_homes_are_issued: g4 names a word of core (3, 5), with few and with four operations outstanding. -/
theorem witness_other_homes :
    let a : Word := 2 ^ 61 + 3 * 2 ^ 53 + 5 * 2 ^ 46 + 0x40000
    isSelf a = false ∧ (∃ q, poolState.checkAccess 500 a 8 = .ok q) ∧ (∃ q, poolState.checkAccess 500 a 16 = .ok q) ∧
    poolState.Ready false [gr 3, gr 4] ∧ poolState.Ready false [vr 5, gr 4] ∧ poolState.Ready false [gr 4, gr 2, gr 3] ∧
    poolState.countOps home (fun q => q.fallible) < 4 ∧ poolState.ops = [] ∧
    ¬ ({ poolState with ops := (List.range 4).map fun i => { op1 (.load 8) with id := 20 + i } }.countOps home (fun q => q.fallible) < 4) :=
  ⟨by decide, ok_of (by decide), ok_of (by decide), ready_of (by decide), ready_of (by decide), ready_of (by decide), by decide, by decide,
    by decide⟩

theorem at_home_of {s : State} {o : Op} {l : Nat} (h : s.arg = .num o.id ∧ s.op o.id = some o ∧
    (o.performed = false ∧ o.reason = 0 ∧ o.mx = false ∧ o.left = true) ∧ o.loc = some l ∧ l < 2 ^ 60 ∧ s.homeDown l = false ∧ s.stampOk o.job o.gen = true ∧
    (¬ (2 ^ 42 ≤ l ∧ 0x1FFF00 ≤ (l - 2 ^ 42) % 2 ^ 21)) ∧
    (s.locProtected o.job l o.body.size = false ∧ s.granuleRetired l o.body.size = false) ∧ s.consumed o.body l o.body.size = none ∧ o.job ≠ 0) :
    s.AtHome o l :=
  ⟨h.1, h.2.1, h.2.2.1, h.2.2.2.1, h.2.2.2.2.1, h.2.2.2.2.2.1, h.2.2.2.2.2.2.1, h.2.2.2.2.2.2.2.1, h.2.2.2.2.2.2.2.2.1, h.2.2.2.2.2.2.2.2.2.1, h.2.2.2.2.2.2.2.2.2.2⟩

set_option maxRecDepth 8000 in
/-- Homes_perform_accesses: an operation of each kind at its home, with its word full and empty; a posted store with its journal index. -/
theorem witness_homes :
    (∀ b ∈ [OpBody.load 8, .amo 0x03 7, .amo 0x0B 7, .cas 5 9], (homeState true (opAt b)).AtHome (opAt b) farLoc ∧ (opAt b).jidx = none) ∧
    (∀ fn ∈ [0, 1, 3, 4], (homeState true (opAt (.fullEmpty fn 7))).AtHome (opAt (.fullEmpty fn 7)) farLoc ∧
      (homeState true (opAt (.fullEmpty fn 7))).full farLoc = true) ∧
    (∀ fn ∈ [0, 1, 2, 3, 4], (homeState false (opAt (.fullEmpty fn 7))).AtHome (opAt (.fullEmpty fn 7)) farLoc ∧
      (homeState false (opAt (.fullEmpty fn 7))).full farLoc = false) ∧
    (let o : Op := { opAt (.store 1 16 5) with jidx := some 3 }
     (homeState true o).AtHome o farLoc) ∧
    (homeState true (opAt (.load 8))).waiters = [] ∧ (opAt (.load 8)).plain = false := by
  refine ⟨fun b hb => ?_, fun fn hf => ?_, fun fn hf => ?_, at_home_of (by decide), by decide, by decide⟩
  · simp only [List.mem_cons, List.not_mem_nil, or_false] at hb
    rcases hb with rfl | rfl | rfl | rfl <;> exact ⟨at_home_of (by decide), by decide⟩
  · simp only [List.mem_cons, List.not_mem_nil, or_false] at hf
    rcases hf with rfl | rfl | rfl | rfl <;> exact ⟨at_home_of (by decide), by decide⟩
  · simp only [List.mem_cons, List.not_mem_nil, or_false] at hf
    rcases hf with rfl | rfl | rfl | rfl | rfl <;> exact ⟨at_home_of (by decide), by decide⟩

/-- A live list with its area at 0x50000. -/
def areaList : ListEntry :=
  { desc := 0x40040, job := 1, gen := 0, live := true, reason := 0, dedup := false, wide := false, area := 0x50000, spill := 0, scap := 0,
    items := [], spilled := 0, spillHead := 0, pushes := 0, dups := 0, pops := 0, fulls := 0, high := 0, waiters := [] }

/-- A load on its way to a location. -/
def loadAt (l : Nat) : Op := { opAt (.load 8) with loc := some l }

/-- The checks of an operation that has arrived at a home, but for those that the refusals are about. -/
def arrivedB (s : State) (o : Op) (l : Nat) : Bool :=
  decide ((s.arg = .num o.id ∧ s.op o.id = some o ∧ o.performed = false ∧ o.reason = 0) ∧ o.mx = false ∧ o.left = true ∧ o.loc = some l ∧
    l < 2 ^ 60)

set_option maxRecDepth 8000 in
/-- Homes_perform_accesses: an access of a retired generation, one at a home of a die that is OFF, one each to the save area of a cluster store, to
granule 0, to the system area, to the area of a work list, and to a retired granule; and one to each side of these areas. -/
theorem witness_home_refusals :
    (arrivedB ((homeState true (loadAt farLoc)).setJob 1 { job1 with gen := 3 }) (loadAt farLoc) farLoc = true ∧
      ((homeState true (loadAt farLoc)).setJob 1 { job1 with gen := 3 }).stampOk 1 0 = false ∧ (homeState true (loadAt farLoc)).homeDown farLoc = false) ∧
    (let s := { homeState true (loadAt farLoc) with dies := [(0, DieState.off)] }
     arrivedB s (loadAt farLoc) farLoc = true ∧ s.homeDown farLoc = true ∧ (loadAt farLoc).toIsland farLoc = false) ∧
    (let s := (homeState true (loadAt 8)).setCore 243 { core1 with lists := [areaList] }
     let t := { s with badGranules := [2] }
     s.stampOk 1 0 = true ∧ s.locProtected 1 (2 ^ 42 + 0x1FDF00) 8 = true ∧ s.locProtected 1 (2 ^ 42 + 0x1FDEF8) 8 = false ∧
       s.locProtected 0 (2 ^ 40 + 243 * 2 ^ 20 + 0xFF8) 8 = true ∧ s.locProtected 1 (2 ^ 40 + 243 * 2 ^ 20 + 0x1000) 8 = true ∧
       s.locProtected 0 (2 ^ 40 + 243 * 2 ^ 20 + 0x1000) 8 = false ∧ s.locProtected 1 (2 ^ 40 + 243 * 2 ^ 20 + 0x50000) 8 = true ∧
       s.locProtected 1 (2 ^ 40 + 243 * 2 ^ 20 + 0x4FFF8) 8 = false ∧ t.granuleRetired 0x2FF8 8 = true ∧ t.granuleRetired 0x3000 8 = false) := by
  decide

set_option maxRecDepth 8000 in
/-- Fences_prefetches_and_packing: a STC of 24 bytes, control words of 0 and 4097 elements and of type 11, the first scan, and a LDX. -/
theorem witness_packing :
    (small []).Ready false [] ∧ poolState.Ready false [gr 1] ∧ (packState 24).Ready true [gr 1, gr 2, gr 3] ∧
    ((packState 24).stcTrap 500 0x40000 0x50000 24 = none ∧
     (4096 < bits (4097 : Word) 15 0) ∧
     bits (0 : Word) 15 0 = 0 ∧
     10 < bits (0xB0001 : Word) 19 16) ∧
    (scanState.arg = .ctx home ∧ (scanState.ctx home).busy = .stcScan ⟨false, 1, 2, 3, .plain⟩ 0x40000 0x50000 24 [] ∧ 16 < stcBytes 24 ∧
      scanState.poison = [] ∧ scanState.markLines ⟨none, home⟩ (scanState.ctx home).region false
        (scanState.markable (2 ^ 40 + 500 * 2 ^ 20 + 0x40000) 16) = (.ok scanMarked, 0)) ∧
    (packState 24).Ready false [gr 4, gr 2, gr 3] ∧ isSelf ((packState 24).now.getG 4) = false ∧
    (∃ q, (packState 24).checkAccess 500 ((packState 24).now.getG 4) 16 = .ok q) ∧
    ((packState 24).rangeTrap 500 0x50000 24 1 = none ∧
     (packState 0x100000018).rangeTrap 500 0x50000 24 1 = none ∧
     (packState 24).countOps home (fun q => q.fallible) < 4) :=
  ⟨ready_of (by decide), ready_of (by decide), ready_of (by decide), by decide, ⟨rfl, rfl, by decide, rfl, rfl⟩, ready_of (by decide), by
   decide, ok_of (by decide), by decide⟩

/-- Packed_forms_expand_to_their_source: two elements of the widest type, one of them zero. -/
theorem witness_packed : (10 : Nat) ≤ 10 ∧ ([0, 0, 0, 0, 1, 0, 0, 0] : List Byte).length = 2 * tyBytes 10 := by decide


/-! ## Witnesses: returns, waits, messages, groups -/

/-- Page tables for job 1: its first GiB lies at the first GiB of HBM; its continuation pool at 0x20000 has `n` free entries at 0x21000 and
0x21200. -/
def mapped (s : State) (n : Nat) : State :=
  let s := s.setJob 1 { s.job 1 with ptroot := 0x10001, poolBase := 0x6000000000020000 }
  let s := (s.wr64 0x10000 0x14001).wr64 0x14000 0x7A
  if n = 0 then s else (s.wr64 0x20000 0x6000000000021000).write 0x20008 4 n

/-- A thread with an operation outstanding, an event's argument, and the thread's context changed. -/
def waitState (o : Op) (arg : Arg) (f : Ctx → Ctx) : State :=
  let s := { small [(1, 0x40000)] with ops := [o], arg := arg, nextId := 10 }
  s.setCtx home (f s.now)

/-- The location of wait-table slot 2 of core (20, 10), with g3 and g5 in its scalar map. -/
def slotState (o : Op) (arg : Arg) : State :=
  waitState o arg id |>.wr64 (slotLoc 500 2 + 8) 0x28 |>.wr64 (slotLoc 500 2) 0x10001

/-- A fault of an earlier operation, still to be reported. -/
def fault1 : FaultEntry := ⟨op1 (.load 8), 0x40, cPage, false, false, 0, false⟩

/-- A reserved entry of the wait table. -/
def wait1 : WaitEntry := ⟨coreAddr 243 0x40000, 0, 3, 0, false, 0, 9⟩

/-- A wait on a word of core (3, 5), with its deadline, its wait-table entry reserved or not. -/
def wop (fn deadline : Nat) (widx : Option Nat) : Op :=
  { opAt (.fullEmpty fn 0) with deadline := deadline, widx := widx, fallible := true }

/-- The state that holds it, with the entry 0 of the core's wait table where it is reserved, and the word full or not. -/
def wordWait (full : Bool) (o : Op) (arg : Arg) : State :=
  let s := ((waitState o arg fun x => { x with pend := [.g 3] }).wr64 farLoc 5).setFull farLoc full
  if o.widx = none then s else s.setCore 500 { core1 with waits := [(0, some wait1)] }

/-- A state whose job 1 holds only the cluster of core (20, 10). -/
def oneCluster (s : State) : State := s.setJob 1 { s.job 1 with cx := 5, cy := 5, cw := 1, ch := 1 }

/-- A message of two words (g10, g11) on channel 5 to core (3, 5) of the mesh; a second destination outside the mesh (g2), and one outside
the rectangle of the one cluster. -/
def sendState : State :=
  small [(1, 2 ^ 25 + 2 ^ 16 * 5 + 2 ^ 14 + 128 * 3 + 5), (2, 2 ^ 14 + 128 * 48), (3, 2 ^ 25 + 2 ^ 16 * 5), (4, 2 ^ 62), (5, 0x3000), (6, 0x1F0), (10, 11),
    (11, 12)]

/-- Four messages are outstanding. -/
def four (body : OpBody) (s : State) : State := { s with ops := (List.range 4).map (fun i => { op1 body with id := 20 + i, fallible := true }), nextId := 30 }

theorem live_of {s : State} {id : Nat} {o : Op} (h : s.op id = some o ∧ o.record = none ∧ (s.ctx o.ctx).thread = o.thread ∧ o.replay = false) :
    s.Live id o := ⟨h.1, h.2.1, h.2.2.1, h.2.2.2⟩

/-- The operations and states of the returns: a result of a continuation in wait-table slot 2, a fence, a posted store, and a wait in MARKER. -/
def ownedOp : Op := { op1 (.result 7 0) with record := some (coreAddr 500 (0x2000 + 384)) }
def fenceOp : Op := { op1 .fence with ord := .seqcst, scope := .dom }
def storeOp : Op := { op1 (.store 0 4 5) with addr := coreAddr 243 0x40000, jidx := some 0, left := false }
def markState (f : Ctx → Ctx) : State := { waitState storeOp (.ctx home) (fun x => f { x with st := .marker }) with ops := [] }

set_option maxRecDepth 8000 in
/-- Results_and_waits_end: a result, a fault, a result of a continuation, a fence, a store that leaves, is accepted, is refused; and waits that
end with a fault, a due trap, neither; and a wait for a pool entry with one free and with none. -/
theorem witness_returns :
    ((waitState (op1 (.result 7 3)) (.answer 9 none) id).Live 9 (op1 (.result 7 3))) ∧
    ((waitState (op1 (.load 8)) (.fault 9 cPage 0x40) id).Live 9 (op1 (.load 8))) ∧
    ((let s := slotState ownedOp (.num 9)
      s.op 9 = some ownedOp ∧ s.recordLoc 1 (coreAddr 500 (0x2000 + 384)) = some (slotLoc 500 2) ∧
        s.slotOf (slotLoc 500 2) (.g 3) = some (slotLoc 500 2 + 64) ∧ ownedOp.replay = false ∧ bits (s.rd64 (slotLoc 500 2 + 16)) 62 59 ≠ 7) ∧
     (let s := waitState fenceOp (.num 9) id
      s.op 9 = some fenceOp ∧ s.before fenceOp = [] ∧ fenceOp.releases = true ∧ (s.clearMarks home 0 .dom).marksLeft fenceOp = false ∧
        (({ s with peerLog := [⟨home, 7, 0, 0, false, true⟩] } : State).clearMarks home 0 .dom).marksLeft fenceOp = true) ∧
     (let s := waitState storeOp (.num 9) id
      s.op 9 = some storeOp ∧ s.before storeOp = [] ∧ storeOp.releases = false ∧ storeOp.record = none ∧ (s.ctx home).thread = storeOp.thread ∧ rising s.ctxs = true) ∧
     ((markState fun x => { x with faults := [fault1] }).outstanding home = false ∧
       ((markState fun x => { x with faults := [fault1] }).ctx home).faultTrap.isSome = true) ∧
     (((markState fun x => { x with trapDue := some (exact cBounds 5 0) }).ctx home).faultTrap = none) ∧
     (((markState id).ctx home).st = .marker ∧ ((markState id).ctx home).trapDue = none)) ∧
    ((mapped (markState fun x => { x with busy := .poolWait 3 }) 1).takeEntry 1).isSome = true ∧
    (mapped (markState fun x => { x with busy := .poolWait 3 }) 0).takeEntry 1 = none ∧
    (mapped (markState fun x => { x with busy := .poolWait 3 }) 0).poison = [] :=
  ⟨live_of (by decide), live_of (by decide), by decide, by decide, rfl, rfl⟩

set_option maxRecDepth 8000 in
/-- Full_empty_waits: a wait that is sent again, one that parks, a park request whose word is full and one whose word is empty, one that finds
no room, and a wake. -/
theorem witness_word_waits :
    ((wordWait false (wop 0 1000 none) (.num 9)).Live 9 (wop 0 1000 none) ∧ (wordWait false (wop 0 1000 none) (.num 9)).cycle < 1000) ∧
    ((wordWait false (wop 1 0 none) (.num 9)).Live 9 (wop 1 0 none) ∧
      ((wordWait false (wop 1 0 none) (.num 9)).core 500).freeEntry = some 0 ∧ (wop 1 0 none).deadline ≤ 100) ∧
    ((let s := wordWait true (wop 1 0 (some 0)) (.num 9)
      s.op 9 = some (wop 1 0 (some 0)) ∧ s.full farLoc = true ∧ s.waiters = [] ∧ (wop 1 0 (some 0)).loc = some farLoc ∧ farLoc < 2 ^ 60 ∧ s.homeDown farLoc = false) ∧
     (let s := wordWait false (wop 1 0 (some 0)) (.num 9)
      s.full farLoc = false ∧ (s.waiters.filter fun w => w.index.isSome && homeOf w.loc == homeOf farLoc).length < (homeOf farLoc).waiterRoom) ∧
     (((mapped (wordWait false (wop 1 0 none) (.num 9)) 2).parkInPool (wop 1 0 none) 2).isSome = true ∧ (wop 1 0 none).record = none ∧
       ((mapped (wordWait false (wop 1 0 none) (.num 9)) 2).ctx home).thread = (wop 1 0 none).thread)) ∧
    ((wordWait false (wop 1 0 (some 0)) (.wake 500 0 9 77)).Live 9 (wop 1 0 (some 0)) ∧
      mget none ((wordWait false (wop 1 0 (some 0)) (.wake 500 0 9 77)).core 500).waits 0 = some wait1 ∧ wait1.op = 9 ∧ wait1.parked = false) :=
  ⟨⟨live_of (by decide), by decide⟩, ⟨live_of (by decide), by decide, by decide⟩, by decide, ⟨live_of (by decide), by decide, by decide,
   by decide⟩⟩

/-- TASKSET of channel 5 of core (3, 5), a record address and a descriptor (g8, g9). -/
def messageState (w : Word) : State := small [(1, w), (5, 0x3000), (6, 0x1F0), (8, 0x40040), (9, coreAddr 243 0x40040), (10, 11), (11, 12)]

set_option maxRecDepth 8000 in
/-- Messages_are_issued: a target in the rectangle, one outside the mesh, one outside the rectangle, no coordinate; four outstanding messages;
SENDK; TASKSET; RESUME of a record and of a misaligned one. -/
theorem witness_messages :
    ((let a := sendState.now.getG 1
      bits a 63 27 = 0 ∧ bits a 23 22 = 0 ∧ bits a 15 15 = 0 ∧ bits a 26 24 ≤ 4 ∧ bits a 14 14 = 1 ∧ bits a 13 7 ≤ 47 ∧ bits a 6 0 ≤ 63 ∧
        sendState.inRect 1 (48 * bits a 6 0 + bits a 13 7) = true ∧ (oneCluster sendState).inRect 1 (48 * bits a 6 0 + bits a 13 7) = false ∧
        regTrap (sendState.core 500).partword sendState.now ((List.range (bits a 26 24)).map fun i => .g (10 + i)) = none) ∧
     47 < bits (sendState.now.getG 2) 13 7 ∧
     bits (sendState.now.getG 3) 14 14 = 0 ∧
     sendState.countOps home (fun p => p.body.isMessage) < 4 ∧
     4 ≤ (four (.send 0 0 0 []) sendState).countOps home (fun p => p.body.isMessage)) ∧
    sendState.Ready false [gr 1] ∧ (oneCluster sendState).Ready false [gr 3, gr 4] ∧
    (oneCluster sendState).ductusCore 1 4 ≠ none ∧ (sendState.now.getG 4).toNat < 2 ^ 63 ∧
    (messageState 0x54185).Ready false [gr 1, gr 5, gr 6] ∧ (messageState 0x54185).destCore 500 0x54185 = .ok (48 * 5 + 3 : Nat) ∧
    (liveSetOk 0x1F0 = false ∧
     liveSetOk 0xF0 = true ∧
     3 ≤ bits (0x3000000 : Word) 25 24 ∧
     (messageState 0).checkLine 500 0x40040 192 = none) ∧ (messageState 0).Ready false [gr 8, gr 5] ∧ (0x40008 : Word).toNat % 64 ≠ 0 :=
  ⟨by decide, ready_of (by decide), ready_of (by decide), by decide, by decide, ready_of (by decide), rfl, by decide, ready_of (by
   decide), by decide⟩

set_option maxRecDepth 8000 in
/-- Parks_and_groups_are_issued: PARK of a good record with maps (g2, g3) and with a rewrite open, JOIN, and a barrier with a pool entry and
without one. -/
theorem witness_parks :
    (let s := small [(1, 0x40040), (2, 0x38), (3, 2), (4, coreAddr 243 0x40040)]
     s.Ready true [gr 1, gr 2, gr 4, .g 3] ∧ s.now.rewrites = [] ∧ s.unsettledJournal home = false ∧ rising s.ctxs = true ∧
       s.checkLine 500 0x40040 192 = none ∧ s.parkMapsTrap 500 0x38 2 = none ∧ isSelf (coreAddr 243 0x40040) = false ∧
       s.checkLine 500 (coreAddr 243 0x40040) 64 = none ∧ s.takeEntry 1 = none ∧ s.poison = [] ∧ s.peersOwe home 0 = false ∧
       s.countOps home (fun q => q.fallible) < 4) ∧
    (stateOf { thread1 [] with rewrites := [⟨0, true, []⟩] } core1).now.rewrites ≠ [] ∧
    (((mapped (small []) 2).clearMarks home 0 .dom).takeEntry 1).isSome = true :=
  ⟨⟨ready_of (by decide), by decide, by decide, by decide, by decide, by decide, by decide, by decide, rfl, rfl, by decide, by decide⟩,
   by decide, by decide⟩

/-- Records and groups at their homes: the operation, the record or descriptor, and its state. -/
def parkOp : Op := { op1 (.park 0x38 2 6) with addr := 0x40040 }
def resumeOp : Op := { op1 (.resume 88) with addr := 0x40040 }
def tasksetOp : Op := op1 (.taskset 243 5 0 0x3000 0xF0)
def arriveOp : Op := { op1 (.arrive none 0 6) with addr := coreAddr 243 0x40000 }
def recordState (o : Op) (st : Nat) : State := (waitState o (.num 9) id).write (poolLoc 500 0x40040) 1 st
def groupState (o : Op) (members arrived : Nat) : State :=
  (((waitState o (.num 9) id).write farLoc 4 members).write (farLoc + 4) 4 arrived).write (farLoc + 8) 4 7

set_option maxRecDepth 8000 in
/-- Records_and_groups_at_their_homes: records that are free, parked and resumed early, groups whose last member arrives, JOIN and LEAVE. -/
theorem witness_records :
    (∀ st, st < 4 → (recordState parkOp st).read (poolLoc 500 0x40040) 1 % 4 = st) ∧
    (recordState parkOp 0).op 9 = some parkOp ∧ (recordState parkOp 0).reach 500 1 .both 0x40040 192 = .ok (poolLoc 500 0x40040) ∧
    (recordState resumeOp 1).op 9 = some resumeOp ∧
    ((recordState resumeOp 1).stampOk 1 0 = true ∧
     ((recordState resumeOp 1).resumeCancelled 1 (poolLoc 500 0x40040) = false ∧ (recordState resumeOp 1).resumeWaits 1 (poolLoc 500 0x40040) = false ∧
       resumeOp.record = none ∧ resumeOp.replay = false) ∧
     bits ((recordState resumeOp 1).rd64 (poolLoc 500 0x40040 + 16)) 62 59 = 0) ∧
    ((waitState tasksetOp (.num 9) id).setCore 243 core1).op 9 = some tasksetOp ∧ (job1.st = .live ∧ tasksetOp.record = none ∧ tasksetOp.replay = false ∧
      ((waitState tasksetOp (.num 9) id).setCore 243 core1).jobAway 1 243 = false ∧ job1.sched ≠ .quiesced) ∧
    (groupState arriveOp 3 2).reach 500 1 .both arriveOp.addr 64 = .ok farLoc ∧
    ((groupState arriveOp 3 2).read farLoc 4 ≤ (groupState arriveOp 3 2).read (farLoc + 4) 4 + 1 ∧
     (groupState arriveOp 3 2).read (farLoc + 4) 4 < 2 ^ 32 - 1 ∧
     (groupState arriveOp 3 2).rd64 (farLoc + 24) = 0 ∧
     rising (groupState arriveOp 3 2).mem = true) ∧
    (∀ leave : Bool, (groupState (opAt (.member leave)) 5 0).AtHome (opAt (.member leave)) farLoc) ∧
    (groupState (opAt (.member true)) 5 0).read farLoc 4 = 5 ∧ (groupState (opAt (.member true)) 5 0).read (farLoc + 4) 4 = 0 :=
  ⟨by decide, rfl, rfl, rfl, by decide, rfl, by decide, rfl, by decide, fun leave => by cases leave <;> exact at_home_of (by decide), by
   decide, by decide⟩

/-- Messages that arrive: a start message for channel 5, whose ENTRY is 0x3000; a state with an entry in the ring of the core. -/
def msg1 : Msg := ⟨1, 0, 243, 500, .start 5 2 [11, 12], some 9, 243⟩
def sendOp : Op := { op1 (.send 500 5 2 [11, 12]) with addr := 5 }
def arriveState (m : Msg) : State := (waitState sendOp (.msg m) id).wr64 (poolLoc 500 0x1050) 0x3000
def entry1 (b : MsgBody) : RingEntry := ⟨0, 0, 0, 1, 0, 5, b⟩
def ringState (b : MsgBody) (i : Nat) : State :=
  ((waitState sendOp (.pair 500 i) id).wr64 (poolLoc 500 0x1050) 0x3000).setCore 500 { core1 with ring := [(i, some (entry1 b))] }
def recreateState : State :=
  let l := poolLoc 500 0x40040
  (((ringState (.recreate (coreAddr 500 0x40040)) 112).write l 1 2).wr64 (l + 8) 0x38).wr64 (l + 16) (word (7 * 2 ^ 53 + 2 ^ 50 + 3))

set_option maxRecDepth 8000 in
/-- Messages_arrive_and_are_dispatched: a message that finds an entry, one that finds the ring full, one of a retired generation; and the
dispatch of a start, a re-creation and a wake. -/
theorem witness_arrivals :
    ((arriveState msg1).stampOk 1 0 = true ∧ ((arriveState msg1).job 1).sched = .resident ∧ ((arriveState msg1).core 500).owner = some 1 ∧
      (arriveState msg1).taskEntry 500 5 ≠ 0 ∧ ringSlot ((arriveState msg1).core 500).ring msg1.body = some 0 ∧
      ringSlot ((List.range 128).map fun i => (i, some (entry1 msg1.body))) msg1.body = none ∧
      (arriveState msg1).stampOk 1 7 = false ∧ (arriveState msg1).op 9 = some sendOp ∧ sendOp.record = none ∧ sendOp.replay = false) ∧
    (let b : MsgBody := .start 5 2 [11, 12]
     (ringState b 0).dispatchee 500 0 = some (entry1 b, some ⟨500, 1⟩)) ∧
    (let b : MsgBody := .recreate (coreAddr 500 0x40040)
     recreateState.dispatchee 500 112 = some (entry1 b, some ⟨500, 1⟩) ∧
       recreateState.foreign (coreAddr 500 0x40040) = false ∧ recreateState.recordLoc 1 (coreAddr 500 0x40040) = some (poolLoc 500 0x40040) ∧
       recreateState.read (poolLoc 500 0x40040) 1 % 4 = 2 ∧ bits (recreateState.rd64 (poolLoc 500 0x40040 + 16)) 62 59 = 0 ∧
       beyondClass core1.partword 0x38 3 = none) ∧
    (let b : MsgBody := .wake 2 77
     (ringState b 112).dispatchee 500 112 = some (entry1 b, some ⟨500, 1⟩)) ∧
    ((ringState (.wake 2 77) 112).core 500).waits = [] ∧ (ringState (.wake 2 77) 112).Ok :=
  ⟨by decide, rfl, ⟨rfl, by decide, by decide, by decide, by decide, by decide⟩, rfl, rfl, ⟨by decide, by decide, by decide, by decide,
   by decide, by decide⟩⟩


/-! ## Witnesses: nets and work lists -/

/-- An arena of four nodes at 0x60000 in core (20, 10), with 0x60000 at its head (none where `h` is 0). -/
def arena (s : State) (h : Nat) : State :=
  ((s.wr64 (poolLoc 500 0x5800) (word h)).wr64 (poolLoc 500 0x5808) (word (4 * 2 ^ 32 + 4))).wr64 (poolLoc 500 0x5810) 0x60000

/-- The first two nodes of that arena. -/
def node0 : Word := coreAddr 500 0x60000
def node1 : Word := coreAddr 500 0x60020

/-- A header of type 16 with two auxiliary ports and a LIFE, owned by the thread. -/
def hdr (life : Nat) : Word := word (16 * 2 ^ 56 + 2 * 2 ^ 54 + life * 2 ^ 50 + ownerOf home * 2 ^ 12)

/-- A thread that has allocated the first node and killed the second. -/
def netState (regs : Map Word) : State :=
  arena (stateOf { thread1 regs with rewrites := [⟨node0, false, [false, false, false]⟩, ⟨node1, true, [false, false, false]⟩] } core1) 0x60040

/-- A link operation that has arrived at its home. -/
def linkAt (a : Word) (b : OpBody) : Op := { op1 b with addr := a }
def linkState (o : Op) (life : Nat) : State :=
  ({ netState [] with ops := [o], arg := .num 9, nextId := 10 }.wr64 (poolLoc 500 0x60000) (hdr life)).wr64 (poolLoc 500 0x60020) (hdr 2)

/-- A live list of core (20, 10) at a descriptor, with items. -/
def list1 (desc : Nat) (items : List (List Word)) (dedup wide : Bool) : ListEntry :=
  { desc := desc, job := 1, gen := 0, live := true, reason := 0, dedup := dedup, wide := wide, area := 0x70000, spill := 0, scap := 0, items := items,
    spilled := 0, spillHead := 0, pushes := 4, dups := 0, pops := 0, fulls := 0, high := 2, waiters := [] }

/-- A state with an active-pair queue of given pairs and pairs that wait for it; node 0 has type 16 and node 1 type 16, and the rule of the
two is the word `e`. -/
def pairState (pairs : List (List Word)) (wait : List (Word × Word)) (e : Word) : State :=
  let s := mapped (netState []) 0
  let s := { s with arg := .num 500 }
  let s := s.setCore 500 { core1 with pairq := some (list1 pairDesc pairs false true), pairWait := wait }
  (((s.wr64 (poolLoc 500 0x5818) 0x6000000000100000).wr64 (0x100000 + 8 * (256 * 16 + 16)) e).wr64 (poolLoc 500 0x60000) (hdr 2)).wr64
    (poolLoc 500 0x60020) (hdr 2)

/-- A work-list operation at its home, core (20, 10), and the list that it acts on. -/
def listOpAt (b : OpBody) : Op := { op1 b with addr := coreAddr 500 0x40040, deadline := 1000, fallible := true }
def listState (o : Op) (l : List ListEntry) : State :=
  let s := (waitState o (.num 9) id).setCore 500 { core1 with lists := l }
  s.wr64 (poolLoc 500 0x40048) (word (2 ^ 25 + 0x70000))


/-! ## Witnesses: commands, tags, feeds -/

/-- A core of job 1 with a scratchpad of 16 pages from 0x9000 on. -/
def corePad : Core := { core1 with partword := 0x24200010 }

/-- The words of a feed descriptor: a tensor of 2 by 4 elements of 4 bytes at DEVICE address 0x300000, tiles of 1 by 2, SN 1, four slots of
32 bytes at 0x9000 with ring tags 8 to 11, on core (20, 10) alone. -/
def feedWords : List Word :=
  [0x6000000000300000, word (2 * 2 ^ 32 + 4), word (2 ^ 56 + 2 * 2 ^ 48 + 16), word (2 ^ 48 + 2 * 2 ^ 32 + 2 * 2 ^ 16 + 3 * 2 ^ 8 + 8),
    word (2 ^ 32 + 0x9000), word (2 ^ 24 + 2 ^ 16 + coordField 500), 0, 0]

/-- The same as a subscription of core (20, 10) with CT 2, and its part. -/
def feed (limit : Nat) (parts : List Part) : Sub :=
  { desc := coreAddr 500 0x40040, words := feedWords, core := 500, job := 1, gen := 0, ct := 2, first := 0, limit := limit, faulted := false,
    failed := [], stopped := false, parts := parts }

/-- A command in the queue of core (20, 10). -/
def cmdOp (k : CmdKind) (words : List Word) : Op := { op1 (.command ⟨k, home, 1, 0, words⟩) with dst := none }

/-- A state of that core with given registers, with given tags, owned tags, paused work and subscriptions. -/
def tagState (g : Map Word) (tags owned : Word) (paused : List Paused) (subs : List Sub) : State :=
  { stateOf (thread1 g) { corePad with tags := tags, owned := owned, tagfault := tags, paused := paused } with subs := subs }

/-- A copy of 8 bytes from 0x40000 to 0x50000 of the own pool with tag 3. -/
def copyCmd : Cmd := ⟨.copy, home, 1, 0, [0x40000, 0x50000, word (3 * 2 ^ 32 + 8)]⟩

/-- A command in the copy engine of core (20, 10) or in the gather engine of its cluster; the event acts on the core or the cluster. -/
def copyState (cmd : Cmd) : State :=
  { ((tagState [] 0 8 [] []).setCore 500 { corePad with owned := 8, copyq := [(cmd, 0)] }).wr64 (poolLoc 500 0x40000) 77 with arg := .num 500 }
def gatherCmd (kind : CmdKind) : Cmd := ⟨kind, home, 1, 0, [0x40000, 0x50000, word (3 * 2 ^ 45 + 2 ^ 44)]⟩
def gatherState (cmd : Cmd) : State :=
  let s := tagState [] 0 8 [] []
  let s := s.setCluster 65 { Cluster.init with gatherq := [(cmd, 0)] }
  { (s.wr64 (poolLoc 500 0x40000) 2).wr64 (poolLoc 500 0x50008) 0x1234 with arg := .num 65 }

/-! ## Witnesses: matrix engine and curves -/

/-- A state of core (20, 10) with given registers, and its cluster's matrix engine of a health. -/
def mxState (g : Map Word) (health : Nat) : State :=
  (tagState g 0 0 [] []).setCluster 65 { Cluster.init with health := health }

/-- Matrix words: a registration of 4 columns of 128 positions in 2 planes at 0x1000; a latch of 2 rows of 128 positions in 2 planes with
tag 3; a run of 2 rows by 4 columns over 32 positions that clears, with tag 5. -/
def mxbWord : Word := word (2 ^ 56 + 3 * 2 ^ 49 + 127 * 2 ^ 37 + 2 * 2 ^ 21 + 0x1000)
def mxaWord : Word := word (3 * 2 ^ 58 + 2 ^ 52 + 2 ^ 49 + 2 ^ 42 + 127 * 2 ^ 32)
def runWord : Word := word (5 * 2 ^ 58 + 2 ^ 55 + 2 ^ 47 + 3 * 2 ^ 40 + 2 ^ 37 + 2 ^ 33 + 31 * 2 ^ 11)

/-- The engine performs a command; it holds a registration and a latch of two rows. -/
def performState (cmd : Cmd) (lv : Bool) : State :=
  let mx : Mx := { Mx.init with latch := [[5, 3], [1, 0]], lctl := word (bits mxaWord 56 32 * 2 ^ 32), lv := lv, breg := mxbWord, bv := true }
  let s := tagState [] 0 0xFFFF [] []
  let s := s.setCluster 65 { Cluster.init with mx := mx, mxq := [cmd], mxBusy := true }
  { (s.wr64 (storeLoc 65 0x1000) 7).wr64 (storeLoc 65 0x1010) 6 with arg := .num 65 }

/-- The words of MXSCALE's descriptor: two rows of one column. -/
def scaleWords : List Word := [word (0x50000 * 2 ^ 32 + 0x51000), word (2 ^ 55 + 2 ^ 16 + 1), 0x52000, 0x53000]

/-- A step of MXSCALE or of MXMAP's table reads. -/
def stepOf (b : Busy) : State :=
  let s := mxState [] 0
  { s.setCtx home { s.now with busy := b } with arg := .ctx home }


/-! ## Witnesses: traps, CSRs, the system -/

/-- A thread inside a handler, with the given trap record. -/
def trapState (cause value info pc : Word) (faults : List FaultEntry) : State :=
  stateOf { thread1 [(1, 7)] with intrap := true, trapcause := cause, trapval := value, trapinfo := info, trappc := pc, faults := faults } core1

/-- A state whose thread belongs to job 0. -/
def sysState (g : Map Word) : State := stateOf (thread1 g) { core1 with owner := some 0, partword := monitorPartword }

/-- A reported fault of a load of core (3, 5), as TRET finds it. -/
def reported1 : FaultEntry := ⟨opAt (.load 8), coreAddr 243 0x40000, cPage, false, true, 0, false⟩

/-- A refused journal entry. -/
def held1 : Op := { op1 (.store 0 4 5) with jidx := some 3, reason := cPage, performed := true, reported := true, dst := none }

/-! ## Witnesses of the later families -/

namespace Nets

/-- NALLOC's thread, with an arena whose head is `h` (R209). -/
def allocState (h : Nat) : State := arena (small [(1, 16 * 2 ^ 56 + 2 ^ 55 + 7 * 2 ^ 32 + 5)]) h

/-- A thread with eight link operations outstanding. -/
def eight : State := { netState [(1, 0x60040)] with ops := (List.range 8).map fun i => { op1 .nkill with id := 20 + i } }

/-- Ports of the thread's two nodes in g1 to g3. -/
def ports : State := netState [(1, 0x60008), (2, 0x60010), (3, 0x60028)]

set_option maxRecDepth 8000 in
/-- Nets_are_issued: NALLOC with an arena that is empty and one that is not; NSEAL and NKILL of own and far nodes, and with eight link operations
outstanding; LINK and RELINK; NPORT of an address at each kind of place; TREF and TDROP. -/
theorem witness_issued :
    (allocState 0).Ready false [gr 1, gr 3] ∧
    (bits ((allocState 0).now.getG 1) 53 48 = 0 ∧
     bits ((allocState 0).now.getG 1) 31 8 = 0 ∧
     16 ≤ bits ((allocState 0).now.getG 1) 63 56 ∧
     bits ((allocState 0).now.getG 1) 55 54 ≠ 3 ∧
     (allocState 0).now.rewrites.length < 16) ∧
    (allocState 0x60000).Ready false [gr 1, gr 3] ∧
    (bits ((allocState 0x60000).now.getG 1) 53 48 = 0 ∧
     bits ((allocState 0x60000).now.getG 1) 31 8 = 0 ∧
     16 ≤ bits ((allocState 0x60000).now.getG 1) 63 56 ∧
     bits ((allocState 0x60000).now.getG 1) 55 54 ≠ 3 ∧
     (allocState 0x60000).now.rewrites.length < 16 ∧
     bits ((allocState 0x60000).rd64 (arenaHead (allocState 0x60000).cur.core)) 19 0 ≠ 0) ∧
    rising (allocState 0x60000).mem = true ∧
    rising (allocState 0x60000).ctxs = true ∧
    (netState [(1, 0x60040)]).Ready false [gr 1] ∧
    (netState [(1, 0x60040)]).checkNet (netState [(1, 0x60040)]).cur.core ((netState [(1, 0x60040)]).now.getG 1) 32 = Except.ok (coreAddr
      500 0x60040) ∧
    (((netState [(1, 0x60040)]).countOps (netState [(1, 0x60040)]).cur fun q => q.body.isLink) < 8) ∧
    (netState [(1, coreAddr 243 0x60040)]).Ready true [gr 1] ∧
    (netState [(1, coreAddr 243 0x60040)]).checkNet (netState [(1, coreAddr 243 0x60040)]).cur.core ((netState [(1, coreAddr 243
      0x60040)]).now.getG 1) 32 = Except.ok (coreAddr 243 0x60040) ∧
    ((((netState [(1, coreAddr 243 0x60040)]).countOps (netState [(1, coreAddr 243 0x60040)]).cur fun q => q.body.isLink) < 8) ∧
     (∀ (r : Rewrite), r ∈ (netState [(1, coreAddr 243 0x60040)]).now.rewrites → r.node ≠ coreAddr 243 0x60040) ∧
     (netState [(1, coreAddr 243 0x60040)]).now.rewrites.length < 16) ∧
    eight.Ready false [gr 1] ∧
    eight.checkNet eight.cur.core (eight.now.getG 1) 32 = Except.ok (coreAddr 500 0x60040) ∧
    (8 ≤ eight.countOps eight.cur fun q => q.body.isLink) ∧
    ports.Ready false [gr 1, gr 2] ∧
    ((ports.countOps ports.cur fun q => q.body.isLink) < 8) ∧
    ports.checkPorts ports.cur (ports.now.getG 1) (ports.now.getG 2) false = Except.ok (coreAddr 500 0x60008, coreAddr 500 0x60010) ∧
    ports.Ready false [gr 3, gr 1] ∧
    ports.checkPorts ports.cur (ports.now.getG 3) (ports.now.getG 1) true = Except.ok (coreAddr 500 0x60028, coreAddr 500 0x60008) ∧
    ports.place ports.cur.core (ports.now.getG 1) = Except.ok (Place.pool ports.cur.core 0x60008) ∧
    BitVec.toNat (ports.now.getG 1) % 8 = 0 ∧
    ports.inArena (coreAddr ports.cur.core 0x60008) = true ∧
    (netState [(1, 0x5FFF8)]).Ready false [gr 1, gr 2] ∧
    (netState [(1, 0x5FFF8)]).place (netState [(1, 0x5FFF8)]).cur.core ((netState [(1, 0x5FFF8)]).now.getG 1) = Except.ok (Place.pool
      (netState [(1, 0x5FFF8)]).cur.core 0x5FFF8) ∧
    BitVec.toNat ((netState [(1, 0x5FFF8)]).now.getG 1) % 8 = 0 ∧
    (netState [(1, 0x5FFF8)]).inArena (coreAddr (netState [(1, 0x5FFF8)]).cur.core 0x5FFF8) = false ∧
    (netState [(1, 0x6007C)]).Ready false [gr 1, gr 2] ∧
    (netState [(1, 0x6007C)]).place (netState [(1, 0x6007C)]).cur.core ((netState [(1, 0x6007C)]).now.getG 1) = Except.ok (Place.pool
      (netState [(1, 0x6007C)]).cur.core 0x6007C) ∧
    BitVec.toNat ((netState [(1, 0x6007C)]).now.getG 1) % 8 ≠ 0 ∧
    (netState [(1, coreAddr 243 0x60040)]).Ready false [gr 1, gr 2] ∧
    (netState [(1, coreAddr 243 0x60040)]).fallibleFull (netState [(1, coreAddr 243 0x60040)]).cur = false :=
  ⟨ready_of (by decide), by decide, ready_of (by decide), by decide, by decide, by decide, ready_of (by decide), rfl, by decide, ready_of
   (by decide), rfl, by decide, ready_of (by decide), rfl, by decide, ready_of (by decide), by decide, rfl, ready_of (by decide), rfl,
   rfl, by decide, by decide, ready_of (by decide), rfl, by decide, by decide, ready_of (by decide), rfl, by decide, ready_of (by
   decide), by decide⟩

/-- NKILL, RELINK and LINK at their homes. -/
def sealOp : Op := linkAt node0 .nseal
def killOp : Op := linkAt node0 .nkill
def relinkOp : Op := linkAt (portOf node1 2) (.relink (portOf node0 3))
def linkOp : Op := linkAt (portOf node0 2) (.link (portOf node0 3))

/-- The node to be killed has a linked port; the port that a RELINK names is linked. -/
def killState : State := (linkState killOp 2).wr64 (poolLoc 500 0x60008) (mkPort 1 false (portOf node1 1))
def relinkState : State := (linkState relinkOp 2).wr64 (poolLoc 500 0x60030) (mkPort 1 false (portOf node1 3))

/-- A protocol message that has arrived, and the nodes that it finds. -/
def netMsg (a b c : Word) : NetMsg := ⟨1, 0, 500, a, b, c⟩
def msgState (life : Nat) (m : NetMsg) : State := { linkState sealOp life with arg := .net m }
def joinMsg : NetMsg := netMsg (portOf node0 2) (portOf node1 2) 0
def redirectMsg : NetMsg := netMsg (portOf node0 2) (portOf node0 3) (portOf node1 3)
def redirectState : State := (msgState 2 redirectMsg).wr64 (poolLoc 500 0x60038) (mkPort 1 false (portOf node0 2))
def settleMsg : NetMsg := netMsg (portOf node0 2) 0 0
def settleState : State := (msgState 3 settleMsg).wr64 (poolLoc 500 0x60000) (setBits (hdr 3) 53 52 3)
def pairMsg : NetMsg := netMsg (portOf node0 1) (portOf node1 1) 0
def matchState : State := (msgState 2 pairMsg).wr64 (poolLoc 500 0x60028) (mkPort 1 false (portOf node0 1))

set_option maxRecDepth 8000 in
/-- Nets_at_their_homes: NSEAL here and far; NKILL of a node whose ports are settled and of one that has gone on; RELINK of an empty and of a linked
port; LINK; and the four protocol messages. -/
theorem witness_homes :
    (linkState relinkOp 2).arg = Arg.num 9 ∧
    (linkState relinkOp 2).op 9 = some relinkOp ∧
    (msgState 1 joinMsg).arg = Arg.net joinMsg ∧
    (linkState sealOp 1).op 9 = some sealOp ∧
    ((linkState sealOp 1).stampOk sealOp.job sealOp.gen = true ∧
     (linkState sealOp 1).poison = [] ∧
     sealOp.addr = coreAddr 500 0x60000 ∧
     500 < 3072 ∧
     0x60000 % 32 = 0 ∧
     0x60000 + 32 ≤ 2 ^ 20) ∧
    (rising (linkState sealOp 1).mem = true ∧
     (linkState sealOp 1).inArena sealOp.addr = true ∧
     hLife ((linkState sealOp 1).nodeWord sealOp.addr 0) = 1 ∧
     hOwner ((linkState sealOp 1).nodeWord sealOp.addr 0) = ownerOf sealOp.ctx ∧
     portState ((linkState sealOp 1).portWord (portOf sealOp.addr 1)) = 0) ∧
    (linkState (linkAt (coreAddr 243 0x60000) OpBody.nseal) 1).op 9 = some (linkAt (coreAddr 243 0x60000) OpBody.nseal) ∧
    ((linkState (linkAt (coreAddr 243 0x60000) OpBody.nseal) 1).stampOk (linkAt (coreAddr 243 0x60000) OpBody.nseal).job (linkAt (coreAddr
       243 0x60000) OpBody.nseal).gen = true ∧
     (linkState (linkAt (coreAddr 243 0x60000) OpBody.nseal) 1).poison = [] ∧
     (linkAt (coreAddr 243 0x60000) OpBody.nseal).addr = coreAddr 243 0x60000 ∧
     243 < 3072 ∧
     rising (linkState (linkAt (coreAddr 243 0x60000) OpBody.nseal) 1).mem = true ∧
     (linkState (linkAt (coreAddr 243 0x60000) OpBody.nseal) 1).inArena (linkAt (coreAddr 243 0x60000) OpBody.nseal).addr = false) ∧
    ((linkState (linkAt (coreAddr 243 0x60000) OpBody.nseal) 1).ctx (linkAt (coreAddr 243 0x60000) OpBody.nseal).ctx).thread = (linkAt
      (coreAddr 243 0x60000) OpBody.nseal).thread ∧
    (linkAt (coreAddr 243 0x60000) OpBody.nseal).thread ≠ 1 ∧
    (linkState killOp 2).op 9 = some killOp ∧
    ((linkState killOp 2).stampOk killOp.job killOp.gen = true ∧
     (linkState killOp 2).poison = [] ∧
     killOp.thread ≠ 1 ∧
     (linkState killOp 2).killNode killOp.addr (coordField killOp.ctx.core) killOp.ctx.k = none ∧
     ((linkState killOp 2).ctx killOp.ctx).thread = killOp.thread ∧
     (linkState relinkOp 2).stampOk relinkOp.job relinkOp.gen = true) ∧
    (linkState relinkOp 2).poison = [] ∧
    relinkOp.thread ≠ 1 ∧
    relinkOp.body = OpBody.relink (portOf node0 3) ∧
    portState ((linkState relinkOp 2).portWord relinkOp.addr) = 0 ∧
    relinkState.op 9 = some relinkOp ∧
    (relinkState.stampOk relinkOp.job relinkOp.gen = true ∧
     relinkState.poison = [] ∧
     portState (relinkState.portWord relinkOp.addr) = 1) ∧
    (linkState linkOp 1).op 9 = some linkOp ∧
    ((linkState linkOp 1).stampOk linkOp.job linkOp.gen = true ∧
     (linkState linkOp 1).poison = [] ∧
     linkOp.thread ≠ 1) ∧
    linkOp.body = OpBody.link (portOf node0 3) ∧
    portState ((linkState linkOp 1).portWord linkOp.addr) = 0 ∧
    portIndex linkOp.addr ≠ 1 ∧
    (msgState 1 { joinMsg with gen := 5 }).arg = .net { joinMsg with gen := 5 } ∧
    ((msgState 1 joinMsg).stampOk 1 5 = false ∧
     (msgState 1 joinMsg).stampOk joinMsg.job joinMsg.gen = true ∧
     portState ((msgState 1 joinMsg).portWord joinMsg.a) = 0 ∧
     portIndex joinMsg.a ≠ 1 ∧
     redirectState.stampOk redirectMsg.job redirectMsg.gen = true ∧
     portState (redirectState.portWord redirectMsg.c) = 1) ∧
    (linked (redirectState.portWord redirectMsg.c) = redirectMsg.a ∧
     portIndex redirectMsg.c ≠ 1 ∧
     settleState.stampOk settleMsg.job settleMsg.gen = true ∧
     hLife (settleState.nodeWord (nodeOf settleMsg.a) 0) = 3 ∧
     2 ≤ hPend (settleState.nodeWord (nodeOf settleMsg.a) 0) ∧
     matchState.stampOk pairMsg.job pairMsg.gen = true) ∧
    (pairMsg.b = coreAddr 500 0x60020 + 8 ∧
     0x60020 % 32 = 0 ∧
     0x60020 + 32 ≤ 2 ^ 20 ∧
     rising matchState.mem = true ∧
     portState (matchState.portWord pairMsg.b) = 1 ∧
     linked (matchState.portWord pairMsg.b) = pairMsg.a) ∧
    (hLife (matchState.nodeWord (coreAddr 500 0x60020) 0) = 2 ∧
     portIndex pairMsg.a = 1 ∧
     BitVec.toNat pairMsg.a < BitVec.toNat pairMsg.b ∧
     (killState.killNode node0 (coordField 500) 0).isSome = true) :=
  ⟨rfl, rfl, rfl, rfl, by decide, by decide, rfl, by decide, by decide, by decide, rfl, by decide, by decide, by decide, rfl, by decide,
   rfl, by decide, rfl, by decide, rfl, by decide, by decide, rfl, by decide, by decide, by decide, by decide⟩

/-- A rule word that names the pair of node 0 with itself. -/
def ruleWord : Word := word (2 ^ 62 + 2 ^ 22 + 5 * 2 ^ 16)

/-- The queue that holds the two nodes, and states in which it does. -/
def queue : ListEntry := list1 pairDesc [[node1, node0]] false true
def fired (rule : Word) : State := pairState [[node1, node0]] [] rule

/-- A thread that has allocated a node whose ports it has all used. -/
def usedState : State := (stateOf { thread1 [] with rewrites := [⟨node0, false, [true, true, true]⟩] } core1).wr64 (poolLoc 500 0x60000) (hdr 1)

/-- A thread whose marks at another part are still being cleared. -/
def owed : State := { small [] with peerLog := [⟨home, 7, 0, 0, false, true⟩] }

set_option maxRecDepth 8000 in
/-- Pairs_and_thread_ends: a pair that waits for a queue with room; the pair at its head with and without a rule; TEND with nothing open, and with a
node that the thread has allocated. -/
theorem witness_pairs :
    (pairState [[1, 2]] [(node0, node1)] 0).arg = Arg.num 500 ∧
    rising (pairState [[1, 2]] [(node0, node1)] 0).cores = true ∧
    ((pairState [[1, 2]] [(node0, node1)] 0).core 500).pairq = some (list1 pairDesc [[1, 2]] false true) ∧
    ((list1 pairDesc [[1, 2]] false true).live = true ∧
     (list1 pairDesc [[1, 2]] false true).desc = pairDesc ∧
     (list1 pairDesc [[1, 2]] false true).spilled = 0 ∧
     (list1 pairDesc [[1, 2]] false true).items.length < 0x1000 ∧
     ((pairState [[1, 2]] [(node0, node1)] 0).core 500).pairWait = [(node0, node1)]) ∧
    (fired ruleWord).arg = Arg.num 500 ∧
    ((fired ruleWord).core 500).owner = some 1 ∧
    ((fired ruleWord).core 500).pairq = some queue ∧
    (queue.live = true ∧
     queue.spilled = 0 ∧
     queue.items = [[node1, node0]] ∧
     queue.desc = pairDesc ∧
     rising (fired ruleWord).cores = true ∧
     ((fired ruleWord).core 500).cancelled = false) ∧
    (((fired ruleWord).core 500).pairWait = [] ∧
     ((fired ruleWord).core 500).rule = none ∧
     ((fired ruleWord).core 500).held = false ∧
     ((fired ruleWord).core 500).pairsDue = 0 ∧
     (fired ruleWord).pairsOut 500 < 8 ∧
     (fired ruleWord).poison = []) ∧
    ((fired ruleWord).putList 500 { queue with items := [], pops := queue.pops + 1 }).ruleEntry 1 500 (hType (((fired ruleWord).putList
      500 { queue with items := [], pops := queue.pops + 1 }).nodeWord (((fired ruleWord).putList 500
      { queue with items := [], pops := queue.pops + 1 }).orderPair node1 node0).fst 0)) (hType (((fired ruleWord).putList 500
      { queue with items := [], pops := queue.pops + 1 }).nodeWord (((fired ruleWord).putList 500
      { queue with items := [], pops := queue.pops + 1 }).orderPair node1 node0).snd 0)) = some ruleWord ∧
    ruleOk ruleWord = true ∧
    (fired 0).arg = Arg.num 500 ∧
    ((fired 0).core 500).owner = some 1 ∧
    ((fired 0).core 500).pairq = some queue ∧
    (rising (fired 0).cores = true ∧
     ((fired 0).core 500).cancelled = false ∧
     ((fired 0).core 500).pairWait = [] ∧
     ((fired 0).core 500).rule = none ∧
     ((fired 0).core 500).held = false ∧
     ((fired 0).core 500).pairsDue = 0) ∧
    (fired 0).pairsOut 500 < 8 ∧
    (fired 0).poison = [] ∧
    ((fired 0).putList 500 { queue with items := [], pops := queue.pops + 1 }).ruleEntry 1 500 (hType (((fired 0).putList 500
      { queue with items := [], pops := queue.pops + 1 }).nodeWord (((fired 0).putList 500
      { queue with items := [], pops := queue.pops + 1 }).orderPair node1 node0).fst 0)) (hType (((fired 0).putList 500
      { queue with items := [], pops := queue.pops + 1 }).nodeWord (((fired 0).putList 500
      { queue with items := [], pops := queue.pops + 1 }).orderPair node1 node0).snd 0)) = some 0 ∧
    ruleOk 0 = true ∧
    owed.Ready true [] ∧
    (owed.unsettledJournal owed.cur = false ∧
     owed.now.refusals = [] ∧
     ((owed.setCtx owed.cur (owed.now.reachOnce owed.cycle (owed.canBlock owed.cur))).clearMarks owed.cur owed.now.region
       FScope.dom).peersOwe owed.cur owed.now.region = true) ∧
    (small []).Ready true [] ∧
    ((small []).unsettledJournal (small []).cur = false ∧
     (small []).now.refusals = [] ∧
     (((small []).setCtx (small []).cur ((small []).now.reachOnce (small []).cycle ((small []).canBlock (small []).cur))).clearMarks
       (small []).cur (small []).now.region FScope.dom).peersOwe (small []).cur (small []).now.region = false ∧
     (small []).now.rewrites = []) ∧
    usedState.Ready true [] ∧
    (usedState.unsettledJournal usedState.cur = false ∧
     usedState.now.refusals = [] ∧
     ((usedState.setCtx usedState.cur (usedState.now.reachOnce usedState.cycle (usedState.canBlock usedState.cur))).clearMarks
       usedState.cur usedState.now.region FScope.dom).peersOwe usedState.cur usedState.now.region = false ∧
     usedState.now.rewrites = [{ node := node0, killed := false, used := [true, true, true] }] ∧
     hLife (usedState.nodeWord node0 0) = 1 ∧
     hOwner (usedState.nodeWord node0 0) = ownerOf usedState.cur) ∧
    rising (stateOf (thread1 [(1, 5)]) core1).ctxs = true :=
  ⟨rfl, by decide, rfl, by decide, rfl, rfl, rfl, by decide, by decide, by decide +kernel, by decide, rfl, rfl, rfl, by decide, by
   decide, by decide, by decide +kernel, by decide, ready_of (by decide), by decide, ready_of (by decide), by decide, ready_of (by
   decide), by decide, by decide⟩

end Nets

namespace Lists

/-- A thread with a descriptor's address, an area, a capacity and a control word in g1 to g5. -/
def initState (desc : Word) : State := small [(1, desc), (2, 0x50000), (3, 256), (5, 12)]

/-- A list with three items that refuses what it holds, one with no item, and one of a core's other lists. -/
def three : ListEntry := list1 0x40040 [[7], [8], [9]] true false
def none3 : ListEntry := list1 0x40040 [] true false
def two : ListEntry := list1 0x40040 [[7], [8]] false false
def other : ListEntry := list1 0x50040 [[5, 6]] false true

/-- An operation that acts on the list at 0x40040. -/
def atList (b : OpBody) (l : ListEntry) : State := listState (listOpAt b) [other, l]

/-- A count at its home. -/
def countOp : Op := { listOpAt .wlcount with loc := some (poolLoc 500 0x40040) }

/-- A pop whose record is at hand. -/
def popOp : Op := { listOpAt (.wlpopb 0x50000 7) with wrec := some 0x6000000000021000 }

/-- A list with two items in its spill region, and the list after they have come back. -/
def spilled : ListEntry := { list1 0x40040 [[7]] false false with spill := 0x6000000000200000, scap := 10, spilled := 2, spillHead := 9 }
def refilled : ListEntry := { spilled with items := [[7], [5], [6]], spilled := 0, spillHead := 1 }
def spillState : State :=
  { ((mapped (listState (listOpAt .wlcount) [spilled]) 0).wr64 (0x200000 + 9 * 8) 5).wr64 0x200000 6 with arg := .pair 500 0x40040 }

/-- What State.AtList asks, as one decision. -/
theorem at_list {s : State} {o : Op} {c d : Nat}
    (h : s.arg = .num o.id ∧ s.op o.id = some o ∧ s.stampOk o.job o.gen = true ∧ o.listHome = (c, d) ∧ o.jidx = none ∧ d ≠ pairDesc ∧
      rising s.cores = true) : s.AtList o c d := by
  obtain ⟨a, b, e, f, g, i, j⟩ := h
  exact ⟨a, b, e, f, g, i, j⟩

set_option maxRecDepth 8000 in
/-- Work_lists: the work-list instructions at issue, WLCOUNT of an active-pair queue among them; WLINIT of a new list; a push, an insert that finds
its item, a pop of part and of all, a pop that parks, a drain, an operation with no list; and the return of spilled items. -/
theorem witness_lists :
    (initState 0x40040).countOps (initState 0x40040).cur Op.listOut < 8 ∧
    (initState 0x40040).fallibleFull (initState 0x40040).cur = false ∧
    (initState 0x40040).checkList (initState 0x40040).cur.core ((initState 0x40040).now.getG 1) false = Except.ok (coreAddr 500 0x40040)
      ∧
    (initState 0x40040).Ready false [gr 1] ∧
    (initState 0x40040).Ready false ([gr 1, gr 2] ++ if 1 = 1 then [Reg.g (2 + 1)] else []) ∧
    (initState 0x40040).Ready false [gr 1, gr 2, gr 3] ∧
    (initState 0x40040).Ready false [gr 1, gr 2, gr 5] ∧
    (bits ((initState 0x40040).now.getG 5) 63 17 = 0 ∧
     bits ((initState 0x40040).now.getG 5) 15 9 = 0 ∧
     1 ≤ bits ((initState 0x40040).now.getG 5) 8 0 ∧
     bits ((initState 0x40040).now.getG 5) 8 0 ≤ 256 ∧
     (initState 0x40040).rangeTrap (initState 0x40040).cur.core ((initState 0x40040).now.getG 2) (16 * bits ((initState 0x40040).now.getG
       5) 8 0) 16 = none ∧
     (initState 0x5840).countOps (initState 0x5840).cur Op.listOut < 8) ∧
    (initState 0x5840).fallibleFull (initState 0x5840).cur = false ∧
    (initState 0x5840).checkList (initState 0x5840).cur.core ((initState 0x5840).now.getG 1) true = Except.ok (coreAddr 500 0x5840) ∧
    (initState 0x5840).Ready false [gr 1, gr 3] ∧
    (listState (listOpAt OpBody.wlinit) []).AtList (listOpAt OpBody.wlinit) 500 0x40040 ∧
    (listOpAt OpBody.wlinit).body = OpBody.wlinit ∧
    (listState (listOpAt OpBody.wlinit) []).listAt 500 0x40040 = none ∧
    (listState (listOpAt OpBody.wlinit) []).listCheck 500 0x40040 = none ∧
    (atList (OpBody.wlpush [4]) three).AtList (listOpAt (OpBody.wlpush [4])) 500 0x40040 ∧
    (atList (OpBody.wlpush [4]) three).listAt 500 0x40040 = some three ∧
    (three.desc = 0x40040 ∧
     three.live = true ∧
     three.waiters = [] ∧
     three.spilled = 0) ∧
    (listOpAt (OpBody.wlpush [4])).body = OpBody.wlpush [4] ∧
    ([4].length == 2) = three.wide ∧
    three.items.length < 0x1000 ∧
    (atList (OpBody.wlinsu [8]) three).AtList (listOpAt (OpBody.wlinsu [8])) 500 0x40040 ∧
    (atList (OpBody.wlinsu [8]) three).listAt 500 0x40040 = some three ∧
    (listOpAt (OpBody.wlinsu [8])).body = OpBody.wlinsu [8] ∧
    three.dedup = true ∧
    [8] ∈ three.items ∧
    (atList (OpBody.wlinsu [4]) three).AtList (listOpAt (OpBody.wlinsu [4])) 500 0x40040 ∧
    (atList (OpBody.wlinsu [4]) three).listAt 500 0x40040 = some three ∧
    (listOpAt (OpBody.wlinsu [4])).body = OpBody.wlinsu [4] ∧
    ¬[4] ∈ three.items ∧
    (atList (OpBody.wlinsu [4]) two).AtList (listOpAt (OpBody.wlinsu [4])) 500 0x40040 ∧
    (atList (OpBody.wlinsu [4]) two).listAt 500 0x40040 = some two ∧
    (two.desc = 0x40040 ∧
     two.live = true ∧
     two.waiters = [] ∧
     two.spilled = 0 ∧
     two.dedup = false) ∧
    (listState countOp [other, three]).AtList countOp 500 0x40040 ∧
    (listState countOp [other, three]).listAt 500 0x40040 = some three ∧
    countOp.body = OpBody.wlcount ∧
    (countOp.performed = false ∧ countOp.reason = 0 ∧ countOp.mx = false ∧ countOp.left = true) ∧
    countOp.loc = some (poolLoc 500 0x40040) ∧
    (poolLoc 500 0x40040 < 2 ^ 60 ∧
     (listState countOp [other, three]).homeDown (poolLoc 500 0x40040) = false ∧
     (¬(2 ^ 42 ≤ poolLoc 500 0x40040 ∧ 0x1FFF00 ≤ (poolLoc 500 0x40040 - 2 ^ 42) % 2 ^ 21)) ∧
     three.reason < 64) ∧
    (atList (OpBody.wlpopb 0x50000 2) three).AtList (listOpAt (OpBody.wlpopb 0x50000 2)) 500 0x40040 ∧
    (atList (OpBody.wlpopb 0x50000 2) three).listAt 500 0x40040 = some three ∧
    (listOpAt (OpBody.wlpopb 0x50000 2)).body = OpBody.wlpopb 0x50000 2 ∧
    three.items ≠ [] ∧
    (atList (OpBody.wlpopb 0x50000 256) three).AtList (listOpAt (OpBody.wlpopb 0x50000 256)) 500 0x40040 ∧
    (atList (OpBody.wlpopb 0x50000 256) three).listAt 500 0x40040 = some three ∧
    (listOpAt (OpBody.wlpopb 0x50000 256)).body = OpBody.wlpopb 0x50000 256 ∧
    (listState popOp [other, none3]).AtList popOp 500 0x40040 ∧
    (listState popOp [other, none3]).listAt 500 0x40040 = some none3 ∧
    (none3.desc = 0x40040 ∧
     none3.live = true ∧
     none3.waiters = [] ∧
     none3.spilled = 0) ∧
    popOp.body = OpBody.wlpopb 0x50000 7 ∧
    popOp.wrec = some 0x6000000000021000 ∧
    none3.items = [] ∧
    (atList OpBody.wldrain three).AtList (listOpAt OpBody.wldrain) 500 0x40040 ∧
    (atList OpBody.wldrain three).listAt 500 0x40040 = some three ∧
    (listOpAt OpBody.wldrain).body = OpBody.wldrain ∧
    (listState (listOpAt (OpBody.wlpopb 0x50000 7)) [none3]).AtList (listOpAt (OpBody.wlpopb 0x50000 7)) 500 0x40040 ∧
    ((listState (listOpAt (OpBody.wlpopb 0x50000 7)) [none3]).cycle < (listOpAt (OpBody.wlpopb 0x50000 7)).deadline ∧
     ((listState (listOpAt (OpBody.wlpopb 0x50000 7)) [none3]).core 500).held = false ∧
     (listOpAt (OpBody.wlpopb 0x50000 7)).ctx.core = 500 ∧
     (listOpAt (OpBody.wlpopb 0x50000 7)).record = none ∧
     ((listState (listOpAt (OpBody.wlpopb 0x50000 7)) [none3]).ctx (listOpAt (OpBody.wlpopb 0x50000 7)).ctx).thread = (listOpAt
       (OpBody.wlpopb 0x50000 7)).thread) ∧
    spillState.arg = Arg.pair 500 0x40040 ∧
    spillState.listAt 500 0x40040 = some spilled ∧
    spilled.live = true ∧
    spillState.poison = [] ∧
    spillState.refill spilled (0x1000 - spilled.items.length) = Except.ok refilled :=
  ⟨by decide, by decide, rfl, ready_of (by decide), ready_of (by decide), ready_of (by decide), ready_of (by decide), by decide, by
   decide, rfl, ready_of (by decide), at_list (by decide), rfl, by decide, by decide, at_list (by decide), rfl, by decide, rfl, by
   decide, by decide, at_list (by decide), rfl, rfl, by decide, by decide, at_list (by decide), rfl, rfl, by decide, at_list (by decide),
   rfl, by decide, at_list (by decide), rfl, rfl, by decide, rfl, by decide, at_list (by decide), rfl, rfl, by decide, at_list (by
   decide), rfl, rfl, at_list (by decide), rfl, by decide, rfl, rfl, by decide, at_list (by decide), rfl, rfl, at_list (by decide), by
   decide, rfl, rfl, by decide, by decide, rfl⟩

end Lists

namespace Commands

/-- Operands of a COPY, of a GATHER with hint `h`, and of a SUBSCRIBE, by the tags that are owned. -/
def copyAt (owned : Word) : State := tagState [(1, 0x40000), (2, 0x50000), (3, word (3 * 2 ^ 32 + 8))] 0 owned [] []
def gatherAt (h : Nat) : State :=
  tagState [(1, 0x40000), (2, 0x50000), (3, word (h * 2 ^ 52 + 3 * 2 ^ 45 + 3 * 2 ^ 21 + 2 ^ 37))] 0 0 [] []
def subscribeAt (b : Word) (fault : Word) : State := tagState [(1, 0x40040), (2, b), (3, 1)] fault 4 [] [feed 8 [⟨500, 0, 0, []⟩]]

/-- The same core with two commands in its queue. -/
def twoQueued : State :=
  { copyAt 0 with ops := [{ cmdOp .copy [0, 0, 0] with id := 20 }, { cmdOp .copy [0, 0, 0] with id := 21 }] }

/-- A part of a feed that holds a tile that has been popped, and parts that hold one that waits to be and none. -/
def popped : Part := ⟨500, 1, 1, [⟨0, 0, none, true⟩]⟩
def waiting : Part := ⟨500, 1, 0, [⟨0, 0, none, false⟩]⟩
def bare : Part := ⟨500, 1, 0, []⟩

/-- The feed whose tile has been popped, and a thread that names its descriptor in g1 and its number in g2. -/
def feed1 : Sub := feed 8 [popped]
def feedAt : State := tagState [(1, 0x40040), (2, 1)] 0 4 [] [feed1]

/-- A mask in g1 and the tags that are set. -/
def tagsAt (mask tags : Word) : State := tagState [(1, mask)] tags 1 [] []

/-- Paused work of COPYR, and a thread that names it. -/
def pausedCopy : Paused := ⟨copyCmd, cPage, 0x40000, 0⟩
def pausedAt (a : Word) : State := tagState [(1, a)] 0x8 8 [pausedCopy] []

/-- A wait on the tags of a mask that is already going on. -/
def waitGoes (tags : Word) (all : Bool) : State :=
  let s := tagState [(1, 6)] tags 0 [] []
  { s.setCtx home { s.now with busy := .tagWait all 6 3 1000 } with arg := .ctx home }

/-- RINGPOP of a ring with a part. -/
def ringAt (p : Part) : State := tagState [(1, 1)] 0x100 0xF00 [] [feed 8 [p]]

set_option maxRecDepth 8000 in
/-- Commands_and_tags_are_issued: COPY with a free and an owned tag and with a full queue; SCATTER and GATHER; SUBSCRIBE of a new and of a faulted
feed; UNSUB and RINGREL. -/
theorem witness_commands :
    (copyAt 0).Ready false [gr 1, gr 2, gr 3] ∧
    (bits ((copyAt 0).now.getG 3) 63 41 = 0 ∧
     bits ((copyAt 0).now.getG 3) 39 38 = 0 ∧
     BitVec.toNat ((copyAt 0).now.getG 1) % 8 = 0 ∧
     BitVec.toNat ((copyAt 0).now.getG 2) % 8 = 0 ∧
     bits ((copyAt 0).now.getG 3) 31 0 % 8 = 0) ∧
    (∃ p, (copyAt 0).place (copyAt 0).cur.core ((copyAt 0).now.getG 1) = Except.ok p) ∧
    (∃ p, (copyAt 0).place (copyAt 0).cur.core ((copyAt 0).now.getG 2) = Except.ok p) ∧
    (passesEnd ((copyAt 0).now.getG 1) (bits ((copyAt 0).now.getG 3) 31 0) = false ∧
     passesEnd ((copyAt 0).now.getG 2) (bits ((copyAt 0).now.getG 3) 31 0) = false ∧
     bit ((copyAt 0).core (copyAt 0).cur.core).owned (bits ((copyAt 0).now.getG 3) 37 32) = false ∧
     ((copyAt 0).commands (copyAt 0).cur.core).length < 2) ∧
    (copyAt 8).Ready false [gr 1, gr 2, gr 3] ∧
    (bits ((copyAt 8).now.getG 3) 63 41 = 0 ∧
     bits ((copyAt 8).now.getG 3) 39 38 = 0 ∧
     BitVec.toNat ((copyAt 8).now.getG 1) % 8 = 0 ∧
     BitVec.toNat ((copyAt 8).now.getG 2) % 8 = 0 ∧
     bits ((copyAt 8).now.getG 3) 31 0 % 8 = 0) ∧
    (∃ p, (copyAt 8).place (copyAt 8).cur.core ((copyAt 8).now.getG 1) = Except.ok p) ∧
    (∃ p, (copyAt 8).place (copyAt 8).cur.core ((copyAt 8).now.getG 2) = Except.ok p) ∧
    (passesEnd ((copyAt 8).now.getG 1) (bits ((copyAt 8).now.getG 3) 31 0) = false ∧
     passesEnd ((copyAt 8).now.getG 2) (bits ((copyAt 8).now.getG 3) 31 0) = false ∧
     bit ((copyAt 8).core (copyAt 8).cur.core).owned (bits ((copyAt 8).now.getG 3) 37 32) = true) ∧
    twoQueued.Ready false [gr 1, gr 2, gr 3] ∧
    (bits (twoQueued.now.getG 3) 63 41 = 0 ∧
     bits (twoQueued.now.getG 3) 39 38 = 0 ∧
     BitVec.toNat (twoQueued.now.getG 1) % 8 = 0 ∧
     BitVec.toNat (twoQueued.now.getG 2) % 8 = 0 ∧
     bits (twoQueued.now.getG 3) 31 0 % 8 = 0) ∧
    (∃ p, twoQueued.place twoQueued.cur.core (twoQueued.now.getG 1) = Except.ok p) ∧
    (∃ p, twoQueued.place twoQueued.cur.core (twoQueued.now.getG 2) = Except.ok p) ∧
    (passesEnd (twoQueued.now.getG 1) (bits (twoQueued.now.getG 3) 31 0) = false ∧
     passesEnd (twoQueued.now.getG 2) (bits (twoQueued.now.getG 3) 31 0) = false ∧
     bit (twoQueued.core twoQueued.cur.core).owned (bits (twoQueued.now.getG 3) 37 32) = false ∧
     2 ≤ (twoQueued.commands twoQueued.cur.core).length) ∧
    (gatherAt 2).Ready false [gr 1, gr 2, gr 3] ∧
    (bits ((gatherAt 2).now.getG 3) 63 54 = 0 ∧
     gatherOff ((gatherAt 2).now.getG 3) % 4 = 0 ∧
     gatherOff ((gatherAt 2).now.getG 3) + gatherCount ((gatherAt 2).now.getG 3) * gatherBytes ((gatherAt 2).now.getG 3) ≤ (gatherAt
       2).reservoir ((gatherAt 2).jobOf (gatherAt 2).cur.core) ∧
     (gatherAt 2).checkThen (gatherAt 2).cur.core ((gatherAt 2).now.getG 1) (gatherIndexBytes ((gatherAt 2).now.getG 3)) (gatherIndexBytes
       ((gatherAt 2).now.getG 3)) = none ∧
     BitVec.toNat ((gatherAt 2).now.getG 2) % 4 = 0 ∧
     bit ((gatherAt 2).core (gatherAt 2).cur.core).owned (bits ((gatherAt 2).now.getG 3) 50 45) = false) ∧
    ((gatherAt 2).commands (gatherAt 2).cur.core).length < 2 ∧
    (gatherAt 0).Ready false [gr 1, gr 2, gr 3] ∧
    (bits ((gatherAt 0).now.getG 3) 63 54 = 0 ∧
     gatherOff ((gatherAt 0).now.getG 3) % 4 = 0 ∧
     gatherOff ((gatherAt 0).now.getG 3) + gatherCount ((gatherAt 0).now.getG 3) * gatherBytes ((gatherAt 0).now.getG 3) ≤ (gatherAt
       0).reservoir ((gatherAt 0).jobOf (gatherAt 0).cur.core) ∧
     (gatherAt 0).checkThen (gatherAt 0).cur.core ((gatherAt 0).now.getG 1) (gatherIndexBytes ((gatherAt 0).now.getG 3)) (gatherIndexBytes
       ((gatherAt 0).now.getG 3)) = none ∧
     BitVec.toNat ((gatherAt 0).now.getG 2) % 4 = 0 ∧
     bits ((gatherAt 0).now.getG 3) 53 52 = 0) ∧
    (subscribeAt 3 0).Ready false [gr 1, gr 2, gr 3] ∧
    (bits ((subscribeAt 3 0).now.getG 2) 63 10 = 0 ∧
     bits ((subscribeAt 3 0).now.getG 2) 7 6 = 0 ∧
     (subscribeAt 3 0).checkThen (subscribeAt 3 0).cur.core ((subscribeAt 3 0).now.getG 1) 64 64 = none ∧
     bit ((subscribeAt 3 0).now.getG 2) 9 = false ∧
     (subscribeAt 3 0).subsOf (subscribeAt 3 0).cur.core < 8) ∧
    (subscribeAt 514 4).Ready false [gr 1, gr 2, gr 3] ∧
    (bits ((subscribeAt 514 4).now.getG 2) 63 10 = 0 ∧
     bits ((subscribeAt 514 4).now.getG 2) 7 6 = 0 ∧
     (subscribeAt 514 4).checkThen (subscribeAt 514 4).cur.core ((subscribeAt 514 4).now.getG 1) 64 64 = none ∧
     bit ((subscribeAt 514 4).now.getG 2) 9 = true ∧
     (∃ y, y ∈ (subscribeAt 514 4).subs ∧ y.core = (subscribeAt 514 4).cur.core ∧ y.ct = bits ((subscribeAt 514 4).now.getG 2) 5 0 ∧
       y.desc = absAddr (subscribeAt 514 4).cur.core ((subscribeAt 514 4).now.getG 1)) ∧
     bit ((subscribeAt 514 4).core (subscribeAt 514 4).cur.core).tagfault (bits ((subscribeAt 514 4).now.getG 2) 5 0) = true) ∧
    ((subscribeAt 514 4).commands (subscribeAt 514 4).cur.core).length < 2 ∧
    feedAt.Ready false [gr 1] ∧
    (feedAt.commands feedAt.cur.core).length < 2 ∧
    (∃ y, y ∈ feedAt.subs ∧ y.core = feedAt.cur.core ∧ y.desc = absAddr feedAt.cur.core (feedAt.now.getG 1)) ∧
    feedAt.Ready false [gr 2] ∧
    feedAt.subOn feedAt.cur.core (bits (feedAt.now.getG 2) 2 0) = some feed1 ∧
    ((List.filter (fun q => q.core == feedAt.cur.core) feed1.parts = [popped]) ∧
     bits (feedAt.now.getG 2) 63 10 = 0 ∧
     bits (feedAt.now.getG 2) 7 3 = 0 ∧
     (feedAt.releasesComing feedAt.cur.core (bits (feedAt.now.getG 2) 2 0) < (List.filter (fun x => x.popped) popped.slots).length)) :=
  ⟨ready_of (by decide), by decide, ⟨_, rfl⟩, ⟨_, rfl⟩, by decide, ready_of (by decide), by decide, ⟨_, rfl⟩, ⟨_, rfl⟩, by decide,
   ready_of (by decide), by decide, ⟨_, rfl⟩, ⟨_, rfl⟩, by decide, ready_of (by decide), by decide, by decide, ready_of (by decide), by
   decide, ready_of (by decide), by decide, ready_of (by decide), by decide, by decide, ready_of (by decide), by decide, by decide,
   ready_of (by decide), rfl, by decide⟩

set_option maxRecDepth 8000 in
/-- Commands_and_tags_are_issued: TAGCLR; TAGFF with and without a ready tag; COPYR with nothing paused and with each function. -/
theorem witness_tags :
    (tagsAt 15 21).Ready false [gr 1] ∧
    4 < 64 ∧
    rising (tagsAt 15 21).cores = true ∧
    (tagsAt 12 22).Ready false [gr 1, gr 3] ∧
    (2 < 64 ∧
     bit (((tagsAt 12 22).core (tagsAt 12 22).cur.core).ready &&& (tagsAt 12 22).now.getG 1) 2 = true ∧
     (∀ (u : Nat), u < 2 → bit (((tagsAt 12 22).core (tagsAt 12 22).cur.core).ready &&& (tagsAt 12 22).now.getG 1) u = false)) ∧
    (tagsAt 12 18).Ready false [gr 1, gr 3] ∧
    ((tagsAt 12 18).core (tagsAt 12 18).cur.core).ready &&& (tagsAt 12 18).now.getG 1 = 0 ∧
    (pausedAt 4).Ready false [gr 1, gr 3] ∧
    (bits ((pausedAt 4).now.getG 1) 63 10 = 0 ∧
     bits ((pausedAt 4).now.getG 1) 7 6 = 0 ∧
     (∀ (p : Paused), p ∈ ((pausedAt 4).core (pausedAt 4).cur.core).paused → p.cmd.tag ≠ bits ((pausedAt 4).now.getG 1) 5 0)) ∧
    (pausedAt 3).Ready false [gr 1, gr 3] ∧
    (bits ((pausedAt 3).now.getG 1) 63 10 = 0 ∧
     bits ((pausedAt 3).now.getG 1) 7 6 = 0 ∧
     ((pausedAt 3).core (pausedAt 3).cur.core).paused = [pausedCopy] ∧
     pausedCopy.cmd.tag = bits ((pausedAt 3).now.getG 1) 5 0 ∧
     bits ((pausedAt 3).now.getG 1) 9 8 = 0) ∧
    (pausedAt 259).Ready false [gr 1, gr 3] ∧
    (bits ((pausedAt 259).now.getG 1) 63 10 = 0 ∧
     bits ((pausedAt 259).now.getG 1) 7 6 = 0 ∧
     ((pausedAt 259).core (pausedAt 259).cur.core).paused = [pausedCopy] ∧
     pausedCopy.cmd.tag = bits ((pausedAt 259).now.getG 1) 5 0 ∧
     bits ((pausedAt 259).now.getG 1) 9 8 = 1) ∧
    (pausedAt 515).Ready false [gr 1, gr 3] ∧
    (bits ((pausedAt 515).now.getG 1) 63 10 = 0 ∧
     bits ((pausedAt 515).now.getG 1) 7 6 = 0 ∧
     ((pausedAt 515).core (pausedAt 515).cur.core).paused = [pausedCopy] ∧
     pausedCopy.cmd.tag = bits ((pausedAt 515).now.getG 1) 5 0 ∧
     bits ((pausedAt 515).now.getG 1) 9 8 = 2 ∧
     ((pausedAt 515).commands (pausedAt 515).cur.core).length < 2) ∧
    (pausedAt 771).Ready false [gr 1, gr 3] ∧
    (bits ((pausedAt 771).now.getG 1) 63 10 = 0 ∧
     bits ((pausedAt 771).now.getG 1) 7 6 = 0 ∧
     ((pausedAt 771).core (pausedAt 771).cur.core).paused = [pausedCopy] ∧
     pausedCopy.cmd.tag = bits ((pausedAt 771).now.getG 1) 5 0 ∧
     bits ((pausedAt 771).now.getG 1) 9 8 = 3 ∧
     rising (pausedAt 771).cores = true) :=
  ⟨ready_of (by decide), by decide, by decide, ready_of (by decide), by decide, ready_of (by decide), by decide, ready_of (by decide), by
   decide, ready_of (by decide), by decide, ready_of (by decide), by decide, ready_of (by decide), by decide, ready_of (by decide), by
   decide⟩

set_option maxRecDepth 8000 in
/-- Commands_and_tags_are_issued: waits that end at once and that go on, and RINGPOP of an empty ring and of one with a tile. -/
theorem witness_tag_waits :
    (tagsAt 6 2).Ready true [gr 1, gr 3] ∧
    (((tagsAt 6 2).core (tagsAt 6 2).cur.core).ready &&& (tagsAt 6 2).now.getG 1 ≠ 0 ∨ (tagsAt 6 2).now.getG 1 = 0) ∧
    (tagsAt 6 6).Ready true [gr 1, gr 3] ∧
    ((tagsAt 6 6).core (tagsAt 6 6).cur.core).ready &&& (tagsAt 6 6).now.getG 1 = (tagsAt 6 6).now.getG 1 ∧
    (tagsAt 6 9).Ready true [gr 1, gr 3] ∧
    (((tagsAt 6 9).core (tagsAt 6 9).cur.core).ready &&& (tagsAt 6 9).now.getG 1 = 0 ∧
     (tagsAt 6 9).now.getG 1 ≠ 0 ∧
     (tagsAt 6 9).cycle < (tagsAt 6 9).cycle + (tagsAt 6 9).now.feretry.toNat * ctxCount ((tagsAt 6 9).core (tagsAt 6
       9).cur.core).partword ∧
     ((tagsAt 6 9).core (tagsAt 6 9).cur.core).held = false ∧
     rising (tagsAt 6 9).ctxs = true) ∧
    (tagsAt 6 4).Ready true [gr 1, gr 3] ∧
    (((tagsAt 6 4).core (tagsAt 6 4).cur.core).ready &&& (tagsAt 6 4).now.getG 1 ≠ (tagsAt 6 4).now.getG 1 ∧
     (tagsAt 6 4).cycle < (tagsAt 6 4).cycle + (tagsAt 6 4).now.feretry.toNat * ctxCount ((tagsAt 6 4).core (tagsAt 6
       4).cur.core).partword ∧
     ((tagsAt 6 4).core (tagsAt 6 4).cur.core).held = false ∧
     rising (tagsAt 6 4).ctxs = true) ∧
    (ringAt bare).Ready true [gr 1, gr 3] ∧
    (bits ((ringAt bare).now.getG 1) 63 3 = 0 ∧
     (ringAt bare).pop (ringAt bare).cur.core (bits ((ringAt bare).now.getG 1) 2 0) = none ∧
     (ringAt bare).cycle < (ringAt bare).cycle + (ringAt bare).now.feretry.toNat * ctxCount ((ringAt bare).core (ringAt
       bare).cur.core).partword ∧
     ((ringAt bare).core (ringAt bare).cur.core).held = false ∧
     rising (ringAt bare).ctxs = true ∧
     ((ringAt waiting).pop 500 1).isSome = true) ∧
    (waitGoes 2 false).arg = Arg.ctx home ∧
    (((waitGoes 2 false).ctx home).busy = Busy.tagWait false 6 3 1000 ∧
     2 = ((waitGoes 2 false).core home.core).ready &&& 6 ∧
     (if false = true then 2 = 6 else 2 ≠ 0)) ∧
    (waitGoes 6 true).arg = Arg.ctx home ∧
    (((waitGoes 6 true).ctx home).busy = Busy.tagWait true 6 3 1000 ∧
     6 = ((waitGoes 6 true).core home.core).ready &&& 6 ∧
     (if true = true then 6 = 6 else 6 ≠ 0)) :=
  ⟨ready_of (by decide), by decide, ready_of (by decide), by decide, ready_of (by decide), by decide, ready_of (by decide), by decide,
   ready_of (by decide), by decide, rfl, by decide, rfl, by decide⟩

end Commands

namespace Engines

/-- A command of a kind at the head of its core's queue. -/
def leaveState (k : CmdKind) : State := { tagState [] 0 0 [] [] with ops := [cmdOp k copyCmd.words], arg := .num 500 }

/-- A command that is a release. -/
def strongOp : Op := { cmdOp .copy copyCmd.words with ord := .release }
def strongState : State := { leaveState .copy with ops := [strongOp] }

/-- The state, and the fault, that a piece of work ends with. -/
def workState : Work → State
  | .done u => u
  | _ => State.reset
def workFault : Work → EFault
  | .fault f => f
  | _ => (0, 0)

/-- Whether a piece of work ends well, or with a fault. -/
def isDone : Work → Bool
  | .done _ => true
  | _ => false
def isFault : Work → Bool
  | .fault _ => true
  | _ => false

theorem done_of {w : Work} (h : isDone w = true) : w = .done (workState w) := by
  cases w <;> first | rfl | cases h

theorem fault_of {w : Work} (h : isFault w = true) : w = .fault (workFault w) := by
  cases w <;> first | rfl | cases h

/-- A copy from a page that may not be read. -/
def lostCmd : Cmd := ⟨.copy, home, 1, 0, [0x6000000000000000, 0x50000, word (3 * 2 ^ 32 + 8)]⟩
def lostState : State := (copyState lostCmd).setCluster 65 { Cluster.init with tlb := [⟨1, 0, 0, 65536, 0x30000, false, true, false⟩] }

/-- A subscription whose descriptor stands at `d`. -/
def subCmd (d : Word) : Cmd := ⟨.subscribe, home, 1, 0, [d, 2, 1]⟩
def subState (d : Word) : State := { ((tagState [] 0 4 [] []).wrWords (poolLoc 500 0x40040) feedWords) with arg := .cmd (subCmd d) }

/-- The same with a descriptor in a page that may not be read. -/
def far : Word := 0x6000000000000000
def lostSub : State := (subState far).setCluster ((subState far).feedOf 1 far) { Cluster.init with tlb := [⟨1, 0, 0, 65536, 0x30000, false, true, false⟩] }

/-- The subscription that it starts, before and after it is dealt to its subscribers. -/
def newSub : Sub :=
  { desc := absAddr 500 0x40040, words := feedWords, core := 500, job := 1, gen := 0, ct := 2, first := 0, limit := 0, faulted := false,
    failed := [], stopped := false, parts := [] }
def dealtSub : Sub := { newSub with parts := newSub.subscribers.map fun d => ⟨d, 0, 0, []⟩, first := min 1 newSub.tiles, limit := newSub.tiles }

/-- A subscription with no tile placed, and the state in which its first one is to be. -/
def fresh : Part := ⟨500, 0, 0, []⟩
def feed0 : Sub := feed 4 [fresh]
def dealBase : State := { (mapped (tagState [] 0 0xF04 [] [feed0]) 0).wr64 0x300000 0x0000000500000006 with arg := .num feed0.id }
def dealState : State :=
  dealBase.setCluster (dealBase.feedOf 1 0x6000000000300000) { Cluster.init with tlb := [⟨1, 0, 0, 2 ^ 30, 0, false, true, true⟩] }
def firstTile : Placed := ⟨0, feed0.tileOf 0 0, none, false⟩

/-- The release of a tile and the end of a subscription, on their way. -/
def usedTile : Placed := ⟨0, 0, none, true⟩
def used : Part := ⟨500, 1, 1, [usedTile]⟩
def releaseCmd : Cmd := ⟨.ringrel, home, 1, 0, [1]⟩
def releaseState : State := { mapped (tagState [] 0 0xF04 [] [feed 4 [used]]) 0 with arg := .cmd releaseCmd }
def endCmd : Cmd := ⟨.unsub, home, 1, 0, [0x40040]⟩
def endState : State := { mapped (tagState [] 0 0xF04 [] [feed0]) 0 with arg := .cmd endCmd }

/-- The gather engine with a gather and with a scatter, what they read first, and with a requester in context Y and one saved. -/
def gatherOne : Cmd := gatherCmd .gather
def scatterOne : Cmd := gatherCmd .scatter
def gatherIn : State := gatherState gatherOne
def scatterIn : State := gatherState scatterOne
def listOf (s : State) (c : Cmd) : List Word := (s.gatherAddrs c 0 1).1
def afterList (s : State) (c : Cmd) : State := (s.gatherAddrs c 0 1).2.1
def y3 : YWork := ⟨3, 77, 5, 9⟩
def y7 : YWork := ⟨7, 0x123, 300, 0⟩
def switchState (serving : Bool) (saved : List YWork) (a : Arg) : State :=
  let cl := gatherIn.cluster 65
  { gatherIn.setCluster 65 (if serving then { cl with yserve := some y3, ysaved := saved } else cl) with arg := a }

/-- A scatter to a page that may not be written. -/
def badScatter : Cmd := { scatterOne with words := [0x40000, 0x6000000000000000, word (3 * 2 ^ 45 + 2 ^ 44)] }
def badIn : State :=
  let s := gatherState badScatter
  s.setCluster 65 { s.cluster 65 with tlb := [⟨1, 0, 0, 65536, 0x30000, false, false, true⟩] }

set_option maxRecDepth 8000 in
/-- Engines_do_their_work: commands of three engines that leave; a copy that ends, one that faults, and one between pool locations. -/
theorem witness_copies :
    (leaveState CmdKind.copy).arg = Arg.num 500 ∧
    (leaveState CmdKind.copy).commands 500 = [cmdOp CmdKind.copy copyCmd.words] ∧
    (cmdOp CmdKind.copy copyCmd.words).body = OpBody.command copyCmd ∧
    (((cmdOp CmdKind.copy copyCmd.words).releases = true → (leaveState CmdKind.copy).held (cmdOp CmdKind.copy copyCmd.words) = false ∧
       (leaveState CmdKind.copy).mayRelease (cmdOp CmdKind.copy copyCmd.words) = true ∧ (leaveState CmdKind.copy).marksLeft (cmdOp
       CmdKind.copy copyCmd.words) = false) ∧
     (leaveState CmdKind.copy).engineRoom 500 copyCmd = true ∧
     rising (leaveState CmdKind.copy).cores = true ∧
     rising (leaveState CmdKind.copy).clusters = true) ∧
    strongState.arg = Arg.num 500 ∧
    strongState.commands 500 = [strongOp] ∧
    strongOp.body = OpBody.command copyCmd ∧
    ((strongOp.releases = true → strongState.held strongOp = false ∧ strongState.mayRelease strongOp = true ∧ strongState.marksLeft
       strongOp = false) ∧
     strongState.engineRoom 500 copyCmd = true ∧
     rising strongState.cores = true ∧
     rising strongState.clusters = true ∧
     strongOp.releases = true ∧
     ((leaveState .gather).cluster (clusterOf 500)).gatherq = []) ∧
    (leaveState CmdKind.gather).arg = Arg.num 500 ∧
    (leaveState CmdKind.gather).commands 500 = [cmdOp CmdKind.gather copyCmd.words] ∧
    (cmdOp CmdKind.gather copyCmd.words).body = OpBody.command
      { kind := CmdKind.gather, ctx := home, job := 1, gen := 0, words := copyCmd.words } ∧
    (((cmdOp CmdKind.gather copyCmd.words).releases = true → (leaveState CmdKind.gather).held (cmdOp CmdKind.gather copyCmd.words) = false
       ∧ (leaveState CmdKind.gather).mayRelease (cmdOp CmdKind.gather copyCmd.words) = true ∧ (leaveState CmdKind.gather).marksLeft (cmdOp
       CmdKind.gather copyCmd.words) = false) ∧
     (leaveState CmdKind.gather).engineRoom 500 { kind := CmdKind.gather, ctx := home, job := 1, gen := 0, words := copyCmd.words } = true
       ∧
     rising (leaveState CmdKind.gather).cores = true ∧
     rising (leaveState CmdKind.gather).clusters = true) ∧
    (leaveState CmdKind.mxrun).arg = Arg.num 500 ∧
    (leaveState CmdKind.mxrun).commands 500 = [cmdOp CmdKind.mxrun copyCmd.words] ∧
    (cmdOp CmdKind.mxrun copyCmd.words).body = OpBody.command
      { kind := CmdKind.mxrun, ctx := home, job := 1, gen := 0, words := copyCmd.words } ∧
    (((cmdOp CmdKind.mxrun copyCmd.words).releases = true → (leaveState CmdKind.mxrun).held (cmdOp CmdKind.mxrun copyCmd.words) = false ∧
       (leaveState CmdKind.mxrun).mayRelease (cmdOp CmdKind.mxrun copyCmd.words) = true ∧ (leaveState CmdKind.mxrun).marksLeft (cmdOp
       CmdKind.mxrun copyCmd.words) = false) ∧
     (leaveState CmdKind.mxrun).engineRoom 500 { kind := CmdKind.mxrun, ctx := home, job := 1, gen := 0, words := copyCmd.words } = true ∧
     rising (leaveState CmdKind.mxrun).cores = true ∧
     rising (leaveState CmdKind.mxrun).clusters = true) ∧
    (copyState copyCmd).arg = Arg.num 500 ∧
    (((copyState copyCmd).core 500).copyq = [(copyCmd, 0)] ∧
     copyCmd.copyLen = 8 ∧
     0 < 8 ∧
     8 ≤ 64) ∧
    (copyState copyCmd).copyPiece copyCmd 0 8 = Work.done (workState ((copyState copyCmd).copyPiece copyCmd 0 8)) ∧
    lostState.arg = Arg.num 500 ∧
    (lostState.core 500).copyq = [(lostCmd, 0)] ∧
    lostCmd.copyLen = 8 ∧
    lostState.copyPiece lostCmd 0 8 = Work.fault (workFault (lostState.copyPiece lostCmd 0 8)) ∧
    (lostState.pauseRoom 500 = true ∧
     rising lostState.cores = true ∧
     lostCmd.ctx.core = 500 ∧
     (lostState.core 500).tagWaiters = [] ∧
     copyCmd.words = [0x40000, 0x50000, word (3 * 2 ^ 32 + 8)] ∧
     copyCmd.ctx.core = 500) ∧
    (copyState copyCmd).reach 500 copyCmd.job Need.read 0x40000 8 = Except.ok (poolLoc 500 0x40000) ∧
    (copyState copyCmd).reach 500 copyCmd.job Need.write 0x50000 8 = Except.ok (poolLoc 500 0x50000) ∧
    ((copyState copyCmd).poison = [] ∧
     inTables (poolLoc 500 0x40000) 8 = false ∧
     rising (copyState copyCmd).mem = true ∧
     rising (copyState copyCmd).cores = true ∧
     ((copyState copyCmd).core 500).tagWaiters = []) :=
  ⟨rfl, by decide, rfl, by decide, rfl, by decide, rfl, by decide, rfl, by decide, rfl, by decide, rfl, by decide, rfl, by decide, rfl,
   by decide, done_of (by decide), rfl, by decide, by decide, fault_of (by decide), by decide, rfl, rfl, by decide⟩

set_option maxRecDepth 8000 in
/-- Engines_do_their_work: a subscription with a bad and with a good descriptor; a tile that is placed; a release and an end. -/
theorem witness_feeds :
    lostSub.arg = Arg.cmd (subCmd far) ∧
    lostSub.stampOk (subCmd far).job (subCmd far).gen = true ∧
    bit ((subCmd far).words.getD 1 0) 9 = false ∧
    lostSub.readDesc (subCmd far).ctx.core (subCmd far).job (absAddr (subCmd far).ctx.core ((subCmd far).words.getD 0 0)) = Except.error
      (cProtect, far) ∧
    cProtect ≠ 0 ∧
    cProtect ≠ cUncorrectable ∧
    (subState 0x40040).readDesc 500 1 (absAddr 500 0x40040) = Except.ok (feedWords, subState 0x40040) ∧
    ((subState 0x40040).subRefused newSub = false ∧
     dealtSub.allGone = false ∧
     ((subState 0x40040).subs.all (fun z => z.id != dealtSub.id) = true)) ∧
    dealState.arg = Arg.num feed0.id ∧
    (List.find? (fun z => z.id == feed0.id) dealState.subs = some feed0) ∧
    feed0.stopped = false ∧
    (dealState.core feed0.core).held = false ∧
    dealState.nextDeal feed0 = some (fresh, 0, none) ∧
    dealState.fillSlot feed0 fresh.core 0 { k := fresh.placed, tile := feed0.tileOf 0 fresh.placed, lent := none, popped := false } =
      Work.done (workState (dealState.fillSlot feed0 500 0 firstTile)) ∧
    rising (workState (dealState.fillSlot feed0 500 0 firstTile)).cores = true ∧
    ((workState (dealState.fillSlot feed0 500 0 firstTile)).core fresh.core).tagWaiters = [] ∧
    releaseState.arg = Arg.cmd releaseCmd ∧
    releaseState.subOn releaseCmd.ctx.core (bits (releaseCmd.words.getD 0 0) 2 0) = some (feed 4 [used]) ∧
    (bit (releaseCmd.words.getD 0 0) 8 = false ∧
     (feed 4 [used]).parts = [used] ∧
     used.core = releaseCmd.ctx.core ∧
     used.slots = [usedTile] ∧
     usedTile.popped = true ∧
     ({ (feed 4 [used]) with parts := [{ used with slots := [] }] } : Sub).allGone = false) ∧
    ((feed 4 [used]).failed = [] ∧
     releaseState.subs = [feed 4 [used]] ∧
     (∀ (d : Due), d ∈ releaseState.agenda → d.path ≠ some ((feed 4 [used]).releases releaseCmd.ctx.core))) ∧
    endState.arg = Arg.cmd endCmd ∧
    (List.find? (fun y => y.core == endCmd.ctx.core && y.desc == absAddr endCmd.ctx.core (endCmd.words.getD 0 0)) endState.subs = some
      feed0) ∧
    ((∀ (p : Part), p ∈ feed0.parts → p.slots = [] ∧ (endState.core p.core).tagWaiters = []) ∧
     (endState.core feed0.core).tagWaiters = [] ∧
     rising endState.cores = true ∧
     feed0.ct < 64) :=
  ⟨rfl, by decide, by decide, rfl, by decide, by decide, rfl, by decide, rfl, rfl, by decide, by decide, rfl, done_of (by decide), by
   decide, by decide, rfl, rfl, by decide, by decide, rfl, rfl, by decide⟩

set_option maxRecDepth 8000 in
/-- Engines_do_their_work: a gather and a scatter of one element, the switches of context Y, and an element that is gathered. -/
theorem witness_gathers :
    gatherIn.arg = Arg.num 65 ∧
    ((gatherIn.cluster 65).gatherq = [(gatherOne, 0)] ∧
     gatherIn.gatherRecords 65 < 8 ∧
     gatherIn.pauseRoom gatherOne.ctx.core = true ∧
     (gatherIn.cluster 65).window = [] ∧
     gatherCount (gatherOne.words.getD 2 0) ≤ 256) ∧
    gatherIn.gatherAddrs gatherOne 0 (gatherCount (gatherOne.words.getD 2 0)) = (listOf gatherIn gatherOne, afterList gatherIn gatherOne,
      none) ∧
    ((afterList gatherIn gatherOne).gatherSome gatherOne 65 0 (listOf gatherIn gatherOne)).1 = 1 ∧
    ((afterList gatherIn gatherOne).gatherSome gatherOne 65 0 (listOf gatherIn gatherOne)).2.2 = none ∧
    scatterIn.arg = Arg.num 65 ∧
    ((scatterIn.cluster 65).gatherq = [(scatterOne, 0)] ∧
     scatterIn.gatherRecords 65 < 8 ∧
     scatterIn.pauseRoom scatterOne.ctx.core = true ∧
     (scatterIn.cluster 65).window = [] ∧
     gatherCount (scatterOne.words.getD 2 0) ≤ 256) ∧
    scatterIn.gatherAddrs scatterOne 0 (gatherCount (scatterOne.words.getD 2 0)) = (listOf scatterIn scatterOne, afterList scatterIn
      scatterOne, none) ∧
    scatterOne.kind = CmdKind.scatter ∧
    (afterList scatterIn scatterOne).scatterWindow scatterOne 65 0 (listOf scatterIn scatterOne) = Work.done (workState ((afterList
      scatterIn scatterOne).scatterWindow scatterOne 65 0 (listOf scatterIn scatterOne))) ∧
    (listOf scatterIn scatterOne).length = gatherCount (scatterOne.words.getD 2 0) ∧
    badIn.arg = Arg.num 65 ∧
    ((badIn.cluster 65).gatherq = [(badScatter, 0)] ∧
     badIn.gatherRecords 65 < 8 ∧
     badIn.pauseRoom badScatter.ctx.core = true ∧
     (badIn.cluster 65).window = [] ∧
     gatherCount (badScatter.words.getD 2 0) ≤ 256) ∧
    badIn.gatherAddrs badScatter 0 (gatherCount (badScatter.words.getD 2 0)) = (listOf badIn badScatter, afterList badIn badScatter,
      none) ∧
    badScatter.kind = CmdKind.scatter ∧
    (afterList badIn badScatter).scatterWindow badScatter 65 0 (listOf badIn badScatter) = Work.fault (workFault ((afterList badIn
      badScatter).scatterWindow badScatter 65 0 (listOf badIn badScatter))) ∧
    (switchState false [] (Arg.system 65 y7)).arg = Arg.system 65 y7 ∧
    ((switchState false [] (Arg.system 65 y7)).cluster 65).yserve = none ∧
    (switchState true [] (Arg.system 65 y7)).arg = Arg.system 65 y7 ∧
    ((switchState true [] (Arg.system 65 y7)).cluster 65).yserve = some y3 ∧
    y3.who ≠ y7.who ∧
    (switchState true [] (Arg.system 65 { who := 3, addr := 9, left := 9, due := 0 })).arg = Arg.system 65
      { who := 3, addr := 9, left := 9, due := 0 } ∧
    ((switchState true [] (Arg.system 65 { who := 3, addr := 9, left := 9, due := 0 })).cluster 65).yserve = some y3 ∧
    y3.who = 3 ∧
    (switchState true [] (Arg.pair 65 8)).arg = Arg.pair 65 8 ∧
    ((switchState true [] (Arg.pair 65 8)).cluster 65).yserve = some y3 ∧
    y3.due ≠ 8 ∧
    (switchState true [] (Arg.pair 65 9)).arg = Arg.pair 65 9 ∧
    ((switchState true [] (Arg.pair 65 9)).cluster 65).yserve = some y3 ∧
    y3.due = 9 ∧
    ((switchState true [] (Arg.pair 65 9)).cluster 65).ysaved = [] ∧
    (switchState true [y7] (Arg.pair 65 9)).arg = Arg.pair 65 9 ∧
    ((switchState true [y7] (Arg.pair 65 9)).cluster 65).yserve = some y3 ∧
    (((switchState true [y7] (Arg.pair 65 9)).cluster 65).ysaved = [y7] ∧
     gatherOne.words.getD 2 0 = word (3 * 2 ^ 45 + 2 ^ 44) ∧
     bit (word (3 * 2 ^ 45 + 2 ^ 44)) 44 = true ∧
     bits (word (3 * 2 ^ 45 + 2 ^ 44)) 43 37 = 0 ∧
     gatherIn.poison = [] ∧
     rising gatherIn.mem = true) ∧
    gatherIn.reach gatherOne.ctx.core gatherOne.job Need.read (gatherOne.words.getD 0 0 + word (8 * 0)) 8 = Except.ok (poolLoc 500
      0x40000) ∧
    inTables (poolLoc 500 0x40000) 8 = false ∧
    gatherIn.reach gatherOne.ctx.core gatherOne.job Need.read (elementAddr (gatherOne.words.getD 1 0) (gatherIn.read (poolLoc 500
      0x40000) 8) 4) 4 = Except.ok (poolLoc 500 0x50008) ∧
    inTables (poolLoc 500 0x50008) 4 = false :=
  ⟨rfl, by decide, rfl, by decide, by decide, rfl, by decide, rfl, by decide, done_of (by decide), by decide, rfl, by decide, rfl, by
   decide, fault_of (by decide), rfl, by decide, rfl, rfl, by decide, rfl, rfl, by decide, rfl, rfl, by decide, rfl, rfl, by decide, by
   decide, rfl, rfl, by decide, rfl, by decide, rfl, by decide⟩

end Engines

namespace Matrix

/-- Operands of a matrix instruction in g1 and g2. -/
def at2 (a b : Word) : State := mxState [(1, a), (2, b)] 0

/-- MXSCALE's descriptor in the pool, with its parameters. -/
def scaleState : State := (at2 0x40040 32).wrWords (poolLoc 500 0x40040) scaleWords

/-- A monitor core, whose job may make capabilities. -/
def monitorState : State := (at2 5 0).setCore 500 { corePad with owner := some 0 }

/-- The table reads of MXMAP after two of its entries, and a step of MXSCALE on the first of two rows. -/
def mapStep : State := (stepOf (.mxmap 0x40040 0x9 [3, 4])).wr64 (poolLoc 500 0x40050) 77
def scaleStep : State :=
  (((stepOf (.mxscale scaleWords 0 0)).write (poolLoc 500 0x52000) 4 0x3F800000).write (poolLoc 500 0x53000) 4 0x40000000).write
    (poolLoc 500 0x51000) 4 3

/-- What MXSCALE's step makes of the state. -/
def slotState' : SlotAns State → State
  | .ok t => t
  | _ => State.reset
def slotOk : SlotAns State → Bool
  | .ok _ => true
  | _ => false

theorem slot_of {r : SlotAns State} (h : slotOk r = true) : r = .ok (slotState' r) := by
  cases r <;> first | rfl | cases h

/-- Commands that the engine performs. -/
def mapCmd : Cmd := ⟨.mxmap, home, 1, 0, [0x103, 1, 2, 3, 4, 5, 6, 7, 8]⟩
def bCmd : Cmd := ⟨.mxb, home, 1, 0, [mxbWord]⟩
def aCmd : Cmd := ⟨.mxa, home, 1, 0, [mxaWord, 0x2000]⟩
def runCmd : Cmd := ⟨.mxrun, home, 1, 0, [runWord, 0]⟩

/-- The index list of MXA. -/
def aState : State := ((performState aCmd true).write (storeLoc 65 0x2000) 4 0x9000).write (storeLoc 65 0x2004) 4 0x9100

/-- A store to the command window of the cluster with a capability, and a good capability. -/
def windowOp (cap : Word) : Op :=
  { opAt (.store 1 16 (BitVec.ofNat 128 (runWord.toNat * 2 ^ 64 + cap.toNat))) with addr := storeAddr 65 0x1FFFF0, mx := true, jidx := some 3 }
def windowState (cap : Word) : State := { mxState [] 0 with ops := [windowOp cap], arg := .num 9, capkey := 7 }
def goodCap : Word := word (capTag 7 (2 ^ 16 + 5 * 32 + 5) * 2 ^ 32 + (2 ^ 16 + 5 * 32 + 5))

set_option maxRecDepth 8000 in
/-- Matrix_commands_are_issued: an engine that has failed; MXB, MXA, MXRUN and MXMAP; MXSKIP, MXSCALE, MXSTAT, MXCAP and MXSEND; and the steps of
MXMAP and MXSCALE. -/
theorem witness_issued :
    ((true = true → (mxState [] 2).outstanding (mxState [] 2).cur = false ∧ (mxState [] 2).now.faultTrap = none) ∧
     ((mxState [] 2).cluster (clusterOf (mxState [] 2).cur.core)).health = 2 ∧
     ((at2 mxbWord 0).cluster (clusterOf (at2 mxbWord 0).cur.core)).health ≠ 2 ∧
     ((at2 mxbWord 0).commands (at2 mxbWord 0).cur.core).length < 2) ∧
    (at2 mxbWord 0).Ready false [gr 1] ∧
    (bits ((at2 mxbWord 0).now.getG 1) 62 61 = 0 ∧
     mxbPlanes ((at2 mxbWord 0).now.getG 1) * blocksOf (mxbK ((at2 mxbWord 0).now.getG 1)) 128 ≤ bits ((at2 mxbWord 0).now.getG 1) 36 21 ∧
     mxbBase ((at2 mxbWord 0).now.getG 1) + mxbStride ((at2 mxbWord 0).now.getG 1) * (mxbCols ((at2 mxbWord 0).now.getG 1) - 1) + 16 *
       (mxbPlanes ((at2 mxbWord 0).now.getG 1) * blocksOf (mxbK ((at2 mxbWord 0).now.getG 1)) 128) ≤ (at2 mxbWord 0).reservoir ((at2
       mxbWord 0).jobOf (at2 mxbWord 0).cur.core) ∧
     mxbBase ((at2 mxbWord 0).now.getG 1) % 16 = 0 ∧
     ((at2 mxaWord 0x2000).cluster (clusterOf (at2 mxaWord 0x2000).cur.core)).health ≠ 2 ∧
     ((at2 mxaWord 0x2000).commands (at2 mxaWord 0x2000).cur.core).length < 2) ∧
    (at2 mxaWord 0x2000).Ready false [gr 1, gr 2] ∧
    (bits ((at2 mxaWord 0x2000).now.getG 1) 31 0 = 0 ∧
     mxaTaken ((at2 mxaWord 0x2000).now.getG 1) ≤ mxaPlanes ((at2 mxaWord 0x2000).now.getG 1) ∧
     BitVec.toNat ((at2 mxaWord 0x2000).now.getG 2) ≤ 0x1FFFFF ∧
     BitVec.toNat ((at2 mxaWord 0x2000).now.getG 2) + 4 * mxaRows ((at2 mxaWord 0x2000).now.getG 1) ≤ (at2 mxaWord 0x2000).reservoir ((at2
       mxaWord 0x2000).jobOf (at2 mxaWord 0x2000).cur.core) ∧
     BitVec.toNat ((at2 mxaWord 0x2000).now.getG 2) % 4 = 0 ∧
     bit ((at2 mxaWord 0x2000).core (at2 mxaWord 0x2000).cur.core).owned (bits ((at2 mxaWord 0x2000).now.getG 1) 63 58) = false) ∧
    ((at2 runWord 0x2000).cluster (clusterOf (at2 runWord 0x2000).cur.core)).health ≠ 2 ∧
    ((at2 runWord 0x2000).commands (at2 runWord 0x2000).cur.core).length < 2 ∧
    (at2 runWord 0x2000).Ready false [gr 1] ∧
    (bit ((at2 runWord 0x2000).core (at2 runWord 0x2000).cur.core).owned (runTag ((at2 runWord 0x2000).now.getG 1)) = false ∧
     ((at2 0x40040 32).cluster (clusterOf (at2 0x40040 32).cur.core)).health ≠ 2 ∧
     ((at2 0x40040 32).commands (at2 0x40040 32).cur.core).length < 2) ∧
    (at2 0x40040 32).Ready true [gr 1, gr 2] ∧
    (bits ((at2 0x40040 32).now.getG 2) 63 9 = 0 ∧
     bits ((at2 0x40040 32).now.getG 2) 7 6 = 0 ∧
     1 ≤ bits ((at2 0x40040 32).now.getG 2) 5 0 ∧
     bits ((at2 0x40040 32).now.getG 2) 5 0 ≤ 32 ∧
     (at2 0x40040 32).rangeTrap (at2 0x40040 32).cur.core ((at2 0x40040 32).now.getG 1) 64 8 = none ∧
     rising (at2 0x40040 32).ctxs = true) ∧
    (at2 0x40040 33).Ready true [gr 1, gr 2] ∧
    (bits ((at2 0x40040 33).now.getG 1) 63 20 = 0 ∧
     BitVec.toNat ((at2 0x40040 33).now.getG 2) ≤ 4095 ∧
     BitVec.toNat ((at2 0x40040 33).now.getG 1) + 2 * BitVec.toNat ((at2 0x40040 33).now.getG 2) ≤ 0x100000 ∧
     BitVec.toNat ((at2 0x40040 33).now.getG 1) % 2 = 0 ∧
     (at2 0x40040 33).firstBad ((at2 0x40040 33).jobOf (at2 0x40040 33).cur.core) (at2 0x40040 33).cur.core (bits ((at2 0x40040
       33).now.getG 1) 19 0) (2 * BitVec.toNat ((at2 0x40040 33).now.getG 2)) = none) ∧
    scaleState.Ready true [gr 1] ∧
    scaleState.rangeTrap scaleState.cur.core (scaleState.now.getG 1) 32 8 = none ∧
    scaleState.poolHeld scaleState.cur = false ∧
    scaleState.marksAllow false (poolLoc scaleState.cur.core (bits (scaleState.now.getG 1) 19 0)) 32 ∧
    (scaleState.poison = [] ∧
     scaleBad (scaleState.rdWords (poolLoc scaleState.cur.core (bits (scaleState.now.getG 1) 19 0)) 4) = none ∧
     scaleState.now.resumed = false ∧
     rising scaleState.ctxs = true) ∧
    (at2 5 0).Ready false [gr 1, gr 3] ∧
    BitVec.toNat ((at2 5 0).now.getG 1) ≤ 5 ∧
    monitorState.Ready false [gr 1, gr 3] ∧
    (monitorState.jobOf monitorState.cur.core = 0 ∧
     bits (monitorState.now.getG 1) 63 32 = 0 ∧
     bits (monitorState.now.getG 1) 15 9 = 0 ∧
     bits (monitorState.now.getG 1) 8 5 ≤ 11) ∧
    (at2 (word (11 * 32 + 31)) runWord).Ready false [gr 1, gr 2] ∧
    (runSkips ((at2 (word (11 * 32 + 31)) runWord).now.getG 2) = false ∧
     bits ((at2 (word (11 * 32 + 31)) runWord).now.getG 1) 8 5 ≤ 11 ∧
     bit ((at2 (word (11 * 32 + 31)) runWord).core (at2 (word (11 * 32 + 31)) runWord).cur.core).owned (runTag ((at2 (word (11 * 32 + 31))
       runWord).now.getG 2)) = false) ∧
    (at2 (word (11 * 32 + 31)) runWord).ops = [] ∧
    rising (at2 (word (11 * 32 + 31)) runWord).cores = true ∧
    mapStep.arg = Arg.ctx home ∧
    ((mapStep.ctx home).busy = Busy.mxmap 0x40040 9 [3, 4] ∧
     [3, 4].length < 6 ∧
     mapStep.poison = [] ∧
     mapStep.poolHeld home = false ∧
     rising mapStep.ctxs = true ∧
     marksB (mapStep.markLines ⟨none, home⟩ (mapStep.ctx home).region false (mapStep.markable (poolLoc 500 0x40050) 16)) = true) ∧
    scaleStep.arg = Arg.ctx home ∧
    ((scaleStep.ctx home).busy = Busy.mxscale scaleWords 0 0 ∧
     scaleStep.poolHeld home = false ∧
     (scaleOfWords scaleWords).cols = 1) ∧
    scaleStep.scaleElement home (scaleOfWords scaleWords) 0 0 = SlotAns.ok (slotState' (scaleStep.scaleElement home (scaleOfWords
      scaleWords) 0 0)) ∧
    rising (slotState' (scaleStep.scaleElement home (scaleOfWords scaleWords) 0 0)).ctxs = true :=
  ⟨by decide, ready_of (by decide), by decide, ready_of (by decide), by decide, by decide, by decide, ready_of (by decide), by decide,
   ready_of (by decide), by decide, ready_of (by decide), by decide, ready_of (by decide), by decide, by decide, marks_of (by decide), by
   decide, ready_of (by decide), by decide, ready_of (by decide), by decide, ready_of (by decide), by decide, rfl, by decide, rfl, by
   decide, rfl, by decide, slot_of (by decide), by decide⟩

set_option maxRecDepth 8000 in
/-- Matrix_engine_performs: MXMAP, MXB, MXA, a run with its operands and one without; the command window with a bad and with a good capability; and an
engine that fails. -/
theorem witness_performed :
    (performState mapCmd true).arg = Arg.num 65 ∧
    rising (performState mapCmd true).clusters = true ∧
    (performState mapCmd true).mxHead 65 CmdKind.mxmap = some mapCmd ∧
    ((performState mapCmd true).cluster 65).mxq = [mapCmd] ∧
    (performState bCmd true).arg = Arg.num 65 ∧
    rising (performState bCmd true).clusters = true ∧
    (performState bCmd true).mxHead 65 CmdKind.mxb = some bCmd ∧
    ((performState bCmd true).cluster 65).mxq = [bCmd] ∧
    aState.arg = Arg.num 65 ∧
    (rising aState.clusters = true ∧
     rising aState.cores = true ∧
     (aState.core aCmd.ctx.core).tagWaiters = []) ∧
    aState.mxHead 65 CmdKind.mxa = some aCmd ∧
    (aState.cluster 65).mxq = [aCmd] ∧
    aState.gatherRows 65 (aCmd.words.getD 0 0) (bits (aCmd.words.getD 1 0) 20 0) 0 (mxaRows (aCmd.words.getD 0 0)) = Rows.ok [[0, 0], [0,
      0]] ∧
    (performState runCmd true).arg = Arg.num 65 ∧
    (rising (performState runCmd true).clusters = true ∧
     rising (performState runCmd true).cores = true ∧
     ((performState runCmd true).core runCmd.ctx.core).tagWaiters = []) ∧
    (performState runCmd true).mxHead 65 CmdKind.mxrun = some runCmd ∧
    ((performState runCmd true).runRefused 65 (runCmd.words.getD 0 0) = false ∧
     (performState runCmd true).poison = [] ∧
     runEmits (runCmd.words.getD 0 0) = false) ∧
    (performState runCmd false).arg = Arg.num 65 ∧
    (rising (performState runCmd false).clusters = true ∧
     rising (performState runCmd false).cores = true ∧
     ((performState runCmd false).core runCmd.ctx.core).tagWaiters = []) ∧
    (performState runCmd false).mxHead 65 CmdKind.mxrun = some runCmd ∧
    (performState runCmd false).runRefused 65 (runCmd.words.getD 0 0) = true ∧
    runCmd.kind = CmdKind.mxrun ∧
    (windowState 5).arg = Arg.num 9 ∧
    (windowState 5).op 9 = some (windowOp 5) ∧
    (windowOp 5).body = OpBody.store 1 16 (BitVec.ofNat 128 (BitVec.toNat runWord * 2 ^ 64 + 5)) ∧
    (windowState 5).capOk (12 * bits (windowOp 5).addr 55 51 + bits (windowOp 5).addr 59 56) (BitVec.truncate 64 (BitVec.ofNat 128
      (BitVec.toNat runWord * 2 ^ 64 + 5))) = false ∧
    (windowState goodCap).arg = Arg.num 9 ∧
    (windowState goodCap).op 9 = some (windowOp goodCap) ∧
    (windowOp goodCap).body = OpBody.store 1 16 (BitVec.ofNat 128 (BitVec.toNat runWord * 2 ^ 64 + BitVec.toNat goodCap)) :=
  ⟨rfl, by decide, rfl, by decide, rfl, by decide, rfl, by decide, rfl, by decide, rfl, by decide, by decide, rfl, by decide, rfl, by
   decide, rfl, by decide, rfl, by decide, by decide, rfl, rfl, rfl, by decide, rfl, rfl, rfl⟩

end Matrix

namespace Curves

/-- Two axes, level 1, and room for three ranges: the key (2, 2) in g1 and coordinates in g1 and g2, the control word in g4, and two corners in g5 and
g6. -/
def word2 : Word := word (2 * 2 ^ 16 + 2 ^ 9 + 1)
def keys (a lo hi : Word) : State := small [(1, a), (2, 7), (4, word2), (5, lo), (6, hi)]

set_option maxRecDepth 8000 in
/-- Curve_results: registers, control word and keys that pass their checks, for each shape of instruction, and the level of 12 and 3. -/
theorem witness_keys :
    (keys 12 3 48).Ready false [gr 1, gr 4, gr 8] ∧
    (bits ((keys 12 3 48).now.getG 4) 63 24 = 0 ∧
     bit ((keys 12 3 48).now.getG 4) 15 = false ∧
     dxAxes ((keys 12 3 48).now.getG 4) ≤ 6 ∧
     regTrap ((keys 12 3 48).core (keys 12 3 48).cur.core).partword (keys 12 3 48).now (regRange 1 (dxAxes ((keys 12 3 48).now.getG 4))) =
       none ∧
     regTrap ((keys 12 3 48).core (keys 12 3 48).cur.core).partword (keys 12 3 48).now (regRange 8 (dxAxes ((keys 12 3 48).now.getG 4))) =
       none ∧
     BitVec.toNat ((keys 12 3 48).now.getG 1) < 2 ^ (dxAxes ((keys 12 3 48).now.getG 4) * axisBits (dxAxes ((keys 12 3 48).now.getG 4)))) ∧
    (rising (keys 12 3 48).ctxs = true ∧
     rising (keys 12 3 48).now.g = true ∧
     regTrap ((keys 12 3 48).core (keys 12 3 48).cur.core).partword (keys 12 3 48).now (regRange (4 + 1) 1) = none ∧
     BitVec.toNat ((keys 12 3 48).now.getG (4 + 1)) < 2 ^ (dxAxes ((keys 12 3 48).now.getG 4) * axisBits (dxAxes ((keys 12 3 48).now.getG
       4))) ∧
     dxLevel ((keys 12 3 48).now.getG 4) ≤ axisBits (dxAxes ((keys 12 3 48).now.getG 4)) ∧
     regTrap ((keys 12 3 48).core (keys 12 3 48).cur.core).partword (keys 12 3 48).now (regRange (4 + 1) 2) = none) ∧
    (BitVec.toNat ((keys 12 3 48).now.getG (4 + 2)) < 2 ^ (dxAxes ((keys 12 3 48).now.getG 4) * axisBits (dxAxes ((keys 12 3 48).now.getG
       4))) ∧
     12 / 2 ^ (2 * 2) = 3 / 2 ^ (2 * 2) ∧
     12 / 2 ^ (2 * 1) ≠ 3 / 2 ^ (2 * 1) ∧
     ((axisOf 2 0 3 ≤ axisOf 2 0 12 ∧ axisOf 2 0 12 ≤ axisOf 2 0 48)) ∧
     ((axisOf 2 1 3 ≤ axisOf 2 1 12 ∧ axisOf 2 1 12 ≤ axisOf 2 1 48))) :=
  ⟨ready_of (by decide), by decide, by decide, by decide⟩

set_option maxRecDepth 8000 in
/-- Curve_boxes: a box of two axes with three ranges, and an address for them. -/
theorem witness_boxes :
    (keys 0x40000 3 48).Ready false [gr 1, gr 4, gr 8] ∧
    (bits ((keys 0x40000 3 48).now.getG 4) 63 24 = 0 ∧
     bit ((keys 0x40000 3 48).now.getG 4) 15 = false ∧
     dxAxes ((keys 0x40000 3 48).now.getG 4) ≤ 6 ∧
     regTrap ((keys 0x40000 3 48).core (keys 0x40000 3 48).cur.core).partword (keys 0x40000 3 48).now (regRange (4 + 1) 2) = none ∧
     BitVec.toNat ((keys 0x40000 3 48).now.getG (4 + 1)) < 2 ^ (dxAxes ((keys 0x40000 3 48).now.getG 4) * axisBits (dxAxes ((keys 0x40000
       3 48).now.getG 4))) ∧
     BitVec.toNat ((keys 0x40000 3 48).now.getG (4 + 2)) < 2 ^ (dxAxes ((keys 0x40000 3 48).now.getG 4) * axisBits (dxAxes ((keys 0x40000
       3 48).now.getG 4)))) ∧
    ((dxSplit 2 3 48 3).1.length = 2 ∧
     (keys 0x40000 3 48).rangeTrap 500 0x40000 (16 * 3) 16 = none ∧
     (keys 0x40000 3 48).poison = [] ∧
     (!(keys 0x40000 3 48).outstanding home) = true) ∧
    (keys 0x40000 3 48).marksAllow true (poolLoc 500 0x40000) (8 * 2) ∧
    ((axisOf 2 0 3 ≤ axisOf 2 0 13 ∧ axisOf 2 0 13 ≤ axisOf 2 0 48)) ∧
    ((axisOf 2 1 3 ≤ axisOf 2 1 13 ∧ axisOf 2 1 13 ≤ axisOf 2 1 48)) :=
  ⟨ready_of (by decide), by decide, by decide, marks_of (by decide), by decide, by decide⟩

/-- Curve_boxes: no key lies in a box whose corners are exchanged. -/
theorem witness_empty_box : ∀ j, axisOf 2 0 48 ≤ axisOf 2 0 j ∧ axisOf 2 0 j ≤ axisOf 2 0 3 → j ≤ 12 := by
  have h : axisOf 2 0 48 = 4 ∧ axisOf 2 0 3 = 1 := by decide
  omega

end Curves

namespace Traps

/-- A thread in a loop, with a saved value. -/
def looping : State := stateOf { thread1 [(1, 7)] with loopcnt := 4, loopbuf := [(1, 5)], trapsave := 8 } core1

/-- Threads of job 1 and of job 0 that have no handler. -/
def bare : State := looping.setCtx home { looping.now with trapvec := 3 }
def bareMonitor : State := let s := sysState []; s.setCtx home { s.now with trapvec := 0 }

/-- Handlers: with nothing to report, with a bad resume address, after a fault that TRET issues again, after one that the next instruction met,
and after a refused journal entry. -/
def plain0 : State := trapState 5 0 0 0x10004 []
def odd : State := trapState 5 0 0 0x10002 []
def again : State := trapState 0x107 (coreAddr 243 0x40000) 0 0x10004 [reported1]
def met : State := trapState 0x007 (coreAddr 243 0x40000) 0 0x10004 [reported1]
def refusedEntry : State := { trapState 0x20C 0 3 0x10004 [] with ops := [held1] }

set_option maxRecDepth 8000 in
/-- Traps_are_taken_and_returned: a trap with a handler and without one, in job 1 and in job 0, of each kind of loop trap; TRAP, BRK and an unassigned
word; and TRET of each kind. -/
theorem witness_traps :
    (rising looping.ctxs = true ∧
     bits (looping.ctx home).trapvec 63 2 ≠ 0 ∧
     bits (bare.ctx home).trapvec 63 2 = 0 ∧
     bits (bareMonitor.ctx home).trapvec 63 2 = 0 ∧
     bareMonitor.jobOf home.core = 0 ∧
     rising bareMonitor.dies = true) ∧
    (⟨.exact, cLoopForm, 5, 2, none⟩ : Trap).leavesLoop = false ∧
    (⟨.exact, cLoopForm, 5, 0, none⟩ : Trap).leavesLoop = true ∧
    looping.Ready true [gr 1] ∧
    looping.Ready true [] ∧
    (let __src := looping; { __src with arg := Arg.word 5 1 }).arg = Arg.word 5 1 ∧
    looping.now.intrap = false ∧
    odd.Ready true [] ∧
    odd.now.intrap = true ∧
    bits odd.now.trappc 1 0 ≠ 0 ∧
    plain0.Ready true [] ∧
    (plain0.now.intrap = true ∧
     bits plain0.now.trappc 1 0 = 0 ∧
     rising plain0.ctxs = true ∧
     (bits plain0.now.trapcause 9 8 ≠ 1 ∨ plain0.now.faults = [])) ∧
    again.Ready true [] ∧
    (again.now.faults = [reported1] ∧
     reported1.reported = true ∧
     bits again.now.trapcause 9 8 = 1) ∧
    met.Ready true [] ∧
    (bits met.now.trapcause 9 8 = 0 ∧
     bits met.now.trapcause 7 0 = reported1.cause ∧
     met.now.trapval = reported1.addr) ∧
    refusedEntry.Ready true [] ∧
    bits refusedEntry.now.trapcause 9 8 = 2 ∧
    bits refusedEntry.now.trapcause 7 0 = 0x0C ∧
    refusedEntry.journalEntry refusedEntry.cur.core (bits refusedEntry.now.trapinfo 5 0) = some held1 ∧
    held1.reason ≠ 0 :=
  ⟨by decide, by decide, by decide, ready_of (by decide), ready_of (by decide), rfl, by decide, ready_of (by decide), by decide, by
   decide, ready_of (by decide), by decide, ready_of (by decide), by decide, ready_of (by decide), by decide, ready_of (by decide), by
   decide, by decide, rfl, by decide⟩

/-- A thread of job 0 with CSRs of some values, which names job 3 and a context that is frozen. -/
def monitor (gen : JobState) : State :=
  let s := sysState [(1, 0x123456789ABCDEF0), (2, 0xF0)]
  let s := s.setJob 3 { Job.init 3 with st := gen }
  let s := s.setCtx home { s.now with fcsr := 0x1C5, jobsel := 3, ctxsel := BitVec.ofNat 20 (2 ^ 16 + coordField 500) }
  s.setCtx ⟨500, 1⟩ { thread1 [] with st := .frozen, trapvec := 0x3003 }
def running : State := (monitor .live).setCtx ⟨500, 1⟩ { thread1 [] with st := .running }

set_option maxRecDepth 8000 in
/-- CSR_instructions: an access that is allowed, one of the monitor's range by another job, one of an unassigned CSR, one of a read-only one; and the
steps that write CSRs. -/
theorem witness_csrs :
    (monitor JobState.live).Ready false [gr 1] ∧
    (csrAssigned 272 = true ∧
     (256 ≤ 272 → 272 ≤ 511 → (monitor JobState.live).jobOf (monitor JobState.live).cur.core = 0) ∧
     csrAssigned 259 = true ∧
     (256 ≤ 259 → 259 ≤ 511 → (monitor JobState.live).jobOf (monitor JobState.live).cur.core = 0) ∧
     csrReadOnly 0x110 = false ∧
     (true = true → (small []).outstanding (small []).cur = false ∧ (small []).now.faultTrap = none)) ∧
    (256 ≤ 272 ∧
     272 ≤ 511 ∧
     (small []).jobOf (small []).cur.core ≠ 0 ∧
     (7 < 256 ∨ 511 < 7 ∨ (small []).jobOf (small []).cur.core = 0) ∧
     csrAssigned 0x007 = false ∧
     csrReadOnly 0x001 = true) ∧
    (let __src := monitor JobState.live; { __src with arg := Arg.csr { ctx := home, num := 258, value := 455 } }).arg = Arg.csr
      { ctx := home, num := 258, value := 455 } ∧
    bit (0x1C7 : Word) 3 = false ∧
    bit (0x1CF : Word) 3 = true :=
  ⟨ready_of (by decide), by decide, by decide, rfl, by decide, by decide⟩

set_option maxRecDepth 8000 in
/-- CSR_values: a monitor thread whose JOBSEL names a live, a free, and a killed job, and whose CTXSEL names a frozen and a running context. -/
theorem witness_csr_values :
    (rising (monitor JobState.live).ctxs = true ∧
     rising (monitor JobState.live).cores = true ∧
     rising (monitor JobState.live).jobs = true ∧
     ((monitor .live).core home.core).tagWaiters = [] ∧
     ((monitor .live).job (monitor .live).now.jobsel.toNat).st = .live ∧
     ((monitor .free).job (monitor .free).now.jobsel.toNat).st = .free) ∧
    ((monitor .killed).job (monitor .killed).now.jobsel.toNat).st = .killed ∧
    ((monitor .killed).job (monitor .killed).now.jobsel.toNat).pend = false ∧
    (monitor .live).now.selected = some ⟨500, 1⟩ ∧
    ((monitor .live).ctx ⟨500, 1⟩).st = .frozen ∧
    running.now.selected = some ⟨500, 1⟩ ∧
    (running.ctx ⟨500, 1⟩).st ≠ .frozen :=
  ⟨by decide, by decide, by decide, rfl, by decide, rfl, by decide⟩

end Traps

namespace Systems

/-- The journal index, the address or the job in g1, and the range in g2, of a thread of job 1 and of one of job 0. -/
def jrnlState (a : Word) : State :=
  { (small [(1, a)]) with ops := [{ op1 (.store 0 4 5) with jidx := some 3, addr := coreAddr 243 0x40000, word := 0x12345678, dst := none }] }
def icinvState (b : Word) : State := small [(1, 0x10000), (2, b)]
def zeroState (a b : Word) : State :=
  { sysState [(1, a), (2, b)] with
    jobs := [(3, { Job.init 3 with st := .live, gen := 6, cw := 2, ch := 2 }), (5, { Job.init 5 with st := .cancelled, gen := 7 })] }
def smallCore (s : State) : State := s.setCore 500 { s.core 500 with partword := 0x04000010 }
def stamp (n g : Nat) : Word := word (g * 64 + n)

set_option maxRecDepth 8000 in
/-- System_instructions: JRNL of an entry and of none; ICINV of no bytes and of some; TLBINV, REPART, KILLJ and CANCELJ of jobs that are named and of
others; and a thread of another job. -/
theorem witness_instructions :
    (jrnlState 195).Ready false [gr 1, gr 3] ∧
    (List.find? (fun p => p.jidx == some (bits ((jrnlState 195).now.getG 1) 5 0)) ((jrnlState 195).journal (jrnlState 195).cur.core) =
      some (let __src := op1 (OpBody.store 0 4 5);
      { __src with word := 0x12345678, addr := coreAddr 243 0x40000, dst := none, jidx := some 3 })) ∧
    (jrnlState 4).Ready false [gr 1, gr 3] ∧
    (∀ (p : Op), p ∈ (jrnlState 4).journal (jrnlState 4).cur.core → p.jidx ≠ some (bits ((jrnlState 4).now.getG 1) 5 0)) ∧
    (icinvState 0).Ready false [gr 1, gr 2] ∧
    (bits ((icinvState 0).now.getG 1) 63 48 = 0 ∧
     BitVec.toNat ((icinvState 0).now.getG 1) + BitVec.toNat ((icinvState 0).now.getG 2) ≤ 2 ^ 48 ∧
     (icinvState 0).now.getG 2 = 0) ∧
    (icinvState 64).Ready false [gr 1, gr 2] ∧
    (bits ((icinvState 64).now.getG 1) 63 48 = 0 ∧
     BitVec.toNat ((icinvState 64).now.getG 1) + BitVec.toNat ((icinvState 64).now.getG 2) ≤ 2 ^ 48 ∧
     (icinvState 64).now.getG 2 ≠ 0 ∧
     (zeroState 0x40000 259).jobOf (zeroState 0x40000 259).cur.core = 0) ∧
    (zeroState 0x40000 259).Ready true [gr 1, gr 2] ∧
    bits ((zeroState 0x40000 259).now.getG 2) 9 8 ≠ 3 ∧
    (smallCore (zeroState (coreAddr 500 0x60000) 0)).jobOf (smallCore (zeroState (coreAddr 500 0x60000) 0)).cur.core = 0 ∧
    (smallCore (zeroState (coreAddr 500 0x60000) 0)).Ready true [gr 1] ∧
    bits ((smallCore (zeroState (coreAddr 500 0x60000) 0)).now.getG 1) 63 61 = 1 ∧
    (smallCore (zeroState (coreAddr 500 0x60000) 0)).place (smallCore (zeroState (coreAddr 500 0x60000) 0)).cur.core (word (BitVec.toNat
      ((smallCore (zeroState (coreAddr 500 0x60000) 0)).now.getG 1) / 2 ^ 20 * 2 ^ 20)) = Except.ok (Place.pool 500 0) ∧
    (nbits ((smallCore (zeroState (coreAddr 500 0x60000) 0)).core 500).partword.toNat 27 26 ≠ 0 ∧
     nbits ((smallCore (zeroState (coreAddr 500 0x60000) 0)).core 500).partword.toNat 29 28 < 2 ∧
     (zeroState (stamp 3 5) 0).jobOf (zeroState (stamp 3 5) 0).cur.core = 0) ∧
    (zeroState (stamp 3 5) 0).Ready true [gr 1] ∧
    (bits ((zeroState (stamp 3 5) 0).now.getG 1) 5 0 ≠ 0 ∧
     rising (zeroState (stamp 3 5) 0).jobs = true ∧
     (zeroState (stamp 3 5) 0).named ((zeroState (stamp 3 5) 0).now.getG 1) [JobState.live, JobState.cancelled] = false ∧
     (zeroState (stamp 3 6) 0).jobOf (zeroState (stamp 3 6) 0).cur.core = 0) ∧
    (zeroState (stamp 3 6) 0).Ready true [gr 1] ∧
    (bits ((zeroState (stamp 3 6) 0).now.getG 1) 5 0 ≠ 0 ∧
     rising (zeroState (stamp 3 6) 0).jobs = true ∧
     (zeroState (stamp 3 6) 0).named ((zeroState (stamp 3 6) 0).now.getG 1) [JobState.live, JobState.cancelled] = true ∧
     (zeroState (stamp 5 7) 0).jobOf (zeroState (stamp 5 7) 0).cur.core = 0) ∧
    (zeroState (stamp 5 7) 0).Ready true [gr 1] ∧
    (bits ((zeroState (stamp 5 7) 0).now.getG 1) 5 0 ≠ 0 ∧
     rising (zeroState (stamp 5 7) 0).jobs = true ∧
     (zeroState (stamp 5 7) 0).named ((zeroState (stamp 5 7) 0).now.getG 1) [JobState.live] = false ∧
     (zeroState (stamp 3 6) 0).named ((zeroState (stamp 3 6) 0).now.getG 1) [JobState.live] = true ∧
     ((zeroState (stamp 3 6) 0).job (bits ((zeroState (stamp 3 6) 0).now.getG 1) 5 0)).sched = Sched.resident ∧
     (true = true → (small []).outstanding (small []).cur = false ∧ (small []).now.faultTrap = none)) ∧
    (small []).jobOf (small []).cur.core ≠ 0 :=
  ⟨ready_of (by decide), rfl, ready_of (by decide), by decide, ready_of (by decide), by decide, ready_of (by decide), by decide, ready_of
   (by decide), by decide, by decide, ready_of (by decide), by decide, rfl, by decide, ready_of (by decide), by decide, ready_of (by
   decide), by decide, ready_of (by decide), by decide, by decide⟩

/-- Operations of the system that complete, on a core with and without a thread, of a job that is killed, and of one that is cancelled. -/
def opOf (b : OpBody) (a : Word) : Op := { op1 b with addr := a, dst := none }
def doneState (o : Op) : State := { small [] with ops := [o], arg := .num 9 }
def storeThen : State := { doneState (opOf (.icinv 65) 0x1003F) with ops := [{ op1 (.store 0 4 5) with id := 2, dst := none }, opOf (.icinv 65) 0x1003F] }
def freed (s : State) : State := s.setCtx home { s.now with st := .free }
def cancelOp : Op := { opOf .cancelj 1 with job := 0 }
def cancelDone : State := let s := freed (doneState cancelOp); s.setCore 500 { core1 with cancelled := true }
def killDone : State := { (small []).setJob 1 { job1 with st := .killed, pend := true, cmd := some 4 } with arg := .triple 1 0 10 }
def cancelComes : State :=
  { ((small []).setJob 1 { job1 with st := .cancelled, drop := 7 }).setCore 500 { core1 with ring := [(0, some (entry1 (.wake 2 3)))] } with
    arg := .pair 1 500 }

set_option maxRecDepth 8000 in
/-- System_operations_complete: ICINV after its stores and before one, TLBINV, REPART with and without a thread, CANCELJ, the end of a kill, and a
cancel that arrives. -/
theorem witness_completions :
    (doneState (opOf (OpBody.icinv 65) 0x1003F)).arg = Arg.num 9 ∧
    (doneState (opOf (OpBody.icinv 65) 0x1003F)).op 9 = some (opOf (OpBody.icinv 65) 0x1003F) ∧
    ((opOf (OpBody.icinv 65) 0x1003F).id = 9 ∧
     rising (doneState (opOf (OpBody.icinv 65) 0x1003F)).clusters = true ∧
     rising (doneState (opOf (OpBody.icinv 65) 0x1003F)).cores = true) ∧
    (opOf (OpBody.icinv 65) 0x1003F).body = OpBody.icinv 65 ∧
    (doneState (opOf (OpBody.icinv 65) 0x1003F)).storesBefore (opOf (OpBody.icinv 65) 0x1003F) = false ∧
    storeThen.arg = Arg.num 9 ∧
    storeThen.op 9 = some (opOf (OpBody.icinv 65) 0x1003F) ∧
    (rising storeThen.clusters = true ∧
     rising storeThen.cores = true ∧
     storeThen.storesBefore (opOf (OpBody.icinv 65) 0x1003F) = true) ∧
    (doneState (opOf (OpBody.tlbinv 257) 0x1FFFF)).arg = Arg.num 9 ∧
    (doneState (opOf (OpBody.tlbinv 257) 0x1FFFF)).op 9 = some (opOf (OpBody.tlbinv 257) 0x1FFFF) ∧
    ((opOf (OpBody.tlbinv 257) 0x1FFFF).id = 9 ∧
     rising (doneState (opOf (OpBody.tlbinv 257) 0x1FFFF)).clusters = true ∧
     rising (doneState (opOf (OpBody.tlbinv 257) 0x1FFFF)).cores = true) ∧
    (opOf (OpBody.tlbinv 257) 0x1FFFF).body = OpBody.tlbinv 257 ∧
    (doneState (opOf (OpBody.tlbinv 257) 0x1FFFF)).storesBefore (opOf (OpBody.tlbinv 257) 0x1FFFF) = false ∧
    (doneState (opOf OpBody.repart (coreAddr 500 0))).arg = Arg.num 9 ∧
    (doneState (opOf OpBody.repart (coreAddr 500 0))).op 9 = some (opOf OpBody.repart (coreAddr 500 0)) ∧
    ((opOf OpBody.repart (coreAddr 500 0)).id = 9 ∧
     rising (doneState (opOf OpBody.repart (coreAddr 500 0))).clusters = true ∧
     rising (doneState (opOf OpBody.repart (coreAddr 500 0))).cores = true) ∧
    (opOf OpBody.repart (coreAddr 500 0)).body = OpBody.repart ∧
    (((doneState (opOf OpBody.repart (coreAddr 500 0))).core (coreAt (bits (opOf OpBody.repart (coreAddr 500 0)).addr 59 53) (bits (opOf
      OpBody.repart (coreAddr 500 0)).addr 52 46))).repart = none ∨ ((doneState (opOf OpBody.repart (coreAddr 500 0))).core (coreAt (bits
      (opOf OpBody.repart (coreAddr 500 0)).addr 59 53) (bits (opOf OpBody.repart (coreAddr 500 0)).addr 52 46))).repart = some 9) ∧
    (∃ x, x ∈ (doneState (opOf OpBody.repart (coreAddr 500 0))).coreCtxs (coreAt (bits (opOf OpBody.repart (coreAddr 500 0)).addr 59 53)
      (bits (opOf OpBody.repart (coreAddr 500 0)).addr 52 46)) ∧ ((doneState (opOf OpBody.repart (coreAddr 500 0))).ctx x).st ≠
      CtxState.free) ∧
    (smallCore (freed (doneState (opOf OpBody.repart (coreAddr 500 0))))).arg = Arg.num 9 ∧
    (smallCore (freed (doneState (opOf OpBody.repart (coreAddr 500 0))))).op 9 = some (opOf OpBody.repart (coreAddr 500 0)) ∧
    (rising (smallCore (freed (doneState (opOf OpBody.repart (coreAddr 500 0))))).clusters = true ∧
     rising (smallCore (freed (doneState (opOf OpBody.repart (coreAddr 500 0))))).cores = true ∧
     (((smallCore (freed (doneState (opOf OpBody.repart (coreAddr 500 0))))).core (coreAt (bits (opOf OpBody.repart (coreAddr 500 0)).addr
       59 53) (bits (opOf OpBody.repart (coreAddr 500 0)).addr 52 46))).repart = none ∨ ((smallCore (freed (doneState (opOf OpBody.repart
       (coreAddr 500 0))))).core (coreAt (bits (opOf OpBody.repart (coreAddr 500 0)).addr 59 53) (bits (opOf OpBody.repart (coreAddr 500
       0)).addr 52 46))).repart = some 9) ∧
     (∀ (x : CtxId), x ∈ (smallCore (freed (doneState (opOf OpBody.repart (coreAddr 500 0))))).coreCtxs (coreAt (bits (opOf OpBody.repart
       (coreAddr 500 0)).addr 59 53) (bits (opOf OpBody.repart (coreAddr 500 0)).addr 52 46)) → ((smallCore (freed (doneState (opOf
       OpBody.repart (coreAddr 500 0))))).ctx x).st = CtxState.free) ∧
     nbits ((smallCore (freed (doneState (opOf OpBody.repart (coreAddr 500 0))))).core (coreAt (bits (opOf OpBody.repart (coreAddr 500
       0)).addr 59 53) (bits (opOf OpBody.repart (coreAddr 500 0)).addr 52 46))).partword.toNat 27 26 ≠ 0 ∧
     nbits ((smallCore (freed (doneState (opOf OpBody.repart (coreAddr 500 0))))).core (coreAt (bits (opOf OpBody.repart (coreAddr 500
       0)).addr 59 53) (bits (opOf OpBody.repart (coreAddr 500 0)).addr 52 46))).partword.toNat 29 28 < 2) ∧
    cancelDone.arg = Arg.num 9 ∧
    cancelDone.op 9 = some cancelOp ∧
    (cancelOp.id = 9 ∧
     rising cancelDone.clusters = true ∧
     rising cancelDone.cores = true) ∧
    cancelOp.body = OpBody.cancelj ∧
    (((cancelDone.job (bits cancelOp.addr 5 0)).st = JobState.killed → (cancelDone.job (bits cancelOp.addr 5 0)).pend = false) ∧
     (∀ (c : Nat), c ∈ cancelDone.coresOf (bits cancelOp.addr 5 0) → (cancelDone.core c).cancelled = true ∧ ∀ (x : CtxId), x ∈
       cancelDone.coreCtxs c → (cancelDone.ctx x).st = CtxState.free) ∧
     (∀ (q : Op), q ∈ cancelDone.ops → q.job = bits cancelOp.addr 5 0 → q.body.isMessage = false) ∧
     (∀ (d : Due), d ∈ cancelDone.agenda → inFlight (bits cancelOp.addr 5 0) d = false)) ∧
    killDone.arg = Arg.triple 1 0 10 ∧
    ((killDone.job 1).st = JobState.killed ∧
     (killDone.job 1).pend = true ∧
     (killDone.job 1).gen = 0 ∧
     1 ≠ 0 ∧
     (∀ (d : Due), d ∈ killDone.agenda → d.carries 1 0 = false) ∧
     rising killDone.cores = true) ∧
    rising killDone.jobs = true ∧
    (killDone.job 1).cmd = some 4 ∧
    cancelComes.arg = Arg.pair 1 500 ∧
    (cancelComes.core 500).owner = some 1 ∧
    ((cancelComes.job 1).st = JobState.cancelled ∧
     rising cancelComes.cores = true ∧
     rising cancelComes.jobs = true) :=
  ⟨rfl, rfl, by decide, rfl, by decide, rfl, rfl, by decide, rfl, rfl, by decide, rfl, by decide, rfl, rfl, by decide, rfl, by decide, by
   decide, rfl, rfl, by decide, rfl, rfl, by decide, rfl, by decide, rfl, by decide, by decide, rfl, rfl, rfl, by decide⟩

end Systems

namespace Translations

/-- Page tables of job 1 whose last page lies at 0x30000, readable, writable and executable or only executable. -/
def tables (leaf : Word) : State :=
  let s := (small []).setJob 1 { job1 with ptroot := 0x40001 }
  ((s.wr64 (0x40000 + 8 * 1023) 0x80001).wr64 (0x80000 + 8 * 2047) 0xC0001).wr64 (0xC0000 + 8 * 2047) leaf
def last : Nat := regionOf 0xFFFFFFFFFFFF

/-- A walk of the last region, which a load waits for, with and without tables; and one that waits for a walker. -/
def miss0 (walking : Bool) : Miss := ⟨1, 0, last, 90, walking, false, if walking then 0x40001 else 0, []⟩
def waiting : Op := { op1 (.load 1) with addr := 0x6000FFFFFFFFFFFF }
def walkState (leaf : Word) : State :=
  { (tables leaf).setCluster 65 { Cluster.init with misses := [miss0 true] } with ops := [waiting], arg := .triple 65 1 last }
def noTables : State := { walkState 0x30072 with mem := [] }
def walkOff : State := { walkState 0x30072 with dies := [(3, .off)] }
def grantState : State := { (small []).setCluster 65 { Cluster.init with misses := [miss0 false] } with arg := .num 0 }

/-- A fetch of a line, in a page that its cluster's TLB holds or does not hold. -/
def fetchAt (ex : Bool) (pages : List CodePage) : State :=
  let s := (small []).setJob 1 { job1 with pages := pages }
  { s.setCluster 65 { Cluster.init with tlb := [⟨1, 0, 0, 65536, 0x30000, ex, true, true⟩] } with arg := .line home 0 }
def fetchMiss : State := { small [] with arg := .line home 0 }
def fetchRetired : State := { fetchAt true [] with badGranules := [0x30] }
def fetchDown : State := { fetchAt true [] with dies := [(1, .off)] }
def codePage (verified failed : Bool) : CodePage := ⟨0, 0x30000, 0x400000, 0x200000, verified, failed⟩

set_option maxRecDepth 8000 in
/-- Translation_and_fetch: three tables and a leaf; a walk that succeeds, one whose page forbids the access, and one that finds no page; one whose
table's home is down; and a walker that is free. -/
theorem witness_walks :
    (0xFFFFFFFFFFFF < 2 ^ 48 ∧
     bits ((tables 0x30072).job 1).ptroot 0 0 = 1 ∧
     bits ((tables 0x30072).job 1).ptroot 51 14 * 2 ^ 14 < Config.hbmBytes) ∧
    pteTable ((tables 0x30072).rd64 (bits ((tables 0x30072).job 1).ptroot 51 14 * 2 ^ 14 + 8 * nbits 0xFFFFFFFFFFFF 47 38)) = some
      0x80000 ∧
    pteTable ((tables 0x30072).rd64 (0x80000 + 8 * nbits 0xFFFFFFFFFFFF 37 27)) = some 0xC0000 ∧
    ((tables 0x30072).rd64 (0xC0000 + 8 * nbits 0xFFFFFFFFFFFF 26 16) = word (0x30000 + 2) ||| (tables 0x30072).rd64 (0xC0000 + 8 * nbits
       0xFFFFFFFFFFFF 26 16) &&& 112 ∧
     0x30000 % 2 ^ 16 = 0 ∧
     0x30000 + 2 ^ 16 ≤ Config.hbmBytes) ∧
    (walkState 0x30072).arg = Arg.triple 65 1 last ∧
    (miss0 true ∈ ((walkState 0x30072).cluster 65).misses ∧
     (miss0 true).job = 1 ∧
     (miss0 true).region = last ∧
     (miss0 true).walking = true ∧
     (miss0 true).gen = ((walkState 0x30072).job 1).gen ∧
     rising (walkState 0x30072).clusters = true) ∧
    (((walkState 0x30072).cluster 65).misses = [miss0 true] ∧
     (walkState 0x30072).walkWaits 65 1 last = [waiting] ∧
     (walkState 0x30072).poison = [] ∧
     65 < 384 ∧
     walkOff.walkDown (miss0 true).root (last * 2 ^ 16) = true ∧
     (walkState 0x30072).walkDown (miss0 true).root (last * 2 ^ 16) = false) ∧
    ((walkState 0x30042).walkDown (miss0 true).root (last * 2 ^ 16) = false ∧
     noTables.walkDown (miss0 true).root (last * 2 ^ 16) = false ∧
     (((walkState 0x30072).walkFrom (miss0 true).root (last * 2 ^ 16)).any (fun p => waiting.body.need.ok p.ex p.wr p.rd) = true) ∧
     (((walkState 0x30042).walkFrom (miss0 true).root (last * 2 ^ 16)).any (fun p => !waiting.body.need.ok p.ex p.wr p.rd) = true) ∧
     (miss0 true).noFill = false ∧
     (miss0 true).needs = []) ∧
    waiting.jidx = none ∧
    (noTables.walkFrom (miss0 true).root (last * 2 ^ 16)).isNone = true ∧
    grantState.arg = Arg.num 0 ∧
    (grantState.dieMisses 0 = [(65, miss0 false)] ∧
     (miss0 false).walking = false ∧
     (grantState.cluster 65).misses = [miss0 false] ∧
     rising grantState.clusters = true) :=
  ⟨by decide, rfl, rfl, by decide, rfl, by decide, by decide, by decide, by decide, by decide, rfl, by decide⟩

set_option maxRecDepth 8000 in
/-- Translation_and_fetch: a line whose page is not known, is not executable, has a home that is down, lies in a retired granule, is executable, and
has not been verified. -/
theorem witness_fetches :
    fetchMiss.pageAt (clusterOf home.core) (fetchMiss.jobOf home.core) (64 * 0) Need.fetch = Except.error 0 ∧
    (fetchAt false []).pageAt (clusterOf home.core) ((fetchAt false []).jobOf home.core) (64 * 0) Need.fetch = Except.error cProtect ∧
    cProtect ≠ 0 ∧
    fetchDown.pageAt (clusterOf home.core) (fetchDown.jobOf home.core) (64 * 0) Need.fetch = Except.ok 0x30000 ∧
    fetchDown.homeDown 0x30000 = true ∧
    fetchRetired.pageAt (clusterOf home.core) (fetchRetired.jobOf home.core) (64 * 0) Need.fetch = Except.ok 0x30000 ∧
    fetchRetired.homeDown 0x30000 = false ∧
    fetchRetired.granuleRetired 0x30000 64 = true ∧
    (fetchAt true [codePage true false]).pageAt (clusterOf home.core) ((fetchAt true [codePage true false]).jobOf home.core) (64 * 0)
      Need.fetch = Except.ok 0x30000 ∧
    ((fetchAt true [codePage true false]).homeDown 0x30000 = false ∧
     (fetchAt true [codePage true false]).granuleRetired 0x30000 64 = false ∧
     (∀ (p : CodePage), p ∈ ((fetchAt true [codePage true false]).job ((fetchAt true [codePage true false]).jobOf home.core)).pages →
       p.verified = true) ∧
     (fetchAt true [codePage true false]).poison = [] ∧
     rising (fetchAt true [codePage true false]).clusters = true) ∧
    (fetchAt true [codePage false false]).pageAt (clusterOf home.core) ((fetchAt true [codePage false false]).jobOf home.core) (64 * 0)
      Need.fetch = Except.ok 0x30000 ∧
    ((fetchAt true [codePage false false]).homeDown 0x30000 = false ∧
     (fetchAt true [codePage false false]).granuleRetired 0x30000 64 = false ∧
     ((fetchAt true [codePage false false]).job ((fetchAt true [codePage false false]).jobOf home.core)).pages = [codePage false false] ∧
     (codePage false false).page = 64 * 0 / 0x10000 ∧
     (codePage false false).verified = false ∧
     rising (fetchAt true [codePage false false]).ctxs = true) ∧
    (fetchAt true [codePage false false]).agenda = [] :=
  ⟨rfl, rfl, by decide, rfl, by decide, rfl, by decide, by decide, rfl, by decide, rfl, by decide, by decide⟩

end Translations

namespace Translations

theorem keccakRound_length (a : List Word) (rc : Word) : (keccakRound a rc).length = 25 := by
  have head (e : List Word) : (match e with | x :: xs => (x ^^^ rc) :: xs | [] => []).length = e.length := by cases e <;> rfl
  exact (head ((List.range 25).map _)).trans (by rw [List.length_map, List.length_range])

theorem keccakF_length {a : List Word} (h : a.length = 25) : (keccakF a).length = 25 := by
  unfold keccakF
  generalize keccakRc = rs
  induction rs generalizing a with
  | nil => exact h
  | cons r rs ih => exact ih (keccakRound_length a r)

theorem keccakAbsorb_length (rate n : Nat) {a : List Word} (bs : List Byte) (h : a.length = 25) : (keccakAbsorb rate a n bs).length = 25 := by
  induction n generalizing a bs with
  | zero => exact h
  | succ n ih => exact ih _ (keccakF_length (by simp))

theorem leBytes_length (n x : Nat) : (leBytes n x).length = n := by
  induction n generalizing x with
  | zero => rfl
  | succ n ih => simp [leBytes, ih]

theorem sha3_length (m : List Byte) : (sha3 m).length = 32 := by
  obtain ⟨a, b, c, d, r, e⟩ : ∃ a b c d r, keccakOf 136 0x06 m = a :: b :: c :: d :: r := by
    have : (keccakOf 136 0x06 m).length = 25 := keccakAbsorb_length _ _ _ List.length_replicate
    revert this
    generalize keccakOf _ _ _ = l
    rcases l with _ | ⟨a, _ | ⟨b, _ | ⟨c, _ | ⟨d, r⟩⟩⟩⟩ <;> intro h <;> first | cases h | exact ⟨a, b, c, d, r, rfl⟩
  unfold sha3
  rw [e]
  simp [leBytes_length]

theorem readBytes_writeBytes {s : State} (h : rising s.mem = true) (l : Nat) (bs : List Byte) :
    (s.writeBytes l bs).readBytes l bs.length = bs := by
  refine List.ext_getElem (by simp [State.readBytes]) fun i h₁ h₂ => ?_
  simp only [State.readBytes, List.getElem_map, List.getElem_range]
  clear h₁
  induction bs generalizing s l i with
  | nil => cases h₂
  | cons b r ih =>
    unfold State.writeBytes
    cases i with
    | zero => rw [State.byte_writeBytes_other _ _ (by omega), Nat.add_zero, State.byte_setByte_same h]; rfl
    | succ i => rw [show l + (i + 1) = l + 1 + i by omega, ih (rising_setByte h l b) _ _ (by simpa using h₂)]; rfl

theorem readBytes_length (s : State) (l n : Nat) : (s.readBytes l n).length = n := by simp [State.readBytes]

theorem readBytes_other (s : State) {a n l : Nat} (bs : List Byte) (h : a + n ≤ l ∨ l + bs.length ≤ a) :
    (s.writeBytes l bs).readBytes a n = s.readBytes a n := by
  refine List.map_congr_left fun i hi => State.byte_writeBytes_other _ _ ?_
  have := List.mem_range.mp hi
  omega

/-- A code page to be verified, whose hash the loader has written. -/
def toVerify (failed : Bool) : State := { ((small []).setJob 1 { job1 with pages := [⟨0, 0x100000, 0x400000, 0x200000, false, failed⟩] }) with arg := .pair 1 0 }
def hashed (failed : Bool) (h : List Byte) : State := (toVerify failed).writeBytes 0x200000 h
def copied (s : State) : State := s.writeBytes 0x100000 (s.readBytes 0x400000 65536)

set_option maxRecDepth 8000 in
theorem hash_read (failed : Bool) {h : List Byte} (n : h.length = 32) : (copied (hashed failed h)).readBytes 0x200000 32 = h ∧
    (hashed failed h).readBytes 0x400000 65536 = (toVerify failed).readBytes 0x400000 65536 := by
  refine ⟨?_, readBytes_other (toVerify failed) (a := 0x400000) (n := 65536) (l := 0x200000) h (.inr (by omega))⟩
  rw [copied, readBytes_other (hashed failed h) (a := 0x200000) (n := 32) (l := 0x100000) _ (.inr (by rw [readBytes_length]; omega)), hashed, ← n]
  exact readBytes_writeBytes (by cases failed <;> decide) _ _

set_option maxRecDepth 8000 in
/-- Translation_and_fetch: a page that has not been verified, with its hash and with another one, for the first time and again. -/
theorem witness_hashes : ∀ failed, ∃ h k : List Byte,
    sha3 ((hashed failed h).readBytes 0x400000 65536) = (copied (hashed failed h)).readBytes 0x200000 32 ∧
    sha3 ((hashed failed k).readBytes 0x400000 65536) ≠ (copied (hashed failed k)).readBytes 0x200000 32 ∧
    ∀ s ∈ [hashed failed h, hashed failed k], s.arg = .pair 1 0 ∧ (s.job 1).pages = [⟨0, 0x100000, 0x400000, 0x200000, false, failed⟩] ∧
      rising s.jobs = true ∧ (copied s).codeWaiters 1 0 = [] ∧ (s.job 1).st = .live := by
  intro failed
  let m := sha3 ((toVerify failed).readBytes 0x400000 65536)
  have n : m.length = 32 := sha3_length _
  refine ⟨m, m.map (· + 1), ?_, ?_, ?_⟩
  · rw [(hash_read failed n).1, (hash_read failed n).2]
  · have n' : (m.map (· + 1)).length = 32 := by simpa using n
    rw [(hash_read failed n').1, (hash_read failed n').2]
    show m ≠ _
    cases hm : m with
    | nil => simp [hm] at n
    | cons b r => simp
  · have rest (s : State) (e : { s with mem := [], vague := [] } = { toVerify failed with mem := [], vague := [] }) :
        s.arg = .pair 1 0 ∧ (s.job 1).pages = [⟨0, 0x100000, 0x400000, 0x200000, false, failed⟩] ∧ rising s.jobs = true ∧
          s.codeWaiters 1 0 = [] ∧ (s.job 1).st = .live := by
      have f {α : Type} (g : State → α) (i : ∀ u : State, g { u with mem := [], vague := [] } = g u) : g s = g (toVerify failed) := by
        rw [← i, e, i]
      rw [f State.arg (fun _ => rfl), f (·.job 1) (fun _ => rfl), f State.jobs (fun _ => rfl), f (·.codeWaiters 1 0) (fun _ => rfl)]
      cases failed <;> exact ⟨rfl, by decide, by decide, by decide, by decide⟩
    have keep (h : List Byte) := rest (hashed failed h) (by rw [hashed, State.writeBytes_eq])
    have more (h : List Byte) := rest (copied (hashed failed h)) (by rw [copied, State.writeBytes_eq, hashed, State.writeBytes_eq])
    intro s hs
    obtain rfl | rfl := by simpa using hs
    · exact ⟨(keep _).1, (keep _).2.1, (keep _).2.2.1, (more _).2.2.2.1, (keep _).2.2.2.2⟩
    · exact ⟨(keep _).1, (keep _).2.1, (keep _).2.2.1, (more _).2.2.2.1, (keep _).2.2.2.2⟩

end Translations

namespace Scheduling

/-- A schedule command of function `op` for job 1, whose schedule state and command are given, with the hold on core (20, 10) and its thread. -/
def schedOp (op : Nat) : Op := { op1 (.store 1 16 (BitVec.ofNat 128 (op * 2 ^ 20 + 1))) with job := 0, jidx := some 3, dst := none }
def schedJob (st : Sched) (cmd : Option Nat) : Job :=
  { job1 with cx := 5, cy := 5, cw := 1, ch := 1, sched := st, cmd := cmd, save := 0x100000, icap := 2 }
def schedState (op : Nat) (st : Sched) (held : Bool) (f : CtxState) : State :=
  let s := { small [] with ops := [schedOp op], arg := .num 9 }
  let s := (s.setJob 1 (schedJob st (some 9))).setCore 500 { core1 with held := held }
  s.setCtx home { s.now with st := f }
def about (s : State) (a : Arg) : State := { s with arg := a }
def released : State := (schedState 4 .quiesced true .free).setJob 1 (schedJob .quiesced none)
def abortState : State :=
  { (schedState 5 .quiescing true .free).setJob 1 (schedJob .quiescing (some 20)) with ops := [schedOp 5, { schedOp 1 with id := 20 }] }

/-- A job that is away, and what was saved of it. -/
def kept : Saved := (schedState 2 .switching true .free).capture 1
def away : State := { schedState 3 .switchedOut true .free with saves := [kept] }
def oneCore : Saved := { kept with cores := [(500, core1)] }

/-- A thread that waits for a load under a hold, and one whose watchdog is due and not. -/
def heldWait : State :=
  let s := mapped { small [] with ops := [op1 (.load 8)], arg := .ctx home } 2
  let s := s.setCore 500 { core1 with held := true }
  s.setCtx home { s.now with st := .marker }
def watched (n : Nat) : State := { (small []).setJob 1 { job1 with wdlimit := n } with arg := .ctx home }

/-- A store of two double words to the schedule window of job 1's corner cluster, and its job in a schedule state. -/
def winOp (d0 d1 : Nat) : Op :=
  { op1 (.store 1 16 (BitVec.ofNat 128 (d1 * 2 ^ 64 + d0))) with job := 0, ord := .release, loc := some (2 ^ 42 + 65 * 2 ^ 21 + 0x1FFFE0) }
def winData (d0 d1 : Nat) : Vec := BitVec.ofNat 128 (d1 * 2 ^ 64 + d0)
def winState (st : Sched) (d0 d1 : Nat) : State :=
  { (schedState 1 st true .free).setJob 1 (schedJob st none) with ops := [winOp d0 d1] }

set_option maxRecDepth 8000 in
/-- Scheduling_events: the schedule window with a reserved field set, a reserved OP, another generation, a state that does not accept the command,
and DATA1 where it is to be 0; and with each of the three commands that are passed on. -/
theorem witness_schedule_window :
    let refused : List (Sched × Nat × Nat) :=
      [(.resident, 0x10010001, 0), (.resident, 0x600001, 0), (.resident, 0x100041, 0), (.quiesced, 0x100001, 0), (.resident, 0x100001, 8)]
    let passed : List (Sched × Nat × Nat) := [(.resident, 0x100001, 0), (.quiesced, 0x400001, 0), (.switching, 0x500001, 0)]
    (∀ p ∈ refused ++ passed, let s := winState p.1 p.2.1 p.2.2
      let o := winOp p.2.1 p.2.2
      s.arg = .num o.id ∧ s.op o.id = some o ∧ (o.performed = false ∧ o.reason = 0 ∧ o.mx = false ∧ o.left = true) ∧
        o.loc = some (2 ^ 42 + 65 * 2 ^ 21 + 0x1FFFE0) ∧ s.homeDown (2 ^ 42 + 65 * 2 ^ 21 + 0x1FFFE0) = false ∧ s.stampOk 0 o.gen = true ∧
        o.job = 0 ∧ o.ord = .release ∧ o.body = .store 1 16 (winData p.2.1 p.2.2)) ∧
    (∀ p ∈ refused, let o := winOp p.2.1 p.2.2
      let j := (winState p.1 p.2.1 p.2.2).job (bits o.data0 5 0)
      bits o.data0 31 24 ≠ 0 ∨ 5 < bits o.data0 23 20 ∨ j.gen ≠ bits o.data0 15 6 ∨ (bits o.data0 23 20 = 1 ∧ j.sched ≠ .resident) ∨
        (bits o.data0 23 20 ≠ 2 ∧ bits o.data0 23 20 ≠ 3 ∧ o.data1 ≠ 0)) ∧
    (∀ p ∈ passed, let s := winState p.1 p.2.1 p.2.2
      let o := winOp p.2.1 p.2.2
      let j := s.job (bits o.data0 5 0)
      o.data1 = 0 ∧ bits o.data0 5 0 ≠ 0 ∧ s.stampOk (bits o.data0 5 0) (bits o.data0 15 6) = true ∧ 65 = 12 * j.cy + j.cx ∧
        o.data0.toNat = p.2.1 ∧ j.sched = p.1 ∧ j.cmd = none) := by
  decide

set_option maxRecDepth 8000 in
/-- Scheduling_events: the command of QUIESCE, a hold that arrives, jobs that are quiet and are not, the end of a switch out and of a switch in,
RELEASE, ABORT_SWITCH and SWITCH_IN. -/
theorem witness_schedule :
    (schedState 1 Sched.quiescing true CtxState.free).arg = Arg.num 9 ∧
    (schedState 1 Sched.quiescing true CtxState.free).schedOf 9 = some (1, schedJob Sched.quiescing (some 9)) ∧
    (schedJob Sched.quiescing (some 9)).coset = [] ∧
    (schedJob Sched.quiescing (some 9)).comembers = [] ∧
    (about (schedState 1 Sched.quiescing false CtxState.free) (Arg.pair 1 500)).arg = Arg.pair 1 500 ∧
    ((about (schedState 1 Sched.quiescing false CtxState.free) (Arg.pair 1 500)).core 500).owner = some 1 ∧
    (((about (schedState 1 Sched.quiescing false CtxState.free) (Arg.pair 1 500)).job 1).sched = Sched.quiescing ∨ ((about (schedState 1
      Sched.quiescing false CtxState.free) (Arg.pair 1 500)).job 1).sched = Sched.switching) ∧
    (about (schedState 1 Sched.quiescing true CtxState.free) (Arg.num 1)).arg = Arg.num 1 ∧
    ((about (schedState 1 Sched.quiescing true CtxState.free) (Arg.num 1)).job 1).cmd = some 9 ∧
    (rising (about (schedState 1 Sched.quiescing true CtxState.free) (Arg.num 1)).jobs = true ∧
     (about (schedState 1 Sched.quiescing true CtxState.free) (Arg.num 1)).isQuiet 1 = true ∧
     ((about (schedState 1 Sched.quiescing true CtxState.free) (Arg.num 1)).job 1).sched = Sched.quiescing) ∧
    (about (schedState 2 Sched.switching true CtxState.free) (Arg.num 1)).arg = Arg.num 1 ∧
    ((about (schedState 2 Sched.switching true CtxState.free) (Arg.num 1)).job 1).cmd = some 9 ∧
    (rising (about (schedState 2 Sched.switching true CtxState.free) (Arg.num 1)).jobs = true ∧
     (about (schedState 2 Sched.switching true CtxState.free) (Arg.num 1)).isQuiet 1 = true ∧
     ((about (schedState 2 Sched.switching true CtxState.free) (Arg.num 1)).job 1).sched = Sched.switching) ∧
    (about (schedState 1 Sched.quiescing true CtxState.running) (Arg.num 1)).arg = Arg.num 1 ∧
    ((about (schedState 1 Sched.quiescing true CtxState.running) (Arg.num 1)).job 1).cmd = some 9 ∧
    (rising (about (schedState 1 Sched.quiescing true CtxState.running) (Arg.num 1)).jobs = true ∧
     (about (schedState 1 Sched.quiescing true CtxState.running) (Arg.num 1)).isQuiet 1 = false ∧
     ((about (schedState 1 Sched.quiescing true CtxState.running) (Arg.num 1)).job 1).sched = Sched.quiescing ∧
     (about (schedState 2 Sched.switching true CtxState.free) (Arg.num 1)).poison = [] ∧
     rising (about (schedState 2 Sched.switching true CtxState.free) (Arg.num 1)).cores = true ∧
     rising (about (schedState 2 Sched.switching true CtxState.free) (Arg.num 1)).mem = true) ∧
    ((about (schedState 2 Sched.switching true CtxState.free) (Arg.num 1)).job 1).save + saveBytes ((about (schedState 2 Sched.switching
      true CtxState.free) (Arg.num 1)).job 1).icap (((about (schedState 2 Sched.switching true CtxState.free) (Arg.num 1)).job 1).cw *
      ((about (schedState 2 Sched.switching true CtxState.free) (Arg.num 1)).job 1).ch) ≤ Config.hbmBytes ∧
    (about (schedState 3 Sched.switchedOut true CtxState.free) (Arg.num 1)).arg = Arg.num 1 ∧
    ((about (schedState 3 Sched.switchedOut true CtxState.free) (Arg.num 1)).job 1).cmd = some 9 ∧
    (rising (about (schedState 3 Sched.switchedOut true CtxState.free) (Arg.num 1)).jobs = true ∧
     (about (schedState 3 Sched.switchedOut true CtxState.free) (Arg.num 1)).read ((about (schedState 3 Sched.switchedOut true
       CtxState.free) (Arg.num 1)).job 1).save 4 = 0 ∧
     ((about (schedState 3 Sched.switchedOut true CtxState.free) (Arg.num 1)).job 1).sched = Sched.switchedOut ∧
     (about (schedState 3 Sched.switchedOut true CtxState.free) (Arg.num 1)).subs = []) ∧
    released.arg = Arg.num 9 ∧
    released.op 9 = some (schedOp 4) ∧
    (rising released.jobs = true ∧
     rising released.cores = true ∧
     (released.job (schedOp 4).schedJob).sched = Sched.quiesced) ∧
    abortState.arg = Arg.num 9 ∧
    abortState.op 9 = some (schedOp 5) ∧
    (rising abortState.jobs = true ∧
     rising abortState.cores = true ∧
     ((abortState.job (schedOp 5).schedJob).sched = Sched.quiescing ∨ (abortState.job (schedOp 5).schedJob).sched = Sched.quiesced ∨
       (abortState.job (schedOp 5).schedJob).sched = Sched.switching)) ∧
    away.arg = Arg.num 9 ∧
    away.op 9 = some (schedOp 3) ∧
    rising away.jobs = true ∧
    rising away.cores = true ∧
    away.schedOf 9 = some ((schedOp 3).schedJob, schedJob Sched.switchedOut (some 9)) ∧
    (List.find? (fun v => v.job == (schedOp 3).schedJob) away.saves = some kept) ∧
    oneCore.cores = [(500, core1)] ∧
    (away.job oneCore.job).st = JobState.live :=
  ⟨rfl, rfl, by decide, by decide, rfl, rfl, by decide, rfl, rfl, by decide, rfl, rfl, by decide, rfl, rfl, by decide, by decide, rfl,
   rfl, by decide, rfl, rfl, by decide, rfl, rfl, by decide, rfl, rfl, by decide, by decide, rfl, rfl, by decide, by decide⟩

set_option maxRecDepth 8000 in
/-- Scheduling_events: a thread that a hold pre-empts, one whose watchdog is due, and one whose is not. -/
theorem witness_preemption :
    heldWait.arg = Arg.ctx home ∧
    ((heldWait.core home.core).held = true ∧
     heldWait.atMarkerBlock home = true ∧
     (heldWait.intoPool home 7 (heldWait.ctx home).pc 0 false).isSome = true) ∧
    (watched 100).arg = Arg.ctx home ∧
    (((watched 100).ctx home).st = CtxState.running ∧
     (watched 100).watchDue home = true ∧
     (watched 101).watchDue home = false) :=
  ⟨rfl, by decide, rfl, by decide⟩

end Scheduling

namespace Islands

/-- A Send of a host with a code, ARG and a body, and a state of the island that has it at hand, with a ring of two entries. -/
def send (code : Nat) (a : Word) (body : List Byte) : HostReq :=
  ⟨7, leBytes 8 (code + body.length * 2 ^ 16 + 5 * 2 ^ 32) ++ leBytes 8 a.toNat ++ body⟩
def ring2 : Attach := ⟨0x200000, 2, 5, [(0x10000, 0x100)], []⟩
def hostState (code : Nat) (a : Word) (body : List Byte) (st : IslState) : State :=
  let s := sysState []
  { s with arg := .host (send code a body), dies := [(0, .run), (1, .off), (2, .reset), (3, .hung)]
           island := { s.island with st := st, ports := [0, 3], attach := some ring2 } }
def served (code : Nat) (a : Word) (body : List Byte) : State := hostState code a body .full

/-- The state with the Send in its ring entry. -/
def rung (code : Nat) (a : Word) (body : List Byte) : State := match (served code a body).toRing (send code a body) with
  | .ok u => u
  | .error _ => State.reset
def ringOk (code : Nat) (a : Word) (body : List Byte) : Bool := match (served code a body).toRing (send code a body) with
  | .ok _ => true
  | .error _ => false

theorem serves_of {s : State} {h : HostReq} {code : Nat} (e : s.arg = .host h ∧ (s.island.st = .forward ∨ s.island.st = .full) ∧
    s.island.refused = [] ∧ s.ringBusy = false ∧ hostCode h = code ∧ bits (hostWord h) 15 8 = 0 ∧
    bits (hostWord h) 31 16 = (hostBody h).length ∧ (hostBody h).length ≤ 65520) : s.Serves h code :=
  ⟨e.1, e.2.1, e.2.2.1, e.2.2.2.1, e.2.2.2.2.1, e.2.2.2.2.2⟩

set_option maxRecDepth 8000 in
theorem rings_of {code : Nat} {a : Word} {body : List Byte} (e : ((served code a body).Serves (send code a body) code) ∧
    ((served code a body).monitorFor 0).isSome = true ∧ ringOk code a body = true) :
    (served code a body).Rings (rung code a body) (send code a body) code := by
  refine ⟨e.1, rfl, e.2.1, ?_⟩
  have h := e.2.2
  unfold ringOk at h
  unfold rung
  cases hr : (served code a body).toRing (send code a body) with
  | ok u => rfl
  | error e => rw [hr] at h; cases h

set_option maxRecDepth 8000 in
/-- Host_commands: a Send of each code that the island serves itself, with an ARG that has no reserved bit, and one with a reserved bit. -/
theorem witness_sends :
    (served 1 0 []).Serves (send 1 0 []) 1 ∧
    (served 2 271 []).Serves (send 2 271 []) 2 ∧
    (bits (hostArg (send 2 271 [])) 63 9 = 0 ∧
     bits (hostArg (send 2 271 [])) 7 4 = 0 ∧
     rising (served 2 271 []).dies = true) ∧
    (served 3 15 []).Serves (send 3 15 []) 3 ∧
    bits (hostArg (send 3 15 [])) 63 4 = 0 ∧
    rising (served 3 15 []).dies = true ∧
    (served 4 9 []).Serves (send 4 9 []) 4 ∧
    (served 5 0 [1, 2]).Serves (send 5 0 [1, 2]) 5 ∧
    (served 10 0 []).Serves (send 10 0 []) 10 ∧
    (served 11 0 []).Serves (send 11 0 []) 11 ∧
    (served 12 0xC8802FF []).Serves (send 12 0xC8802FF []) 12 ∧
    (bits (hostArg (send 12 0xC8802FF [])) 63 28 = 0 ∧
     bits (hostArg (send 12 0xC8802FF [])) 15 10 = 0 ∧
     bits (hostArg (send 12 0xC8802FF [])) 9 0 ≤ 767 ∧
     bits (hostArg (send 12 0xC8802FF [])) 19 16 ≤ 8 ∧
     bits (hostArg (send 12 0xC8802FF [])) 23 20 ≤ 8 ∧
     bits (hostArg (send 12 0xC8802FF [])) 27 24 ≤ 12) ∧
    bits (hostArg (send 7 0x10041 [])) 63 16 ≠ 0 ∧
    (served 0x07 0x10041 []).Serves (send 0x07 0x10041 []) 0x07 :=
  ⟨serves_of (by decide), serves_of (by decide), by decide, serves_of (by decide), by decide, by decide, serves_of (by decide), serves_of
   (by decide), serves_of (by decide), serves_of (by decide), serves_of (by decide), by decide, by decide, serves_of (by decide)⟩

set_option maxRecDepth 8000 in
/-- Host_commands: the commands of the monitor class, with their Sends in the ring. -/
theorem witness_rings : (served 0x07 1 []).Rings (rung 0x07 1 []) (send 0x07 1 []) 0x07 ∧ (served 0x08 1 []).Rings (rung 0x08 1 []) (send 0x08 1 []) 0x08 ∧
    (served 0x06 0 []).Rings (rung 0x06 0 []) (send 0x06 0 []) 0x06 ∧ (served 0x09 1 []).Rings (rung 0x09 1 []) (send 0x09 1 []) 0x09 ∧
    (rung 0x09 1 []).named 1 [.live, .cancelled] = true ∧ (rung 0x09 1 []).island.ckpts = [] ∧ ((rung 0x06 0 []).planLaunch []).isNone = true ∧
    rising (served 0x09 1 []).mem = true := by
  refine ⟨rings_of ⟨serves_of (by decide), by decide, by decide⟩, rings_of ⟨serves_of (by decide), by decide, by decide⟩,
    rings_of ⟨serves_of (by decide), by decide, by decide⟩, rings_of ⟨serves_of (by decide), by decide, by decide⟩, by decide, by decide, by decide, by decide⟩

/-- A checkpoint that waits for its job to be quiesced, and one that has begun. -/
def ckpt1 (chan : Option Nat) (begun : Bool) : Ckpt := ⟨1, 0, 5, chan, 3, begun⟩
def ckptState (c : Ckpt) (a : Arg) : State :=
  let s := (sysState []).setJob 1 { job1 with sched := .quiesced, cw := 1, ch := 1 }
  { s with arg := a, island := { s.island with st := .full, ckpts := [c] } }

/-- DRAIN, with the ring free and in use. -/
def draining (code : Nat) : State := hostState code 0 [] .drain
def busy (code : Nat) : State := let s := draining code; { s with island := { s.island with inUse := [0] } }

set_option maxRecDepth 8000 in
/-- Host_commands, Island_window_commands: a checkpoint whose job is quiesced, DRAIN with the ring free and in use, an unsupported operation; and a
stream that ends, for a channel and for a host. -/
theorem witness_checkpoints :
    (ckptState (ckpt1 none false) (Arg.pair 1 0)).arg = Arg.pair 1 0 ∧
    ((ckptState (ckpt1 none false) (Arg.pair 1 0)).island.ckpts = [ckpt1 none false] ∧
     (ckpt1 none false).job = 1 ∧
     (ckpt1 none false).gen = 0 ∧
     (ckpt1 none false).begun = false ∧
     ((ckptState (ckpt1 none false) (Arg.pair 1 0)).job 1).gen = 0 ∧
     ((ckptState (ckpt1 none false) (Arg.pair 1 0)).job 1).st = JobState.live) ∧
    ((ckptState (ckpt1 none false) (Arg.pair 1 0)).job 1).sched = Sched.quiesced ∧
    (draining 0x02).arg = Arg.host (send 0x02 0 []) ∧
    ((draining 0x02).island.refused = [] ∧
     hostCode (send 0x02 0 []) = 0x02 ∧
     (draining 0x02).island.st = .drain ∧
     (draining 0x02).ringBusy = false ∧
     (busy 0x02).ringBusy = true) ∧
    (served 1 0 []).arg = Arg.host (send 1 0 []) ∧
    (served 1 0 []).island.st ≠ IslState.off ∧
    (served 1 0 []).island.st ≠ IslState.boot ∧
    (ckptState (ckpt1 (some 9) true) (Arg.pair 1 13)).arg = Arg.pair 1 13 ∧
    ((ckptState (ckpt1 (some 9) true) (Arg.pair 1 13)).island.ckpts = [ckpt1 (some 9) true] ∧
     (ckpt1 (some 9) true).job = 1 ∧
     (ckptState (ckpt1 (some 9) true) Arg.nothing).poison = [] ∧
     (ckptState (ckpt1 none true) .nothing).island.ports = [] ∧
     (served 0x01 0 []).island.ports ≠ []) :=
  ⟨rfl, by decide, by decide, rfl, by decide, rfl, by decide, by decide, rfl, by decide⟩

/-- A command at the island window: its two words, and the island's state with the record of an ATTACH at 0x100000. -/
def windowOp (d0 d1 : Word) : Op := { op1 (.store 1 16 (BitVec.ofNat 128 (d1.toNat * 2 ^ 64 + d0.toNat))) with job := 0, dst := none }
def atWindow (d0 d1 : Word) (st : IslState) (streams : List Stream) : State :=
  let s := (sysState []).wrWords 0x100000 [0x200000, 2 + 5 * 2 ^ 32, 0x1000, 0x40, 0, 0, 0, 0]
  { s with arg := .num 9, ops := [windowOp d0 d1], dies := [(0, .run), (1, .run), (2, .run), (3, .run)]
           island := { s.island with st := st, streams := streams, attach := some ring2, inUse := [1] } }
def idle5 : Stream := ⟨5, [], 0, none, [], none, none, 0, [], false⟩
def open5 : Stream := { idle5 with frame := some ⟨1, 2, [], false, false⟩ }

theorem window_of {s : State} {o : Op} {d0 d1 : Word} (h : s.arg = .num o.id ∧ s.op o.id = some o ∧ (o.data0 = d0 ∧ o.data1 = d1) ∧
    d1.toNat + 64 ≤ Config.hbmBytes) : s.AtWindow o d0 d1 := ⟨h.1, h.2.1, h.2.2.1, h.2.2.2⟩

set_option maxRecDepth 8000 in
/-- Island_window_commands: a store to the window with a bit of 63:15 set, with codes that are unassigned, and while the island is off or boots; and
the six codes. -/
theorem witness_window_stores :
    let at' (c : Word × IslState) : State := atWindow c.1 0x100000 c.2 []
    let made (c : Word × IslState) : Op := { windowOp c.1 0x100000 with ord := .release, loc := some (2 ^ 42 + 0x1FFFD0) }
    let refused : List (Word × IslState) := [(0x8001, .full), (0, .full), (7, .forward), (1, .off), (1, .boot)]
    let passed : List (Word × IslState) := [(1, .forward), (2, .full), (3, .full), (4, .full), (5, .full), (6, .full)]
    (∀ c ∈ refused ++ passed, let s := { at' c with ops := [made c] }
      let o := made c
      s.arg = .num o.id ∧ s.op o.id = some o ∧ (o.performed = false ∧ o.reason = 0 ∧ o.mx = false ∧ o.left = true) ∧
        s.stampOk 0 o.gen = true ∧ o.job = 0 ∧ o.body = .store 1 16 (BitVec.ofNat 128 (0x100000 * 2 ^ 64 + c.1.toNat))) ∧
    (∀ c ∈ refused, let d := (made c).data0
      bits d 63 15 ≠ 0 ∨ bits d 7 0 = 0 ∨ 6 < bits d 7 0 ∨ (at' c).island.st = .off ∨ (at' c).island.st = .boot) ∧
    (∀ c ∈ passed, let d := (made c).data0
      bits d 63 15 = 0 ∧ (at' c).island.st ≠ .off ∧ (at' c).island.st ≠ .boot ∧ 1 ≤ bits d 7 0 ∧ bits d 7 0 ≤ 6) := by
  decide

set_option maxRecDepth 8000 in
/-- Island_window_commands: ATTACH in FORWARD and in DRAIN, REPLY, OPEN, CLOSE of an idle and of an open stream, CLOSE with DATA1, FREE of an entry in
use, of a free one and of one that the ring does not have, CKPT, and a record above the memory. -/
theorem witness_window :
    (atWindow 1 0x100000 IslState.forward []).AtWindow (windowOp 1 0x100000) 1 0x100000 ∧
    (((atWindow 1 0x100000 IslState.forward []).island.st = IslState.forward ∨ (atWindow 1 0x100000 IslState.forward []).island.st =
       IslState.full) ∧
     bits ((atWindow 1 0x100000 IslState.forward []).rd64 (0x100000 + 8 * 0)) 11 0 = 0 ∧
     bits ((atWindow 1 0x100000 IslState.forward []).rd64 (0x100000 + 8 * 1)) 31 0 ≠ 0 ∧
     (atWindow 1 0x100000 IslState.forward []).die (dieOf (windowOp 1 0x100000).ctx.core) = DieState.run ∧
     BitVec.toNat ((atWindow 1 0x100000 IslState.forward []).rd64 (0x100000 + 8 * 0)) + 0x10000 * bits ((atWindow 1 0x100000
       IslState.forward []).rd64 (0x100000 + 8 * 1)) 31 0 ≤ Config.hbmBytes) ∧
    (atWindow 1 0x100000 IslState.drain []).AtWindow (windowOp 1 0x100000) 1 0x100000 ∧
    (atWindow 1 0x100000 IslState.drain []).island.st ≠ IslState.forward ∧
    (atWindow 1 0x100000 IslState.drain []).island.st ≠ IslState.full ∧
    (atWindow 1283 0x100000 IslState.full []).AtWindow (windowOp 1283 0x100000) 1283 0x100000 ∧
    (∀ (x : Machine.Stream), x ∈ (atWindow 1283 0x100000 IslState.full []).island.streams → x.num ≠ bits 1283 14 8) ∧
    (atWindow 1283 0x100000 IslState.full [idle5]).AtWindow (windowOp 1283 0x100000) 1283 0x100000 ∧
    (∃ x, x ∈ (atWindow 1283 0x100000 IslState.full [idle5]).island.streams ∧ x.num = bits 1283 14 8) ∧
    (atWindow 1284 0 IslState.full [idle5]).AtWindow (windowOp 1284 0) 1284 0 ∧
    (List.find? (fun y => y.num == bits 1284 14 8) (atWindow 1284 0 IslState.full [idle5]).island.streams = some idle5) ∧
    idle5.frame = none ∧
    open5.frame ≠ none ∧
    ((atWindow 0x504 0 .full [open5]).island.streams.find? (fun y => y.num == 5) = some open5) ∧
    (atWindow 1284 0 IslState.full []).AtWindow (windowOp 1284 0) 1284 0 ∧
    (∀ (x : Machine.Stream), x ∈ (atWindow 1284 0 IslState.full []).island.streams → x.num ≠ bits 1284 14 8) ∧
    (atWindow 6 1 IslState.full []).AtWindow (windowOp 6 1) 6 1 ∧
    (atWindow 6 1 IslState.full []).island.attach = some ring2 ∧
    1 < ring2.entries ∧
    1 ∈ (atWindow 6 1 IslState.full []).island.inUse ∧
    (atWindow 6 0 IslState.full []).AtWindow (windowOp 6 0) 6 0 ∧
    (atWindow 6 0 IslState.full []).island.attach = some ring2 ∧
    (ring2.entries ≤ 0 ∨ ¬0 ∈ (atWindow 6 0 IslState.full []).island.inUse) ∧
    (atWindow 6 3 IslState.full []).AtWindow (windowOp 6 3) 6 3 ∧
    (atWindow 6 3 IslState.full []).island.attach = some ring2 ∧
    (ring2.entries ≤ 3 ∨ ¬3 ∈ (atWindow 6 3 IslState.full []).island.inUse) ∧
    (atWindow 1284 8 IslState.full []).AtWindow (windowOp 1284 8) 1284 8 ∧
    8 ≠ 0 ∧
    (atWindow 1 0x6C00000000 IslState.full []).arg = Arg.num (windowOp 1 0x6C00000000).id ∧
    (atWindow 1 0x6C00000000 IslState.full []).op (windowOp 1 0x6C00000000).id = some (windowOp 1 0x6C00000000) ∧
    Config.hbmBytes < BitVec.toNat (windowOp 1 0x6C00000000).data1 + 64 :=
  ⟨window_of (by decide), by decide, window_of (by decide), by decide, by decide, window_of (by decide), by decide, window_of (by
   decide), by decide, window_of (by decide), rfl, by decide, by decide, rfl, window_of (by decide), by decide, window_of (by decide),
   rfl, by decide, by decide, window_of (by decide), rfl, by decide, window_of (by decide), rfl, by decide, window_of (by decide), by
   decide, rfl, rfl, by decide⟩

end Islands

namespace Islands

set_option maxRecDepth 8000 in
/-- Island_window_commands: a job that is quiesced, whatever the open word names. -/
theorem witness_ckpt : ∃ s : State, (s.job (bits s.openWord.1 5 0)).sched = .quiesced ∧ s.island.ckpts = [] ∧ s.poison = [] ∧
    s.AtWindow (windowOp 5 0x100000) 5 0x100000 := by
  let s : State := { sysState [] with arg := .num 9, ops := [windowOp 5 0x100000] }
  have w : s.AtWindow (windowOp 5 0x100000) 5 0x100000 := window_of (by decide)
  exact ⟨s.setJob (bits s.openWord.1 5 0) { Job.init 0 with sched := .quiesced },
    congrArg Job.sched (State.job_setJob_same (by decide) _ _), rfl, rfl, w.arg, w.op, w.words, w.record⟩

end Islands

namespace Traffic

/-- An RMA inside the first window and one that passes the end of the second, with every die in a state. -/
def windows : Attach := ⟨0x200000, 2, 5, [(0x10000, 0x100), (0x100000, 16)], []⟩
def rma (offset : Nat) (window : Nat) : RmaReq := ⟨7, window, offset, 8, [1, 2, 3, 4, 5, 6, 7, 8]⟩
def rmaState (st : IslState) (r : RmaReq) (d : DieState) : State :=
  let s := sysState []
  { s with arg := .rma r, dies := [(0, d), (1, d), (2, d), (3, d)], island := { s.island with st := st, attach := some windows } }
def retiredRma : State := { rmaState .full (rma 0xF8 0) .run with badGranules := [0x10] }

/-- A load of part 5 on its way, with and without a port that is up. -/
def peerLoad (plain : Bool) : Op := { op1 (.load 8) with addr := word (2 ^ 61 + 2 ^ 58 + 5 * 2 ^ 48 + 0x1000), plain := plain }
def leaving (plain up : Bool) : State :=
  let s := small []
  { s with arg := .peer (.outgoing 9), ops := [peerLoad plain], island := { s.island with st := .full, extents := (8, 1, 1), ports := if up then [0, 1] else [] } }

/-- A load that part 5 asks for, of a page of job 1, in a state of the island and of the dies, with a stamp. -/
def asked (va : Word) (st : IslState) (d : DieState) (gen : Nat) : State :=
  let s := (small []).setJob 1 { job1 with ptroot := 0x40001 }
  let s := (((s.wr64 (0x40000 + 8 * 1023) 0x80001).wr64 (0x80000 + 8 * 2047) 0xC0001).wr64 (0xC0000 + 8 * 2047) 0x30072)
  { s with arg := .peer (.incoming 3 5 20 1 1 gen (.load va 8 false)), dies := [(0, d), (1, d), (2, d), (3, d)], island := { s.island with st := st } }
def mappedVa : Word := 0xFFFFFFFF1008

/-- The same behind an earlier request of its core to its home. -/
def behindOne : State := (asked mappedVa .full .run 0).later 5 (some (peerPath 5 20 0x31008)) .peerRequest .nothing

/-- A transit packet that enters, and one that goes on. -/
def enters : State := let s := sysState []; { s with arg := .peer (.transit 5 [1, 2]), island := { s.island with st := .drain } }
def goesOn : State :=
  let s := sysState []
  { s with arg := .peer (.forward 4), island := { s.island with st := .full, extents := (8, 1, 1), ports := [0, 1], transit := [(4, 5, [1, 2])] } }

set_option maxRecDepth 8000 in
/-- Traffic_and_island_states: an RMA in a retired granule, where a home is down, inside its window, outside it, and outside FULL; a load that leaves
and one that cannot; a load of another part in FORWARD, behind another one, at a home that is down, with a stale stamp, of no page, and of a page;
and a transit packet. -/
theorem witness_traffic :
    retiredRma.arg = Arg.rma (rma 248 0) ∧
    retiredRma.island.attach = some windows ∧
    windows.windows[(rma 248 0).window]? = some (0x10000, 256) ∧
    (retiredRma.island.st = IslState.full ∧
     (rma 248 0).offset + (rma 248 0).len ≤ 256 ∧
     0x10000 + 256 ≤ Config.hbmBytes ∧
     retiredRma.granuleRetired (0x10000 + (rma 248 0).offset) (rma 248 0).len = true) ∧
    (rmaState IslState.full (rma 248 0) DieState.off).arg = Arg.rma (rma 248 0) ∧
    (rmaState IslState.full (rma 248 0) DieState.off).island.attach = some windows ∧
    ((rmaState IslState.full (rma 248 0) DieState.off).island.st = IslState.full ∧
     (rmaState IslState.full (rma 248 0) DieState.off).granuleRetired (0x10000 + (rma 248 0).offset) (rma 248 0).len = false ∧
     (rmaState IslState.full (rma 248 0) DieState.off).spanDown (0x10000 + (rma 248 0).offset) (rma 248 0).len = true) ∧
    (rmaState IslState.full (rma 248 0) DieState.run).arg = Arg.rma (rma 248 0) ∧
    (rmaState IslState.full (rma 248 0) DieState.run).island.attach = some windows ∧
    ((rmaState IslState.full (rma 248 0) DieState.run).island.st = IslState.full ∧
     (rmaState IslState.full (rma 248 0) DieState.run).granuleRetired (0x10000 + (rma 248 0).offset) (rma 248 0).len = false ∧
     (rmaState IslState.full (rma 248 0) DieState.run).spanDown (0x10000 + (rma 248 0).offset) (rma 248 0).len = false ∧
     (rma 0xF8 0).data.length = (rma 0xF8 0).len ∧
     rising (rmaState .full (rma 0xF8 0) .run).mem = true) ∧
    (rmaState IslState.full (rma 9 1) DieState.run).arg = Arg.rma (rma 9 1) ∧
    (rmaState IslState.full (rma 9 1) DieState.run).island.attach = some windows ∧
    windows.windows[(rma 9 1).window]? = some (0x100000, 16) ∧
    ((rmaState IslState.full (rma 9 1) DieState.run).island.st = IslState.full ∧
     16 < (rma 9 1).offset + (rma 9 1).len ∧
     (rmaState .drain (rma 9 1) .run).island.st = .drain) ∧
    (leaving false true).arg = Arg.peer (PeerReq.outgoing (peerLoad false).id) ∧
    (leaving false true).op (peerLoad false).id = some (peerLoad false) ∧
    (leaving false true).peerUp (bits (peerLoad false).addr 57 48) = true ∧
    (peerLoad false).plain = false ∧
    (leaving true false).arg = Arg.peer (PeerReq.outgoing (peerLoad true).id) ∧
    (leaving true false).op (peerLoad true).id = some (peerLoad true) ∧
    (leaving true false).peerUp (bits (peerLoad true).addr 57 48) = false ∧
    (peerLoad true).body = OpBody.load 8 ∧
    (asked mappedVa IslState.forward DieState.run 0).arg = Arg.peer (PeerReq.incoming 3 5 20 1 1 0 (PeerBody.load mappedVa 8 false)) ∧
    ((asked mappedVa IslState.forward DieState.run 0).island.st = IslState.forward ∧
     (¬∃ p, (asked mappedVa IslState.forward DieState.run 0).walk 1 (bits mappedVa 47 0) = some p ∧ ∃ d, d ∈ (asked mappedVa
       IslState.forward DieState.run 0).agenda ∧ d.path = some (peerPath 5 20 (p.pa + (bits mappedVa 47 0 - p.base)))) ∧
     (asked mappedVa .forward .run 0).agenda = []) ∧
    behindOne.arg = (asked mappedVa .full .run 0).arg ∧
    ((((behindOne.walk 1 (bits mappedVa 47 0)).any fun p => behindOne.agenda.any fun d => d.path == some (peerPath 5 20 (p.pa + (bits
       mappedVa 47 0 - p.base)))) = true) ∧
     behindOne.island.st ≠ .off ∧
     behindOne.island.st ≠ .boot ∧
     (asked mappedVa .full .off 0).homeDown 0x31008 = true ∧
     (asked mappedVa .full .run 1).stampOk 1 1 = false ∧
     (asked mappedVa .full .run 0).homeDown 0x31008 = false) ∧
    ((asked mappedVa .full .run 0).stampOk 1 0 = true ∧
     (((asked mappedVa .full .run 0).walk 1 (bits mappedVa 47 0)).any (fun p => p.rd && p.pa + (bits mappedVa 47 0 - p.base) == 0x31008) =
       true) ∧
     (asked mappedVa .full .run 0).granuleRetired 0x31008 8 = false ∧
     ((asked 0x1000 .full .run 0).walk 1 0x1000).isNone = true) ∧
    enters.arg = Arg.peer (.transit 5 [1, 2]) ∧
    enters.island.st = .drain ∧
    5 ≠ enters.devnum ∧
    goesOn.arg = Arg.peer (.forward 4) ∧
    goesOn.island.transit = [(4, 5, [1, 2])] ∧
    goesOn.torusUp 5 = true :=
  ⟨rfl, rfl, rfl, by decide, rfl, rfl, by decide, rfl, rfl, by decide, rfl, rfl, rfl, by decide, rfl, rfl, by decide, by decide, rfl,
   rfl, by decide, rfl, rfl, by decide, rfl, by decide, by decide, rfl, by decide, by decide, rfl, by decide, by decide⟩

/-- The island in a state, with ports and with an argument, in DRAIN before and after its end. -/
def isl (st : IslState) (a : Arg) (ports : List Nat) (passed : Bool) : State :=
  let s := sysState []
  { s with arg := a, cycle := 2000000, island := { s.island with st := st, ports := ports, passed := passed } }
def early : State := let s := isl .drain .nothing [1] false; { s with island := { s.island with lastTransit := 1999999, drainSince := 1500000 } }

set_option maxRecDepth 8000 in
/-- Traffic_and_island_states: OFF and another state, BOOT with firmware that passes and that fails, links, DRAIN before and after its end. -/
theorem witness_island :
    ((isl IslState.off Arg.nothing [] false).island.st = IslState.off ∧
     (isl IslState.full Arg.nothing [1] false).island.st ≠ IslState.off ∧
     (isl IslState.boot (Arg.flag true) [1] false).island.st = IslState.boot) ∧
    (isl IslState.boot (Arg.flag true) [1] false).arg = Arg.flag true ∧
    (isl IslState.boot (Arg.flag false) [1] false).island.st = IslState.boot ∧
    (isl IslState.boot (Arg.flag false) [1] false).arg = Arg.flag false ∧
    (isl IslState.boot (Arg.num 15) [1] true).arg = Arg.num 15 ∧
    15 < 16 ∧
    (isl IslState.boot (Arg.num 15) [1] true).island.st ≠ IslState.off ∧
    (isl IslState.full (Arg.num 1) [1] true).arg = Arg.num 1 ∧
    ((isl .full (.num 1) [1] true).outgoing = [] ∧
     early.island.st = IslState.drain ∧
     early.cycle < early.island.drainEnd ∧
     (isl IslState.drain Arg.nothing [1] false).island.st = IslState.drain ∧
     (isl IslState.drain Arg.nothing [1] false).island.drainEnd ≤ (isl IslState.drain Arg.nothing [1] false).cycle) :=
  ⟨by decide, rfl, by decide, rfl, rfl, by decide, by decide, rfl, by decide⟩

end Traffic

namespace Ingest

/-- A stream of job 1 with four lines of 250 bytes, its descriptor, and a state of the island with it. -/
def streamWords : List Word :=
  [0x6000FFFFFFFF0000, word (4096 * 2 ^ 32 + 256), 0x6000FFFFFFFF8000, word (16000000 * 2 ^ 32 + 1000000), word (3 * 2 ^ 52 + 250 * 2 ^ 32),
   word (coordField 500 * 2 ^ 16 + 1 + 2 ^ 32 * 9), word (3 * 2 ^ 16 + 5000), 0]
def stream5 (f : Option Frame) (seqs : List Nat) (due : Option Nat) : Stream := ⟨5, streamWords, 2, f, seqs, none, due, 3, [], false⟩
def frame1 : Frame := ⟨1000, 90, [(0, 0, 5)], true, false⟩
def row1 : SampleRow := ⟨1, 2, (List.range 12).map (BitVec.ofNat 8)⟩
def packet (stamp : Option Nat) (rtpSeq rtpTime : Nat) : Packet := ⟨3, 5000, stamp, rtpSeq, rtpTime, false, [row1]⟩
def ingestState (root : Word) (a : Arg) (x : Stream) (st : Sched) : State :=
  let s := (small []).setJob 1 { job1 with ptroot := root, sched := st }
  let s := (((s.wr64 (0x40000 + 8 * 1023) 0x80001).wr64 (0x80000 + 8 * 2047) 0xC0001).wr64 (0xC0000 + 8 * 2047) 0x30072)
  { s with arg := a, dies := [(0, .run), (1, .run), (2, .run), (3, .run)], island := { s.island with st := .full, streams := [x], ptp := 77 } }

/-- A packet with a stream in a state and with page tables at an address, and a time that has come for it. -/
def comes (p : Packet) (x : Stream) (st : Sched) (root : Word) : State := ingestState root (.packet p) x st
def due (x : Stream) (st : Sched) : State := ingestState 0x40001 (.pair 5 2) x st
def filling : Stream := stream5 (some frame1) [] none
def seen : Stream := stream5 (some frame1) [7] none
def idle : Stream := stream5 none [] none
def empties : Stream := stream5 none [] (some 4000)
def stamped (rtpTime : Nat) : Packet := packet (some 50) 7 rtpTime

set_option maxRecDepth 8000 in
/-- Ingest_events: a packet that arrives; with its time, one of a job that is quiesced, one that has been seen, one that is new, with and without a
page, one of an older and one of a newer frame, and one that opens a frame. -/
theorem witness_ingest :
    (comes (packet none 7 90) idle Sched.resident 0x40001).arg = Arg.packet (packet none 7 90) ∧
    (comes (packet none 7 90) idle Sched.resident 0x40001).streamOf (packet none 7 90) = some (idle, 0) ∧
    (packet none 7 90).stamp = none ∧
    (comes (packet none 7 90) idle Sched.resident 0x40001).island.st = IslState.full ∧
    (comes (stamped 90) idle Sched.quiesced 0x40001).arg = Arg.packet (stamped 90) ∧
    (comes (stamped 90) idle Sched.quiesced 0x40001).streamOf (stamped 90) = some (idle, 0) ∧
    (stamped 90).stamp = some 50 ∧
    (comes (stamped 90) idle Sched.quiesced 0x40001).streamHeld idle = true ∧
    (comes (stamped 90) seen Sched.resident 0x40001).arg = Arg.packet (stamped 90) ∧
    (comes (stamped 90) seen Sched.resident 0x40001).streamOf (stamped 90) = some (seen, 0) ∧
    (comes (stamped 90) seen Sched.resident 0x40001).streamHeld seen = false ∧
    seen.frame = some frame1 ∧
    (stamped 90).rtpTime = frame1.rtpTime ∧
    (stamped 90).rtpSeq ∈ seen.seqs ∧
    (comes (stamped 90) filling .resident 0x40001).arg = Arg.packet (stamped 90) ∧
    (comes (stamped 90) filling .resident 0x40001).streamOf (stamped 90) = some (filling, 0) ∧
    (comes (stamped 90) filling .resident 0x40001).streamHeld filling = false ∧
    ((comes (stamped 90) filling .resident 0x40001).writeRows filling [row1]).isSome = true ∧
    (comes (stamped 90) filling Sched.resident 0).arg = Arg.packet (stamped 90) ∧
    (comes (stamped 90) filling Sched.resident 0).streamOf (stamped 90) = some (filling, 0) ∧
    (comes (stamped 90) filling Sched.resident 0).streamHeld filling = false ∧
    filling.frame = some frame1 ∧
    ¬(stamped 90).rtpSeq ∈ filling.seqs ∧
    (comes (stamped 90) filling Sched.resident 0).writeRows filling (stamped 90).rows = none ∧
    (comes (stamped 89) filling Sched.resident 0x40001).arg = Arg.packet (stamped 89) ∧
    (comes (stamped 89) filling Sched.resident 0x40001).streamOf (stamped 89) = some (filling, 0) ∧
    (stamped 89).stamp = some 50 ∧
    ((comes (stamped 89) filling Sched.resident 0x40001).streamHeld filling = false ∧
     (stamped 89).rtpTime ≠ frame1.rtpTime ∧
     newer (stamped 89).rtpTime frame1.rtpTime = false) ∧
    (comes (stamped 91) filling .resident 0x40001).arg = Arg.packet (stamped 91) ∧
    (comes (stamped 91) filling .resident 0x40001).streamOf (stamped 91) = some (filling, 0) ∧
    ((comes (stamped 91) filling .resident 0x40001).streamHeld filling = false ∧
     (stamped 91).rtpTime ≠ frame1.rtpTime ∧
     newer (stamped 91).rtpTime frame1.rtpTime = true ∧
     (((comes (stamped 91) filling .resident 0x40001).closeFrame filling 50 false).island.streams.any (fun z => z.num == filling.num) =
       true)) ∧
    (comes (stamped 90) idle Sched.resident 0x40001).arg = Arg.packet (stamped 90) ∧
    (comes (stamped 90) idle Sched.resident 0x40001).streamOf (stamped 90) = some (idle, 0) ∧
    ((comes (stamped 90) idle Sched.resident 0x40001).streamHeld idle = false ∧
     idle.frame = none ∧
     idle.last = none) :=
  ⟨rfl, rfl, by decide, by decide, rfl, rfl, rfl, by decide, rfl, rfl, by decide, rfl, by decide, by decide, rfl, rfl, by decide, by
   decide, rfl, rfl, by decide, rfl, by decide, by decide, rfl, rfl, rfl, by decide, rfl, rfl, by decide, rfl, rfl, by decide⟩

set_option maxRecDepth 8000 in
/-- Ingest_events: a row inside its frame and one below it; a frame that closes with and without a page; a deadline of a job that is quiesced, one
that closes a frame, and one of an empty frame. -/
theorem witness_frames_end :
    (row1.line < filling.lines ∧
     filling.lines ≤ (let __src := row1; { __src with line := 4 }).line ∧
     (((due filling .resident).streamWrite filling (filling.w 0 + word (filling.fstride * filling.slot + filling.lstride * row1.line +
       filling.pgroup * row1.offset)) (filling.row row1).2).any (fun u => (u.writeRows filling []).isSome) = true)) ∧
    filling.frame = some frame1 ∧
    (filling.num < 128 ∧
     (comes (stamped 90) filling Sched.resident 0).streamWrite filling filling.bitmap (bitmapBytes filling.lines (frame1.misses
       filling.lbytes)) = none ∧
     ((due filling .resident).streamWrite filling filling.bitmap (bitmapBytes filling.lines (frame1.misses filling.lbytes))).isSome = true
      ) ∧
    (due filling Sched.quiesced).arg = Arg.pair 5 2 ∧
    (List.find? (fun y => y.num == 5) (due filling Sched.quiesced).island.streams = some filling) ∧
    (filling.index = 2 ∧
     5 < 128 ∧
     (due filling Sched.quiesced).streamHeld filling = true) ∧
    (due filling Sched.resident).arg = Arg.pair 5 2 ∧
    (List.find? (fun y => y.num == 5) (due filling Sched.resident).island.streams = some filling) ∧
    (due filling Sched.resident).streamHeld filling = false ∧
    (due empties Sched.resident).arg = Arg.pair 5 2 ∧
    (List.find? (fun y => y.num == 5) (due empties Sched.resident).island.streams = some empties) ∧
    (empties.index = 2 ∧
     (due empties Sched.resident).streamHeld empties = false ∧
     empties.frame = none) ∧
    empties.due = some 4000 ∧
    empties.empties < 8 ∧
    (((due empties .resident).openWord.2.streamWrite empties empties.bitmap (bitmapBytes empties.lines fun _ => true)).isSome = true) :=
  ⟨by decide, rfl, by decide, rfl, rfl, by decide, rfl, rfl, by decide, rfl, rfl, by decide, rfl, by decide, by decide⟩

end Ingest

namespace Reliability

/-- An event with its argument, three dies in RUN and one HUNG. -/
def event (a : Arg) : State :=
  let s := sysState []
  { s with arg := a, dies := [(0, .run), (1, .run), (2, .run), (3, .hung)], island := { s.island with st := .full, ports := [0, 1] } }
def lostState : State := (event (.num 1)).setJob 1 { job1 with lostRec := some [1, 2, 3, 4, 5, 6, 7, 8] }
def spared : State := { event (.num 1) with spare := [1] }

set_option maxRecDepth 8000 in
/-- Reliability_events: what the patrol finds; the windows of late edges, and a failed self-test; a die that is hot or stops beating; links with and
without their spare lane; a record that is on its way; and a minute. -/
theorem witness_reliability :
    (event (.pair 9 1)).arg = Arg.pair 9 1 ∧
    (event (.pair 9 2)).arg = Arg.pair 9 2 ∧
    (event (Arg.triple 1 63 64)).arg = Arg.triple 1 63 64 ∧
    (rising (event (Arg.triple 1 63 64)).clusters = true ∧
     64 ≤ 64 ∧
     64 < 0x1000 ∧
     ((event (Arg.triple 1 63 64)).cluster 63).health = 0 ∧
     isMonitor 63 = false ∧
     isMonitor 0 = true) ∧
    (event (.triple 0 0 4096)).arg = Arg.triple 0 0 4096 ∧
    (event (.triple 5 63 0)).arg = Arg.triple 5 63 0 ∧
    rising (event (Arg.num 2)).dies = true ∧
    (event (.num 2)).arg = Arg.num 2 ∧
    ((event (.num 2)).die 2 = .run ∧
     (event (.num 3)).die 3 = .hung ∧
     (event (.num 2)).island.st = .full) ∧
    (event (Arg.num 1)).arg = Arg.num 1 ∧
    1 ∉ (event (.num 1)).spare ∧
    1 ∈ spared.spare ∧
    lostState.arg = Arg.num 1 ∧
    (lostState.job 1).lostRec = some [1, 2, 3, 4, 5, 6, 7, 8] ∧
    ([1, 2, 3, 4, 5, 6, 7, 8].length = 8 ∧
     rising lostState.jobs = true ∧
     lostState.life.lost.length < 256 ∧
     lostState.die (dieOf (coreAt (4 * (lostState.job 1).cx) (2 * (lostState.job 1).cy))) = .run) ∧
    (event (.minute [40, 50, 60, 70] 5000)).arg = Arg.minute [40, 50, 60, 70] 5000 :=
  ⟨rfl, rfl, rfl, by decide, rfl, rfl, by decide, rfl, by decide, rfl, by decide, by decide, rfl, rfl, by decide, rfl⟩

end Reliability


end Sys2Proof.Tests
end

/-!
PROOF. What the operand forms of the scalar instructions answer when no check of R54 stops them: one rule for each form, with the value left to a
side equation, so that an instruction's result is its form's rule applied to the equation of its value.
-/
namespace Sys2Proof.Machine

open Sys2Proof

/-- Format RR, short. -/
theorem formRR_writes (f : Word → Word → Word) {o : R3} {s : State} (r : s.Ready o.s [gr o.d, gr o.a, gr o.b]) {v : Word}
    (hv : f (s.now.getG o.a.toNat) (s.now.getG o.b.toNat) = v) : formRR o s f = .next (s.after fun x => x.setG o.d.toNat v) :=
  hv ▸ State.issueCtx_ok r _

/-- Format RR, long: the result returns after `lat` cycles. -/
theorem formRRLong_issues (f : Word → Word → Word) {o : R3} {s : State} (r : s.Ready o.s [gr o.d, gr o.a, gr o.b]) (w : IWord) (lat : Nat)
    {v : Word} (hv : f (s.now.getG o.a.toNat) (s.now.getG o.b.toNat) = v) :
    formRRLong o w s lat f = .next (s.longResult s.cur w (gr o.d) (v.zeroExtend 128) lat) :=
  hv ▸ State.issue_ok r rfl rfl

/-- Format RI. -/
theorem formRI_writes (f : Word → Word) {w : Bool} {d a : BitVec 6} {s : State} (r : s.Ready w [gr d, gr a]) {v : Word}
    (hv : f (s.now.getG a.toNat) = v) : formRI w d a s f = .next (s.after fun x => x.setG d.toNat v) :=
  hv ▸ State.issueCtx_ok r _

/-- The forms of two words: the context goes on past both. -/
theorem formL_sets (f : Ctx → Ctx) {w : Bool} {rs : List Reg} {s : State} (r : s.Ready w rs) {y : Ctx} (hy : f s.now = y) :
    formL w rs s f = .next (s.setCtx s.cur (y.advance 2)) :=
  hy ▸ State.issue_ok r rfl rfl

/-- Only g0 has no pending bit (R44). -/
theorem Ctx.mem_setPend (x : Ctx) {r : Reg} (h : r ≠ .g 0) : r ∈ (x.setPend r).pend := by
  unfold Ctx.setPend
  rw [if_neg h]
  dsimp only
  split
  case isTrue hr => exact List.contains_iff_mem.mp hr
  case isFalse => exact List.mem_cons_self

/-- A scalar register field of 0 is the only one that names g0. -/
theorem gr_ne_g0 {d : BitVec 6} (h : d ≠ 0) : gr d ≠ .g 0 := fun e =>
  h (BitVec.eq_of_toNat_eq (Reg.g.inj e))

/-- The operation that a long instruction leaves outstanding holds its result. -/
theorem State.longResult_ops (s : State) (c : CtxId) (w : IWord) (dst : Reg) (v : Vec) (lat : Nat) (fl : BitVec 9) :
    (s.longResult c w dst v lat fl).ops = s.ops ++ [{ s.newOp c w 0 (.result v fl) (some dst) with performed := true }] := rfl

/-- The return of a long instruction's result comes after its latency. -/
theorem State.longResult_agenda (s : State) (c : CtxId) (w : IWord) (dst : Reg) (v : Vec) (lat : Nat) (fl : BitVec 9) :
    (s.longResult c w dst v lat fl).agenda = s.agenda ++ [⟨s.cycle + lat, none, .longResultReturn, .answer s.nextId none⟩] := rfl

/-- The context that issued a long instruction has its destination pending and goes on. -/
theorem State.ctx_longResult {s : State} (h : rising s.ctxs = true) (c : CtxId) (w : IWord) (dst : Reg) (v : Vec) (lat : Nat) (fl : BitVec 9) :
    (s.longResult c w dst v lat fl).ctx c = ((s.ctx c).setPend dst).advance 1 :=
  State.ctx_setCtx_same (s := (s.addOp _).later _ _ _ _) h c _

end Sys2Proof.Machine

/-!
PROOF. The values that the scalar instructions compute are those of R57, R58 and R60: the model's arithmetic on numbers and integers against the
operations on words.
-/
namespace Sys2Proof.Machine

open Sys2Proof

/-! ## Shifts and compares (R57, R60) -/

theorem shiftCount_eq (b : Word) : shiftCount b = b.toNat % 64 := by
  simp [shiftCount, bits, nbits]

theorem valShl_eq (a b : Word) : valShl a b = a <<< (b.toNat % 64) := by
  rw [valShl, shiftCount_eq]

theorem valShr_eq (a b : Word) : valShr a b = a >>> (b.toNat % 64) := by
  rw [valShr, shiftCount_eq]

theorem valSra_eq (a b : Word) : valSra a b = a.sshiftRight (b.toNat % 64) := by
  rw [valSra, shiftCount_eq]

theorem valRol_eq (a b : Word) : valRol a b = a.rotateLeft (b.toNat % 64) := by
  have h : b.toNat % 64 < 64 := Nat.mod_lt _ (by decide)
  rw [valRol, shiftCount_eq, BitVec.rotateLeft_def, Nat.mod_eq_of_lt h]

theorem oneIf_eq_ite {b : Bool} {p : Prop} [Decidable p] (h : b = true ↔ p) : oneIf b = if p then 1 else 0 := by
  unfold oneIf
  simp only [h]

/-- A signed compare that is not "less than" is "greater or equal". -/
theorem not_slt_iff (a b : Word) : (!a.slt b) = true ↔ b.toInt ≤ a.toInt := by
  rw [Bool.not_eq_true', ← Bool.not_eq_true, BitVec.slt_iff_toInt_lt, Int.not_lt]

/-- The same for the unsigned compare. -/
theorem not_ult_iff (a b : Word) : (!a.ult b) = true ↔ b.toNat ≤ a.toNat := by
  rw [Bool.not_eq_true', ← Bool.not_eq_true, BitVec.ult_iff_toNat_lt, Nat.not_lt]

/-! ## High halves of products (R58) -/

theorem extractHigh_ofInt (i : Int) : (BitVec.ofInt 128 i).extractLsb' 64 64 = wordI (i / 2 ^ 64) := by
  apply BitVec.eq_of_toNat_eq
  simp only [wordI, BitVec.extractLsb'_toNat, BitVec.toNat_ofInt, Nat.shiftRight_eq_div_pow]
  omega

theorem valMulhS_eq (a b : Word) : valMulhS a b = (a.signExtend 128 * b.signExtend 128).extractLsb' 64 64 := by
  have h : a.signExtend 128 * b.signExtend 128 = BitVec.ofInt 128 (a.toInt * b.toInt) := (BitVec.ofInt_mul _ _).symm
  rw [h, extractHigh_ofInt, valMulhS]

theorem extractHigh_ofNat (n : Nat) : (BitVec.ofNat 128 n).extractLsb' 64 64 = word (n / 2 ^ 64) := by
  apply BitVec.eq_of_toNat_eq
  simp only [word, BitVec.extractLsb'_toNat, BitVec.toNat_ofNat, Nat.shiftRight_eq_div_pow]
  omega

theorem valMulhN_eq (a b : Word) : valMulhN a b = (a.zeroExtend 128 * b.zeroExtend 128).extractLsb' 64 64 := by
  have h : a.zeroExtend 128 * b.zeroExtend 128 = BitVec.ofNat 128 (a.toNat * b.toNat) := by
    apply BitVec.eq_of_toNat_eq
    simp
  rw [h, extractHigh_ofNat, valMulhN]

/-! ## Division (R58) -/

theorem valDivN_eq (a b : Word) : valDivN a b = if b = 0 then -1 else a / b := by
  unfold valDivN
  split
  · rfl
  · exact BitVec.udiv_def.symm

theorem valRemN_eq (a b : Word) : valRemN a b = if b = 0 then a else a % b := by
  unfold valRemN
  split
  · rfl
  · exact BitVec.umod_def.symm

/-- The sign rule of DIV.s is division toward zero. -/
theorem sign_mul_natAbs_div (a b : Int) :
    (if (a < 0) = (b < 0) then 1 else -1) * ((a.natAbs / b.natAbs : Nat) : Int) = a.tdiv b := by
  have hpos (k : Nat) : ¬ (Int.ofNat k < 0) := Int.not_lt.mpr (Int.natCast_nonneg k)
  have hneg (k : Nat) : Int.negSucc k < 0 := Int.negSucc_lt_zero k
  cases a with
  | ofNat m =>
    cases b with
    | ofNat n =>
      rw [if_pos (propext ⟨fun h => absurd h (hpos m), fun h => absurd h (hpos n)⟩), Int.one_mul]
      rfl
    | negSucc n =>
      rw [if_neg fun e => hpos m (e.mpr (hneg n)), Int.neg_mul, Int.one_mul]
      rfl
  | negSucc m =>
    cases b with
    | ofNat n =>
      rw [if_neg fun e => hpos n (e.mp (hneg m)), Int.neg_mul, Int.one_mul]
      rfl
    | negSucc n =>
      rw [if_pos (propext ⟨fun _ => hneg n, fun _ => hneg m⟩), Int.one_mul]
      rfl

/-- The quotient of DIV.s, but for a divisor 0 and the one quotient that 64 bits do not hold. -/
theorem quoS_eq_tdiv {a b : Word} (hb : b ≠ 0) (h : ¬ (a.toInt = -(2 ^ 63) ∧ b.toInt = -1)) : quoS a b = a.toInt.tdiv b.toInt := by
  rw [quoS, if_neg hb, if_neg h, sign_mul_natAbs_div]

theorem valDivS_eq (a b : Word) : valDivS a b = if b = 0 then -1 else a.sdiv b := by
  rw [valDivS]
  by_cases hb : b = 0
  · rw [quoS, if_pos hb, if_pos hb]
    rfl
  · apply BitVec.eq_of_toInt_eq
    rw [if_neg hb, BitVec.toInt_sdiv, wordI, BitVec.toInt_ofInt]
    by_cases h : a.toInt = -(2 ^ 63) ∧ b.toInt = -1
    · rw [quoS, if_neg hb, if_pos h, h.1, h.2]
      decide
    · rw [quoS_eq_tdiv hb h]

theorem valRemS_eq (a b : Word) : valRemS a b = if b = 0 then a else a.srem b := by
  rw [valRemS]
  by_cases hb : b = 0
  · rw [if_pos hb, if_pos hb]
  · apply BitVec.eq_of_toInt_eq
    rw [if_neg hb, if_neg hb, BitVec.toInt_srem]
    by_cases h : a.toInt = -(2 ^ 63) ∧ b.toInt = -1
    · rw [if_pos h, h.1, h.2]
      decide
    · rw [if_neg h, quoS_eq_tdiv hb h, ← Int.tmod_def, ← BitVec.toInt_srem, wordI, BitVec.ofInt_toInt]

/-- Settles O10: each instruction is its form with the value that R57, R58 or R60 gives. -/
theorem scalar_results : Obligations.Scalar_results := by
  unfold Obligations.Scalar_results
  refine ⟨fun o s r => ?short, fun o s r => ?compare, fun o s r => ?long⟩
  case short =>
    exact ⟨formRR_writes (· + ·) r rfl, formRR_writes (· - ·) r rfl, formRR_writes (· &&& ·) r rfl, formRR_writes (· ||| ·) r rfl,
      formRR_writes (· ^^^ ·) r rfl, formRR_writes (fun a b => a &&& ~~~b) r rfl, formRR_writes valShl r (valShl_eq _ _),
      formRR_writes valShr r (valShr_eq _ _), formRR_writes valSra r (valSra_eq _ _), formRR_writes valRol r (valRol_eq _ _),
      formRR_writes valMinS r rfl, formRR_writes valMaxS r rfl, formRR_writes valMinN r rfl, formRR_writes valMaxN r rfl⟩
  case compare =>
    exact ⟨formRR_writes (fun a b => oneIf (a == b)) r (oneIf_eq_ite beq_iff_eq),
      formRR_writes (fun a b => oneIf (a != b)) r (oneIf_eq_ite bne_iff_ne),
      formRR_writes (fun a b => oneIf (a.slt b)) r (oneIf_eq_ite BitVec.slt_iff_toInt_lt),
      formRR_writes (fun a b => oneIf (!a.slt b)) r (oneIf_eq_ite (not_slt_iff _ _)),
      formRR_writes (fun a b => oneIf (a.ult b)) r (oneIf_eq_ite BitVec.ult_iff_toNat_lt),
      formRR_writes (fun a b => oneIf (!a.ult b)) r (oneIf_eq_ite (not_ult_iff _ _))⟩
  case long =>
    refine ⟨formRRLong_issues (· * ·) r _ _ rfl, formRRLong_issues valMulhS r _ _ (valMulhS_eq _ _),
      formRRLong_issues valMulhN r _ _ (valMulhN_eq _ _), formRRLong_issues valDivS r _ _ (valDivS_eq _ _),
      formRRLong_issues valDivN r _ _ (valDivN_eq _ _), formRRLong_issues valRemS r _ _ (valRemS_eq _ _),
      formRRLong_issues valRemN r _ _ (valRemN_eq _ _),
      fun v lat w => ⟨State.longResult_ops s .., State.longResult_agenda s .., fun hs hd => ?pend⟩⟩
    rw [State.ctx_longResult hs, Ctx.advance_pend]
    exact Ctx.mem_setPend _ (gr_ne_g0 hd)

end Sys2Proof.Machine

/-!
PROOF. The immediate forms of R61 and the two-word forms of R62.
-/
namespace Sys2Proof.Machine

open Sys2Proof

/-- CMPI.lt compares with the value of its immediate, which sign extension keeps (R61). -/
theorem slt_signExtend_iff (a : Word) (i : BitVec 13) : a.slt (i.signExtend 64) = true ↔ a.toInt < i.toInt := by
  rw [BitVec.slt_iff_toInt_lt, BitVec.toInt_signExtend_of_le (by decide)]

/-- LIH: the immediate above the low half of g[A] (R62). -/
theorem lih_value (i : BitVec 32) (a : Word) :
    (i.zeroExtend 64 <<< 32) ||| (a.truncate 32).zeroExtend 64 = i ++ a.extractLsb' 0 32 := by
  apply BitVec.eq_of_getLsbD_eq
  intro k hk
  rw [BitVec.getLsbD_append]
  by_cases h : k < 32
  · simp [h, hk]
  · simp [h, hk]

/-- MULI is long (R61). -/
theorem execMuli_issues {o : RI} {s : State} (r : s.Ready o.s [gr o.d, gr o.a]) :
    execMuli o s = .next (s.longResult s.cur (firstWord (.muli o)) (gr o.d)
      ((s.now.getG o.a.toNat * BitVec.ofInt 64 o.i.toInt).zeroExtend 128) 4) := by
  unfold execMuli
  exact State.issue_ok r rfl rfl

/-- Settles O12: each instruction is its form with the value that R61 or R62 gives. -/
theorem immediate_results : Obligations.Immediate_results := by
  unfold Obligations.Immediate_results
  refine ⟨⟨fun o s r => ?imm, fun o s r => ?shift⟩, fun o s r => ?load, fun o s r => ?lih⟩
  case imm =>
    exact ⟨formRI_writes (fun a => a + o.i.signExtend 64) r rfl, formRI_writes (fun a => a &&& o.i.signExtend 64) r rfl,
      formRI_writes (fun a => a ||| o.i.zeroExtend 64) r (by rw [BitVec.ofNat_toNat]),
      formRI_writes (fun a => a ^^^ o.i.zeroExtend 64) r (by rw [BitVec.ofNat_toNat]),
      formRI_writes (fun a => oneIf (a.slt (o.i.signExtend 64))) r (oneIf_eq_ite (slt_signExtend_iff _ _)),
      formRI_writes (fun a => oneIf (a == o.i.signExtend 64)) r (oneIf_eq_ite beq_iff_eq), execMuli_issues r⟩
  case shift =>
    exact ⟨formRI_writes (fun a => a <<< o.i.toNat) r rfl, formRI_writes (fun a => a >>> o.i.toNat) r rfl,
      formRI_writes (fun a => a.sshiftRight o.i.toNat) r rfl⟩
  case load =>
    exact ⟨formL_sets (fun x => x.setG o.d.toNat (o.i.signExtend 64)) r rfl,
      formL_sets (fun x => x.setG o.d.toNat (x.pc + o.i.signExtend 64)) r rfl⟩
  case lih =>
    exact formL_sets
      (fun x => x.setG o.d.toNat ((o.i.zeroExtend 64 <<< 32) ||| ((x.getG o.a.toNat).truncate 32).zeroExtend 64)) r
      (congrArg (s.now.setG o.d.toNat) (lih_value _ _))

end Sys2Proof.Machine

/-!
PROOF. References to cores (R22, R24, R41) as numbers, and XY and XYADD on them (R63, R64).
-/
namespace Sys2Proof.Machine

open Sys2Proof

/-! ## Fields of a reference -/

/-- Seven bits sign-extended are the signed number that they write. -/
theorem sextN_seven (v : BitVec 7) : sextN v.toNat 7 = v.toInt := by
  have h := v.isLt
  rw [BitVec.toInt_eq_toNat_cond, sextN]
  split <;> split <;> omega

theorem nbits_column (f : BitVec 15) : nbits f.toNat 13 7 = (f.extractLsb' 7 7).toNat := by
  rw [nbits, BitVec.extractLsb'_toNat, Nat.shiftRight_eq_div_pow]

theorem nbits_row (f : BitVec 15) : nbits f.toNat 6 0 = (f.extractLsb' 0 7).toNat := by
  rw [nbits, BitVec.extractLsb'_toNat, Nat.shiftRight_eq_div_pow]

theorem xOf_coreAt {x : Nat} (y : Nat) (h : x ≤ 47) : xOf (coreAt x y) = x := by
  simp only [xOf, coreAt]
  omega

theorem yOf_coreAt {x : Nat} (y : Nat) (h : x ≤ 47) : yOf (coreAt x y) = y := by
  simp only [yOf, coreAt]
  omega

theorem coreAddr_coreAt {x : Nat} (y off : Nat) (h : x ≤ 47) :
    coreAddr (coreAt x y) off = BitVec.ofNat 64 (2 ^ 61 + x * 2 ^ 53 + y * 2 ^ 46 + off) := by
  rw [coreAddr, xOf_coreAt y h, yOf_coreAt y h, word]

theorem coordField_coreAt {x : Nat} (y : Nat) (h : x ≤ 47) : coordField (coreAt x y) = 2 ^ 14 + x * 128 + y := by
  have hx := xOf_coreAt y h
  have hy := yOf_coreAt y h
  unfold coordField
  omega

/-! ## XY (R63) -/

/-- One coordinate of the core that a coordinate field names: the number itself, or an offset from the coordinate of the core that asks (R41). -/
def fieldCoord (absolute : Bool) (own : Int) (v : BitVec 7) : Int := if absolute then v.toNat else own + v.toInt

/-- A coordinate field names the core at its two coordinates when they lie in the mesh, and none otherwise (R41). -/
theorem resolveField_eq (core : Nat) (f : BitVec 15) :
    let x := fieldCoord (f.getLsbD 14) (core % 48) (f.extractLsb' 7 7)
    let y := fieldCoord (f.getLsbD 14) (core / 48) (f.extractLsb' 0 7)
    resolveField core f = if 0 ≤ x ∧ x ≤ 47 ∧ 0 ≤ y ∧ y ≤ 63 then some (x.toNat, y.toNat) else none := by
  simp only [resolveField, nbits_column, nbits_row, sextN_seven, xOf, yOf, fieldCoord, Int.natCast_emod, Int.natCast_ediv]
  rfl

theorem execXy_inside {o : LXY} {s : State} {x y : Nat} (r : s.Ready o.s [gr o.d, gr o.a])
    (h : resolveField s.cur.core o.f = some (x, y)) (hx : x ≤ 47) :
    execXy o s = .next (s.setCtx s.cur ((s.now.setG o.d.toNat
      (BitVec.ofNat 64 (2 ^ 61 + x * 2 ^ 53 + y * 2 ^ 46 + (s.now.getG o.a.toNat).toNat % 2 ^ 20))).advance 2)) := by
  have hlow : bits (s.now.getG o.a.toNat) 19 0 = (s.now.getG o.a.toNat).toNat % 2 ^ 20 := by
    rw [bits, nbits, Nat.pow_zero, Nat.div_one]
  rw [← hlow, ← coreAddr_coreAt y _ hx]
  unfold execXy
  refine State.issue_ok r rfl ?_
  rw [h]
  rfl

theorem execXy_outside {o : LXY} {s : State} (r : s.Ready o.s [gr o.d, gr o.a]) (h : resolveField s.cur.core o.f = none) :
    execXy o s = .next (s.raise s.cur (exact cMesh (o.f.zeroExtend 64) 0)) := by
  unfold execXy
  refine State.issue_trap r rfl ?_
  rw [h]

/-! ## XYADD (R64) -/

/-- A CORE address of a pool (R22): the first form of reference. -/
abbrev IsCoreRef (a : Word) : Prop := bits a 63 60 = 2 ∧ bits a 45 20 = 0

/-- An absolute coordinate field (R24): the second form. -/
abbrev IsFieldRef (a : Word) : Prop := bits a 63 15 = 0 ∧ bits a 14 14 = 1

theorem not_isCoreRef_of_isFieldRef {a : Word} (h : IsFieldRef a) : ¬ IsCoreRef a := by
  unfold IsFieldRef at h
  unfold IsCoreRef
  simp only [bits, nbits] at *
  omega

/-- Every CORE address of a pool is a column, a row and an offset. -/
theorem IsCoreRef.eq_word {a : Word} (h : IsCoreRef a) :
    ∃ x y off, x < 128 ∧ y < 128 ∧ off < 2 ^ 20 ∧ a = word (2 ^ 61 + x * 2 ^ 53 + y * 2 ^ 46 + off) := by
  obtain ⟨htop, hmid⟩ := h
  refine ⟨bits a 59 53, bits a 52 46, bits a 19 0, Nat.mod_lt _ (by decide), Nat.mod_lt _ (by decide), Nat.mod_lt _ (by decide), ?_⟩
  apply BitVec.eq_of_toNat_eq
  simp only [bits, nbits, word, BitVec.toNat_ofNat] at *
  omega

/-- Every absolute coordinate field is a column and a row. -/
theorem IsFieldRef.eq_word {a : Word} (h : IsFieldRef a) : ∃ x y, x < 128 ∧ y < 128 ∧ a = 2 ^ 14 + word (x * 128 + y) := by
  obtain ⟨htop, hform⟩ := h
  refine ⟨bits a 13 7, bits a 6 0, Nat.mod_lt _ (by decide), Nat.mod_lt _ (by decide), ?_⟩
  have e : (2 ^ 14 : Word) = word (2 ^ 14) := by decide
  apply BitVec.eq_of_toNat_eq
  rw [e]
  simp only [bits, nbits, word, BitVec.toNat_add, BitVec.toNat_ofNat] at *
  omega

/-- The column of a reference, in the place that its form gives. -/
def refX (a : Word) : Nat := if IsCoreRef a then bits a 59 53 else bits a 13 7

/-- The row of a reference. -/
def refY (a : Word) : Nat := if IsCoreRef a then bits a 52 46 else bits a 6 0

/-- The reference to another core in the same form. -/
def movedRef (a : Word) (u v : Nat) : Word :=
  if IsCoreRef a then setBits (setBits a 59 53 u) 52 46 v else word (coordField (coreAt u v))

/-- A word refers to the core at (`x`, `y`), in one of the two forms, in which `put` writes the reference to another core of the mesh. -/
structure RefAt (a : Word) (x y : Nat) (put : Nat → Nat → Word) : Prop where
  form : IsCoreRef a ∨ IsFieldRef a
  column : refX a = x
  row : refY a = y
  put : ∀ u v, u ≤ 47 → v ≤ 63 → movedRef a u v = put u v

/-- The coordinate field of a core. -/
def fieldWord (u v : Nat) : Word := BitVec.ofNat 64 (2 ^ 14 + u * 128 + v)

theorem toNat_fieldWord {u v : Nat} (hu : u < 128) (hv : v < 128) : (fieldWord u v).toNat = 2 ^ 14 + u * 128 + v := by
  rw [fieldWord, BitVec.toNat_ofNat]
  omega

/-- The CORE address of an offset in the pool of a core. -/
def coreWord (off u v : Nat) : Word := BitVec.ofNat 64 (2 ^ 61 + u * 2 ^ 53 + v * 2 ^ 46 + off)

theorem toNat_coreWord {off u v : Nat} (ho : off < 2 ^ 20) (hu : u < 128) (hv : v < 128) :
    (coreWord off u v).toNat = 2 ^ 61 + u * 2 ^ 53 + v * 2 ^ 46 + off := by
  rw [coreWord, BitVec.toNat_ofNat]
  omega

theorem refAt_field {a : Word} {x y : Nat} (hx : x < 128) (hy : y < 128) (ha : a = fieldWord x y) : RefAt a x y fieldWord := by
  subst ha
  have hn := toNat_fieldWord hx hy
  have hf : IsFieldRef (fieldWord x y) := by
    simp only [IsFieldRef, bits, nbits, hn]
    omega
  have hc := not_isCoreRef_of_isFieldRef hf
  refine ⟨.inr hf, ?_, ?_, fun u v hu _ => ?_⟩
  · rw [refX, if_neg hc, bits, nbits, hn]
    omega
  · rw [refY, if_neg hc, bits, nbits, hn]
    omega
  · rw [movedRef, if_neg hc, coordField_coreAt v hu, word, fieldWord]

/-- A new column in a CORE address. -/
theorem setBits_column {off x y : Nat} (u : Nat) (ho : off < 2 ^ 20) (hx : x < 128) (hy : y < 128) (hu : u < 128) :
    setBits (coreWord off x y) 59 53 u = coreWord off u y := by
  rw [setBits, word, nbits, toNat_coreWord ho hx hy, coreWord]
  congr 1
  omega

/-- A new row in a CORE address. -/
theorem setBits_row {off x y : Nat} (v : Nat) (ho : off < 2 ^ 20) (hx : x < 128) (hy : y < 128) (hv : v < 128) :
    setBits (coreWord off x y) 52 46 v = coreWord off x v := by
  rw [setBits, word, nbits, toNat_coreWord ho hx hy, coreWord]
  congr 1
  omega

theorem refAt_core {a : Word} {off x y : Nat} (ho : off < 2 ^ 20) (hx : x < 128) (hy : y < 128) (ha : a = coreWord off x y) :
    RefAt a x y (coreWord off) := by
  subst ha
  have hn := toNat_coreWord ho hx hy
  have hc : IsCoreRef (coreWord off x y) := by
    simp only [IsCoreRef, bits, nbits, hn]
    omega
  refine ⟨.inl hc, ?_, ?_, fun u v hu hv => ?_⟩
  · rw [refX, if_pos hc, bits, nbits, hn]
    omega
  · rw [refY, if_pos hc, bits, nbits, hn]
    omega
  · have hu' : u < 128 := by omega
    rw [movedRef, if_pos hc, setBits_column u ho hx hy hu', setBits_row v ho hu' hy (by omega)]

theorem RefAt.notNeither {a : Word} {x y : Nat} {put : Nat → Nat → Word} (h : RefAt a x y put) : ¬ (¬ IsCoreRef a ∧ ¬ IsFieldRef a) :=
  fun hn => h.form.elim hn.1 hn.2

/-- The signed offsets that XYADD takes from its second operand. -/
theorem offsets_of_low {b : Word} {dx dy : BitVec 7} (h : b.toNat % 2 ^ 14 = dx.toNat * 128 + dy.toNat) :
    sextN (bits b 13 7) 7 = dx.toInt ∧ sextN (bits b 6 0) 7 = dy.toInt := by
  have hx := dx.isLt
  have hy := dy.isLt
  have hdx : bits b 13 7 = dx.toNat := by
    simp only [bits, nbits]
    omega
  have hdy : bits b 6 0 = dy.toNat := by
    simp only [bits, nbits]
    omega
  rw [hdx, hdy]
  exact ⟨sextN_seven dx, sextN_seven dy⟩

/-- The place that XYADD computes is a core of the mesh and of the job's rectangle (R64). -/
def State.holdsPlace (s : State) (x y : Int) : Prop :=
  0 ≤ x ∧ x ≤ 47 ∧ 0 ≤ y ∧ y ≤ 63 ∧ s.inRect (s.jobOf s.cur.core) (coreAt x.toNat y.toNat) = true

/-- Such a place has a column and a row of the mesh. -/
theorem State.holdsPlace.le {s : State} {x y : Int} (h : s.holdsPlace x y) : x.toNat ≤ 47 ∧ y.toNat ≤ 63 := by
  obtain ⟨-, hx, -, hy, -⟩ := h
  exact ⟨Int.toNat_le.mpr hx, Int.toNat_le.mpr hy⟩

section
variable {o : R3} {s : State} (r : s.Ready o.s [gr o.d, gr o.a, gr o.b])
include r

theorem execXyadd_neither (hc : ¬ IsCoreRef (s.now.getG o.a.toNat)) (hf : ¬ IsFieldRef (s.now.getG o.a.toNat)) :
    execXyadd o s = .next (s.raise s.cur (exact cBounds (s.now.getG o.a.toNat) 0)) := by
  unfold execXyadd
  exact State.issue_trap r rfl (if_pos ⟨hc, hf⟩)

variable {x y : Nat} {put : Nat → Nat → Word} {dx dy : BitVec 7} (ha : RefAt (s.now.getG o.a.toNat) x y put)
  (hb : (s.now.getG o.b.toNat).toNat % 2 ^ 14 = dx.toNat * 128 + dy.toNat)
include ha hb

/-- A reference moves within the mesh and the rectangle, and keeps its form. -/
theorem execXyadd_inside (h : s.holdsPlace (x + dx.toInt) (y + dy.toInt)) :
    execXyadd o s = .next (s.after fun z => z.setG o.d.toNat (put (x + dx.toInt).toNat (y + dy.toInt).toNat)) := by
  obtain ⟨hdx, hdy⟩ := offsets_of_low hb
  rw [← ha.put _ _ h.le.1 h.le.2]
  rw [← hdx, ← hdy, ← ha.column, ← ha.row] at h ⊢
  unfold execXyadd
  exact State.issue_ok r rfl ((if_neg ha.notNeither).trans (if_pos h))

/-- A reference does not leave them. -/
theorem execXyadd_outside (h : ¬ s.holdsPlace (x + dx.toInt) (y + dy.toInt)) :
    execXyadd o s = .next (s.raise s.cur (exact cMesh (s.now.getG o.a.toNat)
      (BitVec.ofNat 64 (((x + dx.toInt) % 128).toNat * 128 + ((y + dy.toInt) % 128).toNat)))) := by
  obtain ⟨hdx, hdy⟩ := offsets_of_low hb
  rw [← hdx, ← hdy, ← ha.column, ← ha.row] at h ⊢
  unfold execXyadd
  exact State.issue_trap r rfl ((if_neg ha.notNeither).trans (if_neg h))

end

/-- Settles O13: XY by the core that its field names, XYADD by the two forms of a reference. -/
theorem coordinate_results : Obligations.Coordinate_results := by
  unfold Obligations.Coordinate_results
  refine ⟨fun o s r => ⟨?xyInside, ?xyOutside⟩, fun o s x y off dx dy r hx hy ho hb => ⟨?field, ?core, ?outside, ?neither, ?job0⟩⟩
  case xyInside =>
    intro hx hx' hy hy'
    exact execXy_inside r ((resolveField_eq _ _).trans (if_pos ⟨hx, hx', hy, hy'⟩)) (by omega)
  case xyOutside => exact fun h => execXy_outside r ((resolveField_eq _ _).trans (if_neg h))
  case field => exact fun ha h => execXyadd_inside (put := fieldWord) r (refAt_field hx hy ha) hb h
  case core => exact fun ha h => execXyadd_inside (put := coreWord off) r (refAt_core ho hx hy ha) hb h
  case outside =>
    rintro (ha | ha) h
    · exact execXyadd_outside r (refAt_field hx hy ha) hb h
    · exact execXyadd_outside r (refAt_core ho hx hy ha) hb h
  case neither =>
    intro h
    refine execXyadd_neither r (fun hc => ?_) (fun hf => ?_)
    · obtain ⟨x', y', off', hx', hy', ho', he⟩ := hc.eq_word
      exact (h x' y' off' hx' hy' ho').2 he
    · obtain ⟨x', y', hx', hy', he⟩ := hf.eq_word
      exact (h x' y' 0 hx' hy' (by decide)).1 he
  case job0 => exact fun c _ => rfl

end Sys2Proof.Machine

/-!
PROOF. LOOP (R70) and the loop step (R71).
-/
namespace Sys2Proof.Machine

open Sys2Proof

/-- The count of a LOOP fits in LOOPCNT when its bits 63 to 32 are 0 (R70). -/
theorem bits_high_eq_zero_iff (a : Word) : bits a 63 32 = 0 ↔ a.toNat < 2 ^ 32 := by
  simp only [bits, nbits]
  omega

/-- The loop step goes back: LOOPCNT falls by one (R71). -/
theorem Ctx.goOn_loops {x : Ctx} {n : Nat} (p : Word) (h0 : x.loopcnt ≠ 0) (h1 : x.loopcnt ≠ 1)
    (he : x.pc + BitVec.ofNat 64 (4 * (n - 1)) = x.loopend) :
    (x.goOn n p).pc = x.loopstart ∧ (x.goOn n p).loopcnt = x.loopcnt - 1 := by
  simp only [Ctx.goOn, word, he, h0, h1, ne_eq, not_false_eq_true, and_self, if_true, if_false]

/-- The loop step leaves the loop at its last iteration (R71). -/
theorem Ctx.goOn_leavesLoop {x : Ctx} {n : Nat} (p : Word) (h1 : x.loopcnt = 1)
    (he : x.pc + BitVec.ofNat 64 (4 * (n - 1)) = x.loopend) :
    (x.goOn n p).pc = x.loopend + 4 ∧ (x.goOn n p).loopcnt = 0 ∧ (x.goOn n p).loopbuf = [] := by
  simp [Ctx.goOn, word, h1, he]

/-- Outside a loop, and inside it before LOOPEND, an instruction goes where it says. -/
theorem Ctx.goOn_plain {x : Ctx} {n : Nat} (p : Word) (h : x.loopcnt = 0 ∨ x.pc + BitVec.ofNat 64 (4 * (n - 1)) ≠ x.loopend) :
    (x.goOn n p).pc = p ∧ (x.goOn n p).loopcnt = x.loopcnt := by
  rcases h with h0 | he
  · simp [Ctx.goOn, h0]
  · simp [Ctx.goOn, word, he]

section
variable {o : KAB} {s : State} (r : s.Ready o.s [gr o.a])
include r

/-- LOOP inside an active loop (R70). -/
theorem execLoop_active (h : s.now.loopcnt ≠ 0) :
    execLoop o s = .next (s.raise s.cur (exact cLoopForm ((firstWord (.loop o)).zeroExtend 64) 3)) := by
  unfold execLoop
  exact State.issue_trap r rfl (if_pos h)

/-- LOOP with a count of more than 32 bits (R70). -/
theorem execLoop_large (h : s.now.loopcnt = 0) (ha : 2 ^ 32 ≤ (s.now.getG o.a.toNat).toNat) :
    execLoop o s = .next (s.raise s.cur (exact cLoopForm (s.now.getG o.a.toNat) 2)) := by
  have hb : bits (s.now.getG o.a.toNat) 63 32 ≠ 0 := mt (bits_high_eq_zero_iff _).mp (Nat.not_lt.mpr ha)
  unfold execLoop
  exact State.issue_trap r rfl ((if_neg (not_not_intro h)).trans (if_pos hb))

/-- LOOP with a count of 0 goes past its body (R70). -/
theorem execLoop_zero (h : s.now.loopcnt = 0) (ha : s.now.getG o.a.toNat = 0) :
    execLoop o s = .next (s.setCtx s.cur
      { s.now with pc := s.now.pc + word (4 + 4 * (o.b.toNat + 1)), handlerFirst := false, resumed := false }) := by
  have hb : ¬ bits (s.now.getG o.a.toNat) 63 32 ≠ 0 := by
    rw [ha]
    decide
  unfold execLoop
  exact State.issue_ok r rfl ((if_neg (not_not_intro h)).trans ((if_neg hb).trans (if_pos ha)))

/-- LOOP with any other count of 32 bits begins the loop (R70). -/
theorem execLoop_begins (h : s.now.loopcnt = 0) (ha : s.now.getG o.a.toNat ≠ 0) (hl : (s.now.getG o.a.toNat).toNat < 2 ^ 32) :
    execLoop o s = .next (s.setCtx s.cur
      { s.now with loopcnt := (s.now.getG o.a.toNat).truncate 32, loopstart := s.now.pc + 4,
                   loopend := s.now.pc + word (4 * (o.b.toNat + 1)), loopbuf := [], pc := s.now.pc + 4, handlerFirst := false,
                   resumed := false }) := by
  have hb : ¬ bits (s.now.getG o.a.toNat) 63 32 ≠ 0 := not_not_intro ((bits_high_eq_zero_iff _).mpr hl)
  unfold execLoop
  exact State.issue_ok r rfl ((if_neg (not_not_intro h)).trans ((if_neg hb).trans (if_neg ha)))

end

/-- Settles O16: the four outcomes of LOOP, and the three of going on. -/
theorem loop_begins_and_steps : Obligations.Loop_begins_and_steps := by
  unfold Obligations.Loop_begins_and_steps
  refine ⟨fun o s r => ⟨execLoop_active r, execLoop_large r, fun h ha => ?skips, fun h ha hl => ?begins⟩,
    fun x n next => ⟨fun h0 he hm => ?back, Ctx.goOn_leavesLoop next, Ctx.goOn_plain next⟩⟩
  case skips =>
    have hpc : s.now.pc + word (4 + 4 * (o.b.toNat + 1)) = s.now.pc + 4 + BitVec.ofNat 64 (4 * (o.b.toNat + 1)) := by
      rw [word, BitVec.ofNat_add, ← BitVec.add_assoc]
      rfl
    exact ⟨_, execLoop_zero r h ha, h, hpc, rfl, rfl, rfl, rfl, rfl, rfl⟩
  case begins =>
    have hcnt : ((s.now.getG o.a.toNat).truncate 32).toNat = (s.now.getG o.a.toNat).toNat := by
      rw [BitVec.truncate_eq_setWidth, BitVec.toNat_setWidth, Nat.mod_eq_of_lt hl]
    exact ⟨_, execLoop_begins r h ha hl, hcnt, rfl, rfl, rfl, rfl, rfl, rfl, rfl, rfl⟩
  case back =>
    have h1 : x.loopcnt ≠ 1 := fun h => by
      rw [h] at hm
      exact absurd hm (by decide)
    obtain ⟨hpc, hcnt⟩ := Ctx.goOn_loops next h0 h1 he
    have hle : (1 : BitVec 32) ≤ x.loopcnt := Nat.le_of_lt hm
    exact ⟨hpc, by rw [hcnt, BitVec.toNat_sub_of_le hle]; rfl⟩

end Sys2Proof.Machine

/-!
PROOF. Lanes that round (R87, R102, R105): what `rounded` gives for each lane, and with it the float arithmetic and the functions on lanes.
-/
namespace Sys2Proof.Machine

open Sys2Proof

/-! ## The seed (R87) -/

theorem seedAfter_succ (n : Nat) (sd : BitVec 32) : seedAfter (n + 1) sd = seedStep (seedAfter n sd) := by
  induction n generalizing sd with
  | zero => rfl
  | succ n ih => exact ih (seedStep sd)

/-- The seed when the lanes below `k` have been rounded: under RSTO each active one has stepped it (R87). -/
def seedBefore (mode : Nat) (act : Nat → Bool) (sd : BitVec 32) (k : Nat) : BitVec 32 :=
  if mode = rmRSTO then seedAfter ((List.range k).filter act).length sd else sd

@[simp] theorem seedBefore_zero (mode : Nat) (act : Nat → Bool) (sd : BitVec 32) : seedBefore mode act sd 0 = sd := by
  unfold seedBefore
  split <;> rfl

theorem seedBefore_succ_active {act : Nat → Bool} {k : Nat} (h : act k = true) (mode : Nat) (sd : BitVec 32) :
    seedBefore mode act sd (k + 1) = seedFor mode (seedBefore mode act sd k) := by
  unfold seedBefore seedFor
  split
  · rw [List.range_succ, List.filter_append, List.length_append, List.filter_cons_of_pos h]
    exact seedAfter_succ _ sd
  · rfl

theorem seedBefore_succ_inactive {act : Nat → Bool} {k : Nat} (h : act k = false) (mode : Nat) (sd : BitVec 32) :
    seedBefore mode act sd (k + 1) = seedBefore mode act sd k := by
  unfold seedBefore
  rw [List.range_succ, List.filter_append, List.filter_cons_of_neg (ne_true_of_eq_false h), List.filter_nil, List.append_nil]

/-! ## Rounded lanes under a mask (R87, R95) -/

section
variable (mode : Nat) (act : Nat → Bool) (old : Nat → Nat) (f : Nat → Nat → Nat × BitVec 9)

/-- Lists of lanes are rounded one after the other. -/
theorem rounded_append (l l' : List Nat) (sd : BitVec 32) :
    rounded mode act old f (l ++ l') sd =
      let p := rounded mode act old f l sd
      let q := rounded mode act old f l' p.2.2
      (p.1 ++ q.1, p.2.1 ||| q.2.1, q.2.2) := by
  induction l generalizing sd with
  | nil => simp [rounded]
  | cons i is ih => cases h : act i <;> simp [rounded, h, ih, BitVec.or_assoc]

/-- What an active lane takes: its value for the seed after its own step, and its flags. -/
def roundedLane (sd : BitVec 32) (k : Nat) : Nat × BitVec 9 := f k (seedBefore mode act sd (k + 1)).toNat

/-- The lanes in ascending order: the value of each, the flags of the active ones, and the seed. -/
theorem rounded_range (sd : BitVec 32) (n : Nat) :
    ∃ fl, rounded mode act old f (List.range n) sd =
        ((List.range n).map (fun k => if act k then (roundedLane mode act f sd k).1 else old k), fl, seedBefore mode act sd n) ∧
      ∀ j, fl.getLsbD j = true ↔ ∃ k, k < n ∧ act k = true ∧ (roundedLane mode act f sd k).2.getLsbD j = true := by
  induction n with
  | zero => exact ⟨0, by simp [rounded], by simp⟩
  | succ n ih =>
    obtain ⟨fl, hr, hfl⟩ := ih
    rw [List.range_succ, rounded_append, hr, List.map_append]
    cases h : act n with
    | false =>
      refine ⟨fl, by simp [rounded, h, seedBefore_succ_inactive h], fun j => ?_⟩
      rw [hfl, Nat.exists_lt_succ_right, h]
      simp only [Bool.false_eq_true, false_and, or_false]
    | true =>
      have hs := seedBefore_succ_active h mode sd
      refine ⟨fl ||| (roundedLane mode act f sd n).2, by simp [rounded, h, roundedLane, hs], fun j => ?_⟩
      rw [BitVec.getLsbD_or, Bool.or_eq_true, hfl, Nat.exists_lt_succ_right, h]
      simp only [true_and]

end

/-- A vector of rounded lanes: what each lane takes, the flags, and the seed. -/
theorem vround_spec (t : ETy) (mode : Nat) (m : BitVec 16) (old : Vec) (sd : BitVec 32) (f : Nat → Nat → Nat × BitVec 9) :
    ∃ v fl, vround t mode m old sd f = (v, fl, seedBefore mode (mbit m) sd t.lanes) ∧
      (∀ k, k < t.lanes →
        lane t.bits v k = if mbit m k then (roundedLane mode (mbit m) f sd k).1 % 2 ^ t.bits else lane t.bits old k) ∧
      ∀ j, fl.getLsbD j = true ↔ ∃ k, k < t.lanes ∧ mbit m k = true ∧ (roundedLane mode (mbit m) f sd k).2.getLsbD j = true := by
  obtain ⟨fl, hr, hfl⟩ := rounded_range mode (mbit m) (lane t.bits old) f sd t.lanes
  refine ⟨_, fl, by rw [vround, hr], fun k hk => ?_, hfl⟩
  exact lane_vmap t m old (fun i => (roundedLane mode (mbit m) f sd i).1) k hk

/-! ## Long vector instructions -/

/-- With no check to stop it, a long vector instruction is issued with the result, the flags and the seed that it computes. -/
theorem formVLong_issues {sm : Bool} {regs : List Reg} {s : State} (r : s.Ready sm regs) (i : Instr) (dst : Reg) (lat : Nat)
    (f : Ctx → Vec × BitVec 9 × BitVec 32) :
    formVLong sm regs (firstWord i) s dst lat f = .next (s.longAfter i dst (f s.now).1 lat (f s.now).2.1 (f s.now).2.2) := by
  unfold formVLong
  exact State.issue_ok r rfl rfl

/-- The outcome of a long vector instruction whose active lanes round (R87, R95): `f` gives the value and the flags of a lane from the seed after
its step. -/
def State.RoundsLanes (s : State) (i : Instr) (dst : Reg) (lat : Nat) (t : ETy) (m : BitVec 16) (old : Vec)
    (f : Nat → Nat → Nat × BitVec 9) (out : Out) : Prop :=
  let res := roundedLane s.now.rm (mbit m) f s.now.rndseed
  ∃ v fl, out = .next (s.longAfter i dst v lat fl (seedBefore s.now.rm (mbit m) s.now.rndseed t.lanes)) ∧
    (∀ k, k < t.lanes → lane t.bits v k = if mbit m k then (res k).1 % 2 ^ t.bits else lane t.bits old k) ∧
    ∀ j, fl.getLsbD j = true ↔ ∃ k, k < t.lanes ∧ mbit m k = true ∧ (res k).2.getLsbD j = true

theorem formVLong_rounds {sm : Bool} {regs : List Reg} {s : State} (r : s.Ready sm regs) (i : Instr) (dst : Reg) (lat : Nat)
    {F : Ctx → Vec × BitVec 9 × BitVec 32} {t : ETy} {m : BitVec 16} {old : Vec} {f : Nat → Nat → Nat × BitVec 9}
    (hF : F s.now = vround t s.now.rm m old s.now.rndseed f) :
    s.RoundsLanes i dst lat t m old f (formVLong sm regs (firstWord i) s dst lat F) := by
  obtain ⟨v, fl, hv, hlane, hfl⟩ := vround_spec t s.now.rm m old s.now.rndseed f
  exact ⟨v, fl, by rw [formVLong_issues r, hF, hv], hlane, hfl⟩

/-- Float arithmetic on the lanes of two sources and the old destination. -/
theorem formV3Round_rounds {o : V3} {s : State} (r : s.Ready o.s [vr o.d, vr o.a, vr o.b]) (i : Instr)
    (f : ETy → Nat → Nat → Nat → Nat → Nat → Nat × BitVec 9) :
    s.RoundsLanes i (vr o.d) 4 o.t (s.now.getM o.m.toNat) (s.now.getV o.d.toNat)
      (fun k q => f o.t s.now.rm q (lane o.t.bits (s.now.getV o.a.toNat) k) (lane o.t.bits (s.now.getV o.b.toNat) k)
        (lane o.t.bits (s.now.getV o.d.toNat) k))
      (formV3Round o (firstWord i) s f) :=
  formVLong_rounds r i (vr o.d) 4 rfl

/-- VQNT: its second source is not a vector of lanes (R107). -/
theorem execVqnt_rounds {o : V3} {s : State} (r : s.Ready o.s [vr o.d, vr o.a, vr o.b]) :
    s.RoundsLanes (.vqnt o) (vr o.d) 4 o.t (s.now.getM o.m.toNat) (s.now.getV o.d.toNat)
      (fun k q => quantise o.t s.now.rm q (s.now.getV o.b.toNat).toNat (lane o.t.bits (s.now.getV o.a.toNat) k)) (execVqnt o s) :=
  formVLong_rounds r (.vqnt o) (vr o.d) 4 rfl

/-- The functions of R105 on lanes. -/
theorem formVFun_rounds {o : V2} {s : State} (r : s.Ready o.s [vr o.d, vr o.a]) (i : Instr) (g : FFun) :
    s.RoundsLanes i (vr o.d) 12 o.t (s.now.getM o.m.toNat) (s.now.getV o.d.toNat)
      (fun k q => fFun g o.t s.now.rm q (lane o.t.bits (s.now.getV o.a.toNat) k)) (formVFun o (firstWord i) s g) :=
  formVLong_rounds r i (vr o.d) 12 rfl

/-- Settles O20: each instruction is a long form whose active lanes round, and differs from the others in its lane function only. -/
theorem vector_float_lanes : Obligations.Vector_float_lanes := by
  unfold Obligations.Vector_float_lanes
  refine ⟨fun o s r => ?arithmetic, fun o s r => ?functions⟩
  case arithmetic =>
    exact ⟨formV3Round_rounds r (.vfadd o) fun t m q a b _ => fAdd t m q a b,
      formV3Round_rounds r (.vfsub o) fun t m q a b _ => fSub t m q a b,
      formV3Round_rounds r (.vfmul o) fun t m q a b _ => fMul t m q a b,
      formV3Round_rounds r (.vfma o) fFma, formV3Round_rounds r (.vfms o) fFms, execVqnt_rounds r⟩
  case functions =>
    exact ⟨formVFun_rounds r (.vrcp o) .rcp, formVFun_rounds r (.vrsq o) .rsq, formVFun_rounds r (.vsqrt o) .sqrt,
      formVFun_rounds r (.vexp2 o) .exp2, formVFun_rounds r (.vlog2 o) .log2⟩

end Sys2Proof.Machine

/-!
PROOF. The rounding function (R86, R90): the encodings between which an exact value lies, and which of them is delivered.
-/
namespace Sys2Proof.Machine

open Sys2Proof

/-! ## Magnitudes of encodings (R79) -/

/-- The exponent of the unit of the subnormal numbers. -/
def leastExp (t : ETy) : Int := 1 - (t.bias : Int) - t.fracBits

/-- The magnitude of encoding `k`, of a format with `F` fraction bits, in units of the subnormal numbers. -/
def magnitude (F k : Nat) : Nat := if k < 2 ^ F then k else (2 ^ F + k % 2 ^ F) * 2 ^ (k / 2 ^ F - 1)

/-- A significand `q` with its binade `j`, the subnormal numbers and the least normal ones in binade 0. -/
theorem magnitude_binade {F j q : Nat} (hq : q < 2 ^ (F + 1)) (hj : j = 0 ∨ 2 ^ F ≤ q) : magnitude F (j * 2 ^ F + q) = q * 2 ^ j := by
  have hF := Nat.two_pow_pos F
  rw [Nat.pow_succ] at hq
  unfold magnitude
  by_cases hs : q < 2 ^ F
  · have h0 : j = 0 := hj.resolve_right (Nat.not_le.mpr hs)
    subst h0
    simp [hs]
  · obtain ⟨f, rfl⟩ := Nat.exists_eq_add_of_le (Nat.not_lt.mp hs)
    have hk : j * 2 ^ F + (2 ^ F + f) = f + 2 ^ F * (j + 1) := by
      rw [Nat.mul_succ, Nat.mul_comm]
      omega
    have hf : f < 2 ^ F := by omega
    rw [if_neg (by omega), hk, Nat.add_mul_mod_self_left, Nat.mod_eq_of_lt hf, Nat.add_mul_div_left _ _ hF, Nat.div_eq_of_lt hf,
      Nat.zero_add, Nat.add_sub_cancel]

/-- The next encoding is the next significand, in the next binade where it does not fit. -/
theorem magnitude_binade_succ {F j q : Nat} (hq : q < 2 ^ (F + 1)) (hj : j = 0 ∨ 2 ^ F ≤ q) :
    magnitude F (j * 2 ^ F + q + 1) = (q + 1) * 2 ^ j := by
  by_cases hc : q + 1 < 2 ^ (F + 1)
  · exact magnitude_binade hc (hj.imp_right Nat.le_succ_of_le)
  · have hq' : q + 1 = 2 ^ (F + 1) := by omega
    have hk : j * 2 ^ F + q + 1 = (j + 1) * 2 ^ F + 2 ^ F := by
      rw [Nat.add_assoc, hq', Nat.pow_succ, Nat.succ_mul]
      omega
    rw [hk, magnitude_binade (Nat.pow_lt_pow_succ (by decide)) (.inr (Nat.le_refl _)), hq', ← Nat.pow_add, ← Nat.pow_add,
      Nat.add_right_comm, Nat.add_assoc]

/-! ## The value cut at its last place -/

/-- The exponent of the last place that a value is rounded to. -/
def lastPlace (t : ETy) (m : Nat) (e : Int) : Int := max ((log2 m : Int) + e - t.fracBits) (leastExp t)

/-- What m · 2^e holds in units of 2^u. -/
def cutQuot (u : Int) (m : Nat) (e : Int) : Nat := if u ≤ e then m * 2 ^ (e - u).toNat else m / 2 ^ (u - e).toNat

/-- What is left below them, in parts of which a unit has 2^(cutShift u e). -/
def cutRem (u : Int) (m : Nat) (e : Int) : Nat := if u ≤ e then 0 else m % 2 ^ (u - e).toNat

/-- The bits of a unit below its last place. -/
def cutShift (u e : Int) : Nat := if u ≤ e then 0 else (u - e).toNat

theorem cutRem_lt (u : Int) (m : Nat) (e : Int) : cutRem u m e < 2 ^ cutShift u e := by
  unfold cutRem cutShift
  split
  · exact Nat.two_pow_pos 0
  · exact Nat.mod_lt _ (Nat.two_pow_pos _)

/-- The units and the parts are the value: in units of the lesser of 2^e and 2^l, where a part is some `c` of them. -/
theorem cut_scaled {u l : Int} (m : Nat) (e : Int) (h : l ≤ u) :
    ∃ c, 0 < c ∧ 2 ^ (u - l).toNat * 2 ^ (l - e).toNat = 2 ^ cutShift u e * c ∧
      m * 2 ^ (e - l).toNat = (cutQuot u m e * 2 ^ cutShift u e + cutRem u m e) * c := by
  unfold cutQuot cutRem cutShift
  by_cases hu : u ≤ e
  · have hl : (l - e).toNat = 0 := by omega
    have he : (e - l).toNat = (e - u).toNat + (u - l).toNat := by omega
    refine ⟨2 ^ (u - l).toNat, Nat.two_pow_pos _, ?_, ?_⟩
    · rw [if_pos hu, hl, Nat.pow_zero, Nat.mul_one, Nat.one_mul]
    · rw [if_pos hu, if_pos hu, if_pos hu, he, Nat.pow_add, Nat.pow_zero, Nat.mul_one, Nat.add_zero, Nat.mul_assoc]
  · have he : (u - l).toNat + (l - e).toNat = (u - e).toNat + (e - l).toNat := by omega
    refine ⟨2 ^ (e - l).toNat, Nat.two_pow_pos _, ?_, ?_⟩
    · rw [if_neg hu, ← Nat.pow_add, he, Nat.pow_add]
    · rw [if_neg hu, if_neg hu, if_neg hu, Nat.div_add_mod']

/-- The units are a significand of the format. -/
theorem cutQuot_lt (t : ETy) (m : Nat) (e : Int) : cutQuot (lastPlace t m e) m e < 2 ^ (t.fracBits + 1) := by
  have hm : m < 2 ^ (log2 m + 1) := Nat.lt_log2_self
  have hu : (log2 m : Int) + e - t.fracBits ≤ lastPlace t m e := Int.le_max_left _ _
  unfold cutQuot
  split
  · calc m * 2 ^ (e - lastPlace t m e).toNat
        < 2 ^ (log2 m + 1) * 2 ^ (e - lastPlace t m e).toNat := Nat.mul_lt_mul_of_pos_right hm (Nat.two_pow_pos _)
      _ = 2 ^ (log2 m + 1 + (e - lastPlace t m e).toNat) := (Nat.pow_add ..).symm
      _ ≤ 2 ^ (t.fracBits + 1) := Nat.pow_le_pow_right (by decide) (by omega)
  · rw [Nat.div_lt_iff_lt_mul (Nat.two_pow_pos _), ← Nat.pow_add]
    exact Nat.lt_of_lt_of_le hm (Nat.pow_le_pow_right (by decide) (by omega))

/-- Above the least binade they are a normal one. -/
theorem le_cutQuot {t : ETy} {m : Nat} {e : Int} (hm : m ≠ 0) (h : leastExp t < lastPlace t m e) :
    2 ^ t.fracBits ≤ cutQuot (lastPlace t m e) m e := by
  have hm' : 2 ^ log2 m ≤ m := Nat.log2_self_le hm
  have hu : lastPlace t m e = (log2 m : Int) + e - t.fracBits := by
    unfold lastPlace at h ⊢
    omega
  unfold cutQuot
  split
  · calc 2 ^ t.fracBits = 2 ^ log2 m * 2 ^ (e - lastPlace t m e).toNat := by
          rw [← Nat.pow_add]
          congr 1
          omega
      _ ≤ m * 2 ^ (e - lastPlace t m e).toNat := Nat.mul_le_mul_right _ hm'
  · rw [Nat.le_div_iff_mul_le (Nat.two_pow_pos _), ← Nat.pow_add]
    refine Nat.le_trans (Nat.pow_le_pow_right (by decide) ?_) hm'
    omega

/-! ## The choice of a mode (R86) -/

/-- Whether a mode chooses encoding k + 1 for a value `part` above k, where the two are `ulp` apart. -/
def choosesNext (mode r : Nat) (neg : Bool) (k ulp part : Nat) : Bool :=
  (mode == 0 && (decide (ulp < 2 * part) || (decide (2 * part = ulp) && k % 2 == 1))) || (mode == 2 && neg && part != 0) ||
    (mode == 3 && !neg && part != 0) || (mode == 4 && decide (ulp * 2 ^ 32 ≤ part * 2 ^ 32 + r * ulp))

/-- The choice is the model's, whatever the unit in which the spacing and the part are counted. -/
theorem roundsUp_eq_choosesNext {mode r q rem sh k c : Nat} (neg : Bool) (hmode : mode < 5) (hc : 0 < c) (hk : k % 2 = q % 2) :
    roundsUp mode r neg q rem sh false = choosesNext mode r neg k (2 ^ sh * c) (rem * c) := by
  have hnear : 2 ^ sh * c < 2 * (rem * c) ↔ 2 ^ sh < 2 * rem := by
    rw [← Nat.mul_assoc]
    exact Nat.mul_lt_mul_right hc
  have htie : 2 * (rem * c) = 2 ^ sh * c ↔ 2 * rem = 2 ^ sh := by
    rw [← Nat.mul_assoc]
    exact Nat.mul_left_inj (Nat.ne_of_gt hc)
  have hpart : (rem * c != 0) = (rem != 0) := by
    rw [Bool.eq_iff_iff, bne_iff_ne, bne_iff_ne, Nat.mul_ne_zero_iff]
    exact and_iff_left (Nat.ne_of_gt hc)
  have hfill : 2 ^ sh * c * 2 ^ 32 ≤ rem * c * 2 ^ 32 + r * (2 ^ sh * c) ↔ 2 ^ 32 * 2 ^ sh ≤ rem * 2 ^ 32 + r * 2 ^ sh := by
    have hl : 2 ^ sh * c * 2 ^ 32 = 2 ^ 32 * 2 ^ sh * c := by
      rw [Nat.mul_right_comm, Nat.mul_comm (2 ^ sh)]
    have hr : rem * c * 2 ^ 32 + r * (2 ^ sh * c) = (rem * 2 ^ 32 + r * 2 ^ sh) * c := by
      rw [Nat.add_mul, Nat.mul_right_comm, Nat.mul_assoc r]
    rw [hl, hr]
    exact Nat.mul_le_mul_right_iff hc
  simp only [choosesNext, roundsUp, hk, hnear, htie, hpart, hfill]
  match mode, hmode with
  | 0, _ => simp [rmRNE, Bool.beq_eq_decide_eq]
  | 1, _ => simp [rmRNE, rmRTZ]
  | 2, _ => simp [rmRNE, rmRTZ, rmRDN]
  | 3, _ => simp [rmRNE, rmRTZ, rmRDN, rmRUP]
  | 4, _ => simp [rmRNE, rmRTZ, rmRDN, rmRUP]

/-- An exact value is not rounded up. -/
theorem roundsUp_exact {mode r : Nat} (neg : Bool) (q : Nat) (hr : r < 2 ^ 32) (hm : mode < 5) :
    roundsUp mode r neg q 0 0 false = false := by
  rw [roundsUp_eq_choosesNext (c := 1) neg hm Nat.one_pos rfl]
  simpa [choosesNext] using fun _ => hr

/-! ## round (R86, R90) -/

/-- The encoding of the units that a value is cut to: the greatest whose magnitude is not above the value. -/
def encBelow (t : ETy) (m : Nat) (e : Int) : Nat :=
  (lastPlace t m e - leastExp t).toNat * 2 ^ t.fracBits + cutQuot (lastPlace t m e) m e

/-- The units of the rounded value. -/
def roundedUnits (t : ETy) (mode r : Nat) (neg : Bool) (m : Nat) (e : Int) : Nat :=
  let u := lastPlace t m e
  let q := cutQuot u m e
  if roundsUp mode r neg q (cutRem u m e) (cutShift u e) false then q + 1 else q

/-- The encoding that is delivered when the value is not too large for the format. -/
def encRounded (t : ETy) (mode r : Nat) (neg : Bool) (m : Nat) (e : Int) : Nat :=
  (lastPlace t m e - leastExp t).toNat * 2 ^ t.fracBits + roundedUnits t mode r neg m e

theorem encRounded_eq (t : ETy) (mode r : Nat) (neg : Bool) (m : Nat) (e : Int) :
    let u := lastPlace t m e
    encRounded t mode r neg m e =
      if roundsUp mode r neg (cutQuot u m e) (cutRem u m e) (cutShift u e) false then encBelow t m e + 1 else encBelow t m e := by
  unfold encRounded roundedUnits encBelow
  dsimp only
  split <;> rfl

/-- The modes that deliver infinity beyond the largest finite value (R86). -/
abbrev OverflowsToInf (mode : Nat) (neg : Bool) : Prop :=
  mode = 0 ∨ mode = 4 ∨ (mode = 2 ∧ neg = true) ∨ (mode = 3 ∧ neg = false)

/-- The largest finite value stands just below infinity. -/
theorem overflow_value (t : ETy) (mode : Nat) (neg : Bool) :
    (if mode == rmRNE || mode == rmRSTO || (mode == rmRDN && neg) || (mode == rmRUP && !neg) then t.emax * 2 ^ t.fracBits
      else t.emax * 2 ^ t.fracBits - 1) + zeroBits t neg = infBits t neg - (if OverflowsToInf mode neg then 0 else 1) := by
  have hinf : (mode == rmRNE || mode == rmRSTO || (mode == rmRDN && neg) || (mode == rmRUP && !neg)) = decide (OverflowsToInf mode neg) := by
    simp [rmRNE, rmRSTO, rmRDN, rmRUP, Bool.beq_eq_decide_eq, Bool.or_assoc]
  have hpos : 0 < t.emax * 2 ^ t.fracBits := by cases t <;> decide
  simp only [hinf, decide_eq_true_eq, infBits, zeroBits]
  split <;> omega

/-- The flags of a value that does not overflow (R90). -/
theorem inexact_flags (t : ETy) (rem n : Nat) :
    flag (rem != 0 || false) flNX ||| flag ((rem != 0 || false) && decide (n < 2 ^ t.fracBits)) flUF =
      (if rem = 0 then 0 else 0x08) ||| (if rem ≠ 0 ∧ n < 2 ^ t.fracBits then 0x10 else 0) := by
  by_cases h : rem = 0
  · simp [h, flag]
  · simp [h, flag, flNX, flUF]

/-- An exact value is rounded to one of two encodings, or overflows. -/
theorem roundTo_eq (t : ETy) (mode r : Nat) (neg : Bool) (m : Nat) (e : Int) :
    roundTo t mode r neg m e false =
      let rem := cutRem (lastPlace t m e) m e
      let n := encRounded t mode r neg m e
      if t.emax * 2 ^ t.fracBits ≤ n then (infBits t neg - (if OverflowsToInf mode neg then 0 else 1), 0x28)
      else (n + zeroBits t neg, (if rem = 0 then 0 else 0x08) ||| (if rem ≠ 0 ∧ n < 2 ^ t.fracBits then 0x10 else 0)) := by
  dsimp only
  rw [← overflow_value, ← inexact_flags]
  rfl

/-- A value of the format, given by its units in its own last place, is delivered with no flag. -/
theorem roundTo_exact {t : ETy} {mode r : Nat} (neg : Bool) {m : Nat} {e : Int} (hmode : mode < 5) (hr : r < 2 ^ 32)
    (hu : lastPlace t m e = e) (hn : (e - leastExp t).toNat * 2 ^ t.fracBits + m < t.emax * 2 ^ t.fracBits) :
    roundTo t mode r neg m e false = ((e - leastExp t).toNat * 2 ^ t.fracBits + m + zeroBits t neg, 0) := by
  have hq : cutQuot e m e = m := by simp [cutQuot]
  have hrem : cutRem e m e = 0 := by simp [cutRem]
  have hsh : cutShift e e = 0 := by simp [cutShift]
  have henc : encRounded t mode r neg m e = (e - leastExp t).toNat * 2 ^ t.fracBits + m := by
    simp [encRounded, roundedUnits, hu, hq, hrem, hsh, roundsUp_exact neg m hr hmode]
  rw [roundTo_eq, hu, henc]
  dsimp only
  rw [if_neg (Nat.not_le.mpr hn), hrem]
  simp

/-- The magnitude of encoding `k` in units of the lesser of 2^e and the unit of the subnormal numbers. -/
def scaledMag (t : ETy) (e : Int) (k : Nat) : Nat := magnitude t.fracBits k * 2 ^ (leastExp t - e).toNat

theorem encBelow_parity (t : ETy) (m : Nat) (e : Int) : encBelow t m e % 2 = cutQuot (lastPlace t m e) m e % 2 := by
  have hF : 2 ^ t.fracBits % 2 = 0 := by cases t <;> rfl
  rw [encBelow, Nat.add_mod, Nat.mul_mod, hF]
  simp

/-- The two encodings around a value that is not zero, and the value, in the parts that it is cut to. -/
theorem encBelow_scaled (t : ETy) {m : Nat} (e : Int) (hm : m ≠ 0) :
    let u := lastPlace t m e
    ∃ c, 0 < c ∧ scaledMag t e (encBelow t m e) = cutQuot u m e * 2 ^ cutShift u e * c ∧
      scaledMag t e (encBelow t m e + 1) = cutQuot u m e * 2 ^ cutShift u e * c + 2 ^ cutShift u e * c ∧
      m * 2 ^ (e - leastExp t).toNat = cutQuot u m e * 2 ^ cutShift u e * c + cutRem u m e * c := by
  have hle : leastExp t ≤ lastPlace t m e := Int.le_max_right _ _
  have hlt := cutQuot_lt t m e
  have hj : (lastPlace t m e - leastExp t).toNat = 0 ∨ 2 ^ t.fracBits ≤ cutQuot (lastPlace t m e) m e := by
    by_cases h : leastExp t < lastPlace t m e
    · exact .inr (le_cutQuot hm h)
    · exact .inl (by omega)
  obtain ⟨c, hc, hulp, hx⟩ := cut_scaled m e hle
  refine ⟨c, hc, ?_, ?_, by rw [hx, Nat.add_mul]⟩
  · rw [scaledMag, encBelow, magnitude_binade hlt hj, Nat.mul_assoc, hulp, Nat.mul_assoc]
  · rw [scaledMag, encBelow, magnitude_binade_succ hlt hj, Nat.mul_assoc, hulp, Nat.succ_mul, Nat.mul_assoc]

/-- The value lies between the two; the mode chooses by the part above the lower one, which is 0 when the value is exact. -/
theorem encRounded_between (t : ETy) {mode : Nat} (r : Nat) (neg : Bool) {m : Nat} (e : Int) (hmode : mode < 5) (hm : m ≠ 0) :
    let x : Nat := m * 2 ^ (e - leastExp t).toNat
    let k := encBelow t m e
    let part := x - scaledMag t e k
    scaledMag t e k ≤ x ∧ x < scaledMag t e (k + 1) ∧
      encRounded t mode r neg m e = (if choosesNext mode r neg k (scaledMag t e (k + 1) - scaledMag t e k) part then k + 1 else k) ∧
      (cutRem (lastPlace t m e) m e = 0 ↔ part = 0) := by
  obtain ⟨c, hc, hlow, hhigh, hx⟩ := encBelow_scaled t e hm
  dsimp only at hlow hhigh hx ⊢
  rw [hlow, hhigh, hx, Nat.add_sub_cancel_left, Nat.add_sub_cancel_left,
    ← roundsUp_eq_choosesNext neg hmode hc (encBelow_parity t m e)]
  exact ⟨Nat.le_add_right _ _, Nat.add_lt_add_left (Nat.mul_lt_mul_of_pos_right (cutRem_lt _ m e) hc) _,
    encRounded_eq t mode r neg m e, fun h => by rw [h, Nat.zero_mul],
    fun h => (Nat.mul_eq_zero.mp h).resolve_right (Nat.ne_of_gt hc)⟩

/-- R86 and R90: the value lies between two neighbours, of which the mode delivers one. -/
theorem roundTo_between (t : ETy) {mode : Nat} (r : Nat) (neg : Bool) {m : Nat} (e : Int) (hmode : mode < 5) (hm : m ≠ 0) :
    let x : Nat := m * 2 ^ (e - leastExp t).toNat
    ∃ k, scaledMag t e k ≤ x ∧ x < scaledMag t e (k + 1) ∧
      let part := x - scaledMag t e k
      let n := if choosesNext mode r neg k (scaledMag t e (k + 1) - scaledMag t e k) part then k + 1 else k
      roundTo t mode r neg m e false =
        if t.emax * 2 ^ t.fracBits ≤ n then
          (infBits t neg - (if OverflowsToInf mode neg then 0 else 1), 0x28)
        else (n + zeroBits t neg, (if part = 0 then 0 else 0x08) ||| (if part ≠ 0 ∧ n < 2 ^ t.fracBits then 0x10 else 0)) := by
  obtain ⟨hlow, hhigh, hn, hpart⟩ := encRounded_between t r neg e hmode hm
  refine ⟨encBelow t m e, hlow, hhigh, ?_⟩
  dsimp only at hn hpart ⊢
  rw [roundTo_eq, ← hn]
  simp only [hpart, ne_eq]

end Sys2Proof.Machine

/-!
PROOF. Float arithmetic on values that are not finite, on zeros and on exact values (R88, R89), the lesser and the greater lane (R103), and the
statement about them.
-/
namespace Sys2Proof.Machine

open Sys2Proof

/-! ## Values of encodings (R79) -/

theorem isNaN_iff_fval (t : ETy) (x : Nat) : isNaN t x = true ↔ fval t x = .nan := by
  unfold isNaN fval
  by_cases he : fExp t x = t.emax
  · by_cases hf : fFrac t x = 0 <;> simp [he, hf]
  · by_cases h0 : fExp t x = 0
    · simp [he, ← h0]
    · simp [he, h0]

theorem isNaN_of_fval {t : ETy} {x : Nat} {v : FVal} (h : fval t x = v) (hv : v ≠ .nan) : isNaN t x = false := by
  rw [← Bool.not_eq_true, isNaN_iff_fval, h]
  exact hv

theorem fval_infBits {t : ETy} (ht : t.isFloat = true) (n : Bool) : fval t (infBits t n) = .inf n := by
  revert ht n
  cases t <;> decide

theorem fval_zeroBits {t : ETy} (ht : t.isFloat = true) (n : Bool) : fval t (zeroBits t n) = .fin n 0 (leastExp t) := by
  revert ht n
  cases t <;> decide

/-! ## Operations on two encodings (R88, R89) -/

section
variable (t : ETy) (mode r : Nat)

/-- A NaN operand decides the result. -/
theorem floatOp_nan {a b : Nat} (h : isNaN t a = true ∨ isNaN t b = true) (v : Option FVal) :
    floatOp t mode r [a, b] v = (nanBits t, if isSNaN t a || isSNaN t b then 0x80 else 0) := by
  have hany : [a, b].any (isNaN t) = true := by simpa using h
  rw [floatOp, if_pos hany, snanFlag, List.any_cons, List.any_cons, List.any_nil, Bool.or_false]
  rfl

/-- Otherwise the value is delivered. -/
theorem floatOp_deliver {a b : Nat} {x y : FVal} (ha : fval t a = x) (hb : fval t b = y) (hx : x ≠ .nan) (hy : y ≠ .nan)
    (v : Option FVal) : floatOp t mode r [a, b] v = deliver t mode r v := by
  rw [floatOp, if_neg]
  simp [isNaN_of_fval ha hx, isNaN_of_fval hb hy]

theorem fAdd_deliver {a b : Nat} {x y : FVal} (ha : fval t a = x) (hb : fval t b = y) (hx : x ≠ .nan) (hy : y ≠ .nan) :
    fAdd t mode r a b = deliver t mode r (x.plus mode y) := by
  rw [fAdd, floatOp_deliver t mode r ha hb hx hy, ha, hb]

theorem fSub_deliver {a b : Nat} {x y : FVal} (ha : fval t a = x) (hb : fval t b = y) (hx : x ≠ .nan) (hy : y ≠ .nan) :
    fSub t mode r a b = deliver t mode r (x.plus mode y.opp) := by
  rw [fSub, floatOp_deliver t mode r ha hb hx hy, ha, hb]

theorem fMul_deliver {a b : Nat} {x y : FVal} (ha : fval t a = x) (hb : fval t b = y) (hx : x ≠ .nan) (hy : y ≠ .nan) :
    fMul t mode r a b = deliver t mode r (x.times y) := by
  rw [fMul, floatOp_deliver t mode r ha hb hx hy, ha, hb]

/-- A finite value that is not zero is rounded. -/
theorem deliver_fin (n : Bool) {m : Nat} (e : Int) (hm : m ≠ 0) : deliver t mode r (some (.fin n m e)) = roundTo t mode r n m e false :=
  if_neg hm

theorem unitsOf_eq (neg : Bool) (m : Nat) (e d : Int) : unitsOf neg m e d = (if neg then -1 else 1) * (m * 2 ^ (e - d).toNat) := by
  cases neg
  · exact (Int.one_mul _).symm
  · exact Int.neg_eq_neg_one_mul _

/-- The product of finite operands that are not zero is rounded once. -/
theorem fMul_fin {a b : Nat} {na nb : Bool} {ma mb : Nat} {ea eb : Int} (ha : fval t a = .fin na ma ea) (hb : fval t b = .fin nb mb eb)
    (hma : ma ≠ 0) (hmb : mb ≠ 0) : fMul t mode r a b = roundTo t mode r (na != nb) (ma * mb) (ea + eb) false := by
  rw [fMul_deliver t mode r ha hb nofun nofun]
  exact deliver_fin t mode r _ _ (Nat.mul_ne_zero hma hmb)

/-- A sum that is not zero is rounded once. -/
theorem fAdd_fin {a b : Nat} {na nb : Bool} {ma mb : Nat} {ea eb : Int} (ha : fval t a = .fin na ma ea) (hb : fval t b = .fin nb mb eb)
    (hma : ma ≠ 0) (hmb : mb ≠ 0) (hk : unitsOf na ma ea (min ea eb) + unitsOf nb mb eb (min ea eb) ≠ 0) :
    let k := unitsOf na ma ea (min ea eb) + unitsOf nb mb eb (min ea eb)
    fAdd t mode r a b = roundTo t mode r (decide (k < 0)) k.natAbs (min ea eb) false := by
  rw [fAdd_deliver t mode r ha hb nofun nofun, FVal.plus]
  simp only [hma, hmb, hk, if_false]
  exact deliver_fin t mode r _ _ (Int.natAbs_ne_zero.mpr hk)

end

/-- Sums and products with infinities (R89). -/
theorem float_infinities {t : ETy} (ht : t.isFloat = true) (mode r : Nat) (n : Bool) :
    fAdd t mode r (infBits t n) (infBits t !n) = (nanBits t, 0x80) ∧ fSub t mode r (infBits t n) (infBits t n) = (nanBits t, 0x80) ∧
    fAdd t mode r (infBits t n) (infBits t n) = (infBits t n, 0) ∧
    ∀ n', fMul t mode r (infBits t n) (zeroBits t n') = (nanBits t, 0x80) ∧
      fMul t mode r (infBits t n) (infBits t n') = (infBits t (n != n'), 0) := by
  have hi := fval_infBits ht
  have hz := fval_zeroBits ht
  have hn : n ≠ !n := by cases n <;> decide
  refine ⟨?opposite, ?less, ?same, fun n' => ⟨?zero, ?product⟩⟩
  case opposite =>
    rw [fAdd_deliver t mode r (hi _) (hi _) nofun nofun, FVal.plus, if_neg hn]
    rfl
  case less =>
    rw [fSub_deliver t mode r (hi _) (hi _) nofun nofun, FVal.opp, FVal.plus, if_neg hn]
    rfl
  case same =>
    rw [fAdd_deliver t mode r (hi _) (hi _) nofun nofun, FVal.plus, if_pos rfl]
    rfl
  case zero =>
    rw [fMul_deliver t mode r (hi _) (hz _) nofun nofun]
    rfl
  case product =>
    rw [fMul_deliver t mode r (hi _) (hi _) nofun nofun]
    rfl

/-- Sums of two zeros (R88). -/
theorem float_zeros {t : ETy} (ht : t.isFloat = true) (mode r : Nat) (n : Bool) :
    fAdd t mode r (zeroBits t n) (zeroBits t n) = (zeroBits t n, 0) ∧
    fAdd t mode r (zeroBits t n) (zeroBits t !n) = (zeroBits t (mode == 2), 0) := by
  have hz := fval_zeroBits ht
  have hn : n ≠ !n := by cases n <;> decide
  constructor
  · rw [fAdd_deliver t mode r (hz _) (hz _) nofun nofun]
    simp [FVal.plus, deliver]
  · rw [fAdd_deliver t mode r (hz _) (hz _) nofun nofun]
    simp [FVal.plus, deliver, rmRDN]

/-! ## Values of the format (R88) -/

/-- The sign bit stands above the fields (R79). -/
theorem div_signBit {t : ETy} {a : Nat} (ha : a < 2 ^ t.bits) : a / t.signBit * t.signBit = zeroBits t (fNeg t a) := by
  have hpow : 2 ^ t.bits = 2 * t.signBit := by cases t <;> rfl
  have hpos : 0 < t.signBit := Nat.two_pow_pos _
  have hlt : a / t.signBit < 2 := by
    rw [Nat.div_lt_iff_lt_mul hpos, ← hpow]
    exact ha
  have hneg : fNeg t a = (a / t.signBit % 2 == 1) := by
    rw [fNeg, nbits, Nat.add_sub_cancel_left, Nat.pow_one, ETy.signBit]
  rw [hneg, zeroBits]
  match a / t.signBit, hlt with
  | 0, _ => exact Nat.zero_mul _
  | 1, _ => exact Nat.one_mul _

/-- Below the sign bit stand the exponent field and the fraction field (R79). -/
theorem mod_signBit {t : ETy} (ht : t.isFloat = true) (a : Nat) : a % t.signBit = fExp t a * 2 ^ t.fracBits + fFrac t a := by
  have hpow : t.signBit = 2 ^ t.fracBits * 2 ^ (t.bits - 2 + 1 - t.fracBits) := by
    revert ht
    cases t <;> decide
  rw [hpow, Nat.mod_mul, fExp, fFrac, nbits, Nat.mul_comm, Nat.add_comm]

/-- An encoding is its exponent field, its fraction field and its sign. -/
theorem encoding_eq {t : ETy} (ht : t.isFloat = true) {a : Nat} (ha : a < 2 ^ t.bits) :
    fExp t a * 2 ^ t.fracBits + fFrac t a + zeroBits t (fNeg t a) = a := by
  rw [← mod_signBit ht, ← div_signBit ha, Nat.mod_add_div']

theorem fFrac_lt (t : ETy) (a : Nat) : fFrac t a < 2 ^ t.fracBits := Nat.mod_lt _ (Nat.two_pow_pos _)

theorem fExp_le {t : ETy} (ht : t.isFloat = true) (a : Nat) : fExp t a ≤ t.emax := by
  have hlt : fExp t a < 2 ^ (t.bits - 2 + 1 - t.fracBits) := Nat.mod_lt _ (Nat.two_pow_pos _)
  have hpow : 2 ^ (t.bits - 2 + 1 - t.fracBits) = t.emax + 1 := by
    revert ht
    cases t <;> decide
  omega

/-- The last place of a subnormal number. -/
theorem lastPlace_subnormal {t : ETy} {f : Nat} (hf : f ≠ 0) (hlt : f < 2 ^ t.fracBits) : lastPlace t f (leastExp t) = leastExp t := by
  have hlog : log2 f < t.fracBits := (Nat.log2_lt hf).mpr hlt
  exact Int.max_eq_right (by omega)

/-- The last place of a normal number. -/
theorem lastPlace_normal {t : ETy} {f : Nat} {e : Int} (hlt : f < 2 ^ t.fracBits) (he : leastExp t ≤ e) :
    lastPlace t (2 ^ t.fracBits + f) e = e := by
  have hF := Nat.two_pow_pos t.fracBits
  have hlog : log2 (2 ^ t.fracBits + f) = t.fracBits :=
    (Nat.log2_eq_iff (by omega)).mpr ⟨Nat.le_add_right _ _, by rw [Nat.pow_succ]; omega⟩
  rw [lastPlace, hlog]
  omega

/-- A finite value that is not zero is rounded to its own encoding. -/
theorem fval_rounds {t : ETy} {mode r a : Nat} (ht : t.isFloat = true) (hmode : mode < 5) (hr : r < 2 ^ 32) (ha : a < 2 ^ t.bits)
    (he : fExp t a ≠ t.emax) (hz : fFrac t a ≠ 0 ∨ fExp t a ≠ 0) :
    ∃ m e, fval t a = .fin (fNeg t a) m e ∧ m ≠ 0 ∧ roundTo t mode r (fNeg t a) m e false = (a, 0) := by
  have hF := Nat.two_pow_pos t.fracBits
  have hf := fFrac_lt t a
  have henc := encoding_eq ht ha
  have hlt : (fExp t a + 1) * 2 ^ t.fracBits ≤ t.emax * 2 ^ t.fracBits :=
    Nat.mul_le_mul_right _ (Nat.lt_of_le_of_ne (fExp_le ht a) he)
  rw [Nat.succ_mul] at hlt
  by_cases h0 : fExp t a = 0
  · have hf0 : fFrac t a ≠ 0 := hz.resolve_right (not_not_intro h0)
    have hn : (leastExp t - leastExp t).toNat * 2 ^ t.fracBits + fFrac t a = fExp t a * 2 ^ t.fracBits + fFrac t a := by
      rw [Int.sub_self, h0]
      rfl
    refine ⟨fFrac t a, leastExp t, ?_, hf0, ?_⟩
    · rw [fval, if_neg he, if_pos h0, leastExp]
    · rw [roundTo_exact _ hmode hr (lastPlace_subnormal hf0 hf) (by omega), hn, henc]
  · have hle : leastExp t ≤ (fExp t a : Int) - t.bias - t.fracBits := by
      unfold leastExp
      omega
    have hn : ((fExp t a : Int) - t.bias - t.fracBits - leastExp t).toNat * 2 ^ t.fracBits + (2 ^ t.fracBits + fFrac t a) =
        fExp t a * 2 ^ t.fracBits + fFrac t a := by
      have hb : ((fExp t a : Int) - t.bias - t.fracBits - leastExp t).toNat + 1 = fExp t a := by
        unfold leastExp
        omega
      rw [← Nat.add_assoc, ← Nat.succ_mul, Nat.succ_eq_add_one, hb]
    refine ⟨2 ^ t.fracBits + fFrac t a, (fExp t a : Int) - t.bias - t.fracBits, ?_, by omega, ?_⟩
    · rw [fval, if_neg he, if_neg h0]
    · rw [roundTo_exact _ hmode hr (lastPlace_normal hf hle) (by omega), hn, henc]

/-- A value and +0 have the value as their sum. -/
theorem FVal.plus_zero (mode : Nat) (n z : Bool) {m : Nat} (e f : Int) (hm : m ≠ 0) :
    (FVal.fin n m e).plus mode (.fin z 0 f) = some (.fin n m e) := by
  cases n <;> simp [FVal.plus, hm, unitsOf, Nat.pos_of_ne_zero hm]

theorem fAdd_zero {t : ETy} {mode r a : Nat} (ht : t.isFloat = true) (hmode : mode < 5) (hr : r < 2 ^ 32) (ha : a < 2 ^ t.bits)
    (he : fExp t a ≠ t.emax) (hz : fFrac t a ≠ 0 ∨ fExp t a ≠ 0) : fAdd t mode r a (zeroBits t false) = (a, 0) := by
  obtain ⟨m, e, hv, hm, hround⟩ := fval_rounds ht hmode hr ha he hz
  rw [fAdd_deliver t mode r hv (fval_zeroBits ht false) nofun nofun, FVal.plus_zero mode _ _ _ _ hm, deliver_fin t mode r _ _ hm, hround]

/-! ## The lesser and the greater lane (R103) -/

theorem flag_or (a b : Bool) (c : BitVec 9) : flag (a || b) c = flag a c ||| flag b c := by
  cases a <;> cases b <;> simp [flag]

theorem or_flag_of_active (act p : Bool) (c z : BitVec 9) : (if act then z ||| flag p c else z) = z ||| flag (act && p) c := by
  cases act <;> simp [flag]

/-- Flags of one kind that active lanes set. -/
theorem foldl_flags (act p : Nat → Bool) (c : BitVec 9) (l : List Nat) (z : BitVec 9) :
    l.foldl (fun fl i => if act i then fl ||| flag (p i) c else fl) z = z ||| flag (l.any fun i => act i && p i) c := by
  induction l generalizing z with
  | nil => exact BitVec.or_zero.symm
  | cons i is ih => rw [List.foldl_cons, or_flag_of_active, ih, List.any_cons, flag_or, BitVec.or_assoc]

/-- Where the lanes set one flag `c` only, the vector sets it when an active lane does. -/
theorem vmapF_flags (t : ETy) (m : BitVec 16) (old : Vec) {f : Nat → Nat × BitVec 9} {p : Nat → Bool} {c : BitVec 9}
    (hf : ∀ i, (f i).2 = flag (p i) c) : (vmapF t m old f).2 = flag ((List.range t.lanes).any fun i => mbit m i && p i) c := by
  unfold vmapF
  simp only [hf]
  rw [foldl_flags]
  exact BitVec.zero_or

/-- Format V with two sources, short. -/
theorem formV3_writes {o : V3} {s : State} (r : s.Ready o.s [vr o.d, vr o.a, vr o.b]) (f : Ctx → Vec → Vec → Vec → Vec × BitVec 9) :
    let p := f s.now (s.now.getV o.d.toNat) (s.now.getV o.a.toNat) (s.now.getV o.b.toNat)
    formV3 o s f = .next (s.after fun x => (x.setV o.d.toNat p.1).orFlags p.2) :=
  State.issueCtx_ok r _

/-- What VFMIN and VFMAX give of two encodings (R103). -/
def picked (t : ETy) (greater : Bool) (a b : Nat) : Nat :=
  if isNaN t a && isNaN t b then nanBits t % 2 ^ t.bits
  else if isNaN t a then b
  else if isNaN t b then a
  else if fOrd' t a ≤ fOrd' t b then (if greater then b else a) else (if greater then a else b)

theorem fPick_value (t : ETy) (greater : Bool) {a b : Nat} (ha : a < 2 ^ t.bits) (hb : b < 2 ^ t.bits) :
    (fPick t greater a b).1 % 2 ^ t.bits = picked t greater a b := by
  have ha' := Nat.mod_eq_of_lt ha
  have hb' := Nat.mod_eq_of_lt hb
  unfold fPick picked
  cases isNaN t a
  case true => cases isNaN t b <;> simp [hb']
  case false =>
    cases isNaN t b
    case true => simp [ha']
    case false => by_cases hle : fOrd' t a ≤ fOrd' t b <;> cases greater <;> simp [hle, ha', hb']

theorem fPick_flags (t : ETy) (greater : Bool) (a b : Nat) : (fPick t greater a b).2 = flag (isSNaN t a || isSNaN t b) flNV := by
  unfold fPick snanFlag
  simp only [List.any_cons, List.any_nil, Bool.or_false]
  split
  · rfl
  · split <;> rfl

/-- VFMIN and VFMAX under the mask. -/
theorem formVPick_writes {o : V3} {s : State} (r : s.Ready o.s [vr o.d, vr o.a, vr o.b]) (greater : Bool) :
    let A := lane o.t.bits (s.now.getV o.a.toNat)
    let B := lane o.t.bits (s.now.getV o.b.toNat)
    let act := mbit (s.now.getM o.m.toNat)
    ∃ v, formVPick o s greater = .next (s.after fun x => (x.setV o.d.toNat v).orFlags
        (if ∃ k, k < o.t.lanes ∧ act k = true ∧ (isSNaN o.t (A k) = true ∨ isSNaN o.t (B k) = true) then 0x80 else 0)) ∧
      ∀ k, k < o.t.lanes → lane o.t.bits v k = if act k then picked o.t greater (A k) (B k) else lane o.t.bits (s.now.getV o.d.toNat) k := by
  intro A B act
  have hfl : flag ((List.range o.t.lanes).any fun k => act k && (isSNaN o.t (A k) || isSNaN o.t (B k))) flNV =
      if ∃ k, k < o.t.lanes ∧ act k = true ∧ (isSNaN o.t (A k) = true ∨ isSNaN o.t (B k) = true) then 0x80 else 0 := by
    simp [flag, flNV]
  rw [← hfl, ← vmapF_flags o.t _ (s.now.getV o.d.toNat) fun k => fPick_flags o.t greater (A k) (B k)]
  refine ⟨_, formV3_writes r _, fun k hk => ?_⟩
  rw [← fPick_value o.t greater (lane_lt ..) (lane_lt ..)]
  exact lane_vmap o.t _ _ _ k hk

/-- Settles O21: `roundTo_between` for R86 and R90; the cases of R88 and R89; and VFMIN and VFMAX as `fPick` on lanes. -/
theorem float_special_values : Obligations.Float_special_values := by
  unfold Obligations.Float_special_values
  refine ⟨⟨fun t mode r neg m e _ hmode _ hm => ?rounding, fun t mode r a b na nb ma mb ea eb ha hb hma hmb => ?finite⟩,
    fun t mode r a b ht hmode hr hbits _ => ⟨fun h => ?nan, ?inf, ?zero, fun _ => ?format⟩, fun o s rdy => ?pick⟩
  case rounding => exact roundTo_between t r neg e hmode hm
  case finite =>
    refine ⟨fMul_fin t mode r ha hb hma hmb, ?_⟩
    dsimp only
    rw [← unitsOf_eq, ← unitsOf_eq]
    exact fAdd_fin t mode r ha hb hma hmb
  case nan => exact ⟨floatOp_nan t mode r h _, floatOp_nan t mode r h _, floatOp_nan t mode r h _⟩
  case inf => exact float_infinities ht mode r
  case zero => exact float_zeros ht mode r
  case format => exact fAdd_zero ht hmode hr hbits
  case pick => exact ⟨formVPick_writes rdy false, formVPick_writes rdy true⟩

end Sys2Proof.Machine
